-- ==== Sys2Proof/Word.lean ====
section
/-!
DEFINITION. The word types of the model and their plainest operations: bytes, and finite maps from a Nat key kept as
sorted lists (plain data, so that equal maps are equal lists).
-/

namespace Sys2Proof

/-- One byte. -/
abbrev Byte := BitVec 8

/-- A finite map from a Nat key, as a list of pairs with rising keys. -/
abbrev NMap (α : Type) := List (Nat × α)

/-- A lane number, and so a port number: a port is named by its first lane (R23). -/
abbrev LaneNo := Fin 1024

/-- A Millrace port number (R17). -/
abbrev MrNo := Fin 8

end Sys2Proof
end

