-- ==== Sys2Proof/Config.lean ====
section
/-!
DEFINITION. What the assembly fixes (the variant), the shape of a Catalogue entry, and the free values: opaque
constants that nothing in Lean can evaluate, one for each value that the spec leaves open.
-/

namespace Sys2Proof

namespace Machine

/-- The assembly variants (R4). DESIGN CHOICE (log 12). -/
inductive Part where
  | fn84 | fn83 | fn82 | fn44
deriving DecidableEq, Repr

/-- Entry types (R32, code 0x01 to 0x10 in order). -/
inductive Ty where
  | bool | u8 | u16 | u32 | u64 | i32 | i64 | handle | ft | status | enum8 | bits32 | bits64 | octets | format | domain
deriving DecidableEq, Repr

/-- Access codes (R14). `sub` is the subscription target of R515. -/
inductive Acc where
  | ro | rw | w1c | wo | rc | sub
deriving DecidableEq, Repr

/-- Field classes (R38). -/
inductive Cls where
  | config | status | sticky | counter | handle
deriving DecidableEq, Repr

/-- The values that a write may hold (R32): any of the type, a range, a list, a multiple in a range, a power of two in
a range, one value or else a multiple in a range. -/
inductive Rng where
  | any
  | range (lo hi : Nat)
  | oneOf (l : List Nat)
  | mult (lo hi m : Nat)
  | pow2 (lo hi : Nat)
  | orElse (v lo hi m : Nat)
deriving DecidableEq, Repr

/-- The default of an entry: a number, or a default that differs by instance, named. -/
inductive Dflt where
  | v (n : Nat)
  | mrRole | queueWeight | sevTable | maskTable | fmtName | fmtBits | fmtBlock | fmtGranule | fmtRate
  | portMac | commMac | partitionSets | gateList | shedCap | t1Bytes | domName | domRestore | domRamp | domCost
  | domStatus | millState | millLogical | millMap | laneState | hbmState | thermSensor
deriving DecidableEq, Repr

/-- One record of the entry table: `rep` consecutive indices from `idx`, `subN` subindices from `sub` in steps of
`subStep`, the length in bytes, and the attributes of R31. `kept` marks Retained entries (R15); `tmpl` marks fields of
a handle type (R40). -/
structure Ent where
  idx : Nat
  rep : Nat
  sub : Nat
  subN : Nat
  subStep : Nat
  ty : Ty
  len : Nat
  acc : Acc
  cls : Cls
  dflt : Dflt
  kept : Bool
  rng : Rng
  tmpl : Bool
deriving DecidableEq, Repr

/-- One place of the Catalogue store, with the value it reads while nothing has been written. -/
structure Loc where
  key : Nat
  dflt : Nat
deriving DecidableEq, Repr

end Machine

namespace Config

/-- `device` serial number (0x1000:04), 16 bytes as a number: assigned at manufacture. DESIGN CHOICE (log 11). -/
opaque serial : Nat
/-- `port.mac` of the port with first lane n: serial-derived (R137). DESIGN CHOICE (log 11). -/
opaque portMac (n : Nat) : Nat
/-- `comm.mac`: serial-derived (R499). DESIGN CHOICE (log 11). -/
opaque commMac : Nat
/-- `pwr.shed_cap` of the variants other than the FN7-84 (R537): per variant, and stated for the FN7-84 alone.
DESIGN CHOICE (log 17). -/
opaque shedCap (variant : Nat) : Nat
/-- The 32-byte key of role Factory, as a number: R483 lists none in the secret store. DESIGN CHOICE (log 164). -/
opaque factoryKey : Nat
/-- The flow hash of R125 over partition key, class and handle. DESIGN CHOICE (log 17). -/
opaque flowHash (part cls handle : Nat) : Nat
/-- Which of the FP32 values within one unit in the last place a Mill's exp (0), erf (1) or sqrt (2) gives at an FP32
argument (R338). DESIGN CHOICE (log 17); DEDUCED (log 108). -/
opaque ulpPick (fn x : Nat) : Nat
/-- Does the signature sig verify over the header bytes hdr under the fused Stavyon key (R478)? DESIGN CHOICE (log 17). -/
opaque fwSignature (hdr sig : Nat) : Bool
/-- The conditions of `device.conditions` that the firmware image with the header bytes hdr lifts, a bit for each (R599): its
release record lists them. DESIGN CHOICE (log 191). -/
opaque conditionsLifted (hdr : Nat) : Nat
/-- A fresh free value: number `i` of the run. DESIGN CHOICE (log 16). -/
opaque free (i : Nat) : Nat

end Config

end Sys2Proof
end

