-- ==== Sys2Proof/Machine/Types.lean ====
section
/-!
DEFINITION. The record types that State and the commands share: requests and their items, packets, frames, and what
leaves the block.
-/

namespace Sys2Proof

/-- The transports that carry Catalogue requests (R58); a control packet names the port it arrived on (R601). -/
inductive Transport where
  | mctp | udp | mailbox
  | control (port : Nat)
deriving DecidableEq, Repr

/-- The header fields of a request PDU that a command carries (R54), with the transport and the requester's address
(MCTP endpoint ID, or UDP address and port). DESIGN CHOICE (log 41). -/
structure Req where
  via : Transport
  src : Nat
  tag : Nat
  session : Nat
  tx : Nat
deriving DecidableEq, Repr

/-- What the host writes to the mailbox registers when it rings (R59): the W1C bits of the mailbox status, then the length at
the doorbell. -/
structure Ring where
  clear : Nat
  len : Nat
deriving DecidableEq, Repr

/-- What the host writes to the registers of a ring when it posts entries (R490, R492): the W1C bits of ring_flags, then
ring_tail. -/
structure Post where
  clear : Nat
  tail : Nat
deriving DecidableEq, Repr

/-- One item of a request (R54). -/
structure Item where
  index : Nat
  sub : Nat
  flags : Nat
  handle : Nat
  rsv : Nat
  data : List Byte
deriving DecidableEq, Repr

/-- One item of a response (R54). -/
structure RItem where
  index : Nat
  sub : Nat
  status : Nat
  handle : Nat
  data : List Byte
deriving DecidableEq, Repr

/-- A Rill header (R140). `rsv` gathers the reserved bits of words 0 to 4; `hcrcOk` says that the header CRC holds. -/
structure Rill where
  version : Nat
  kind : Nat
  cls : Nat
  colour : Nat
  hopCount : Nat
  hopPtr : Nat
  partition : Nat
  lifetime : Nat
  length : Nat
  cplReq : Bool
  route : List Nat
  ret : List Nat
  handle : Nat
  segment : Nat
  layer : Nat
  operator : Nat
  w8 : Nat
  w9 : Nat
  w10 : Nat
  tag : Nat
  rsv : Nat
  hcrcOk : Bool
deriving DecidableEq, Repr

/-- Traffic between units of the FN7, by what it is (R21, R22, R29): a sampler's record of a port (R191), a record on its way to
the Archive and what the Archive writes of a buffer (R459), a copy of a frame for a check of Gauge (R470), a segment's values on
their way to the Mills as a job and the job's result on its way back (R249), what a job reads from another die or from Tier 2.
`weir` says that what was observed is Weir traffic (R436). -/
inductive Inner where
  | sample (port : Nat) (weir : Bool)
  | archive (session : Nat) (weir : Bool)
  | archiveWrite (session buf addr : Nat)
  | gauge (check tap port ending idle startFt : Nat)
  | handOver (job : Nat)
  | handBack (job : Nat)
  | operand (job : Nat)
deriving DecidableEq, Repr

/-- What a packet of the switch core carries. -/
inductive Body where
  | rill (h : Rill) (payload : List Byte)
  | eth (bytes : List Byte)
  | inner (what : Inner) (bytes : List Byte)
deriving DecidableEq, Repr

/-- A packet held in the switch core (R175 to R181). `out` is a first lane 0 to 1023, or 1024 + o for the internal crossbar
output o. `inp` is the crossbar input. `cells` is what the packet has, the first of them landed on core cycle `arrCyc`,
`charged` what its account holds for it (R175); `granted` and `crossed` count cells; bit k of `planes` is the plane on which
cell k crossed. `store` is one number for all copies of one stored packet, 0 where it is no copy (R177). `weir` is 0, or for a
Weir packet one more than the Weir cycle of its placement (R417, R428). -/
structure Pkt where
  id : Nat
  body : Body
  inp : Nat
  ingress : Nat
  ingW : Nat
  out : Nat
  queue : Nat
  cells : Nat
  charged : Nat
  store : Nat
  colour : Nat
  arrFt : Nat
  admFt : Nat
  admCyc : Nat
  arrCyc : Nat
  granted : Nat
  crossed : Nat
  planes : Nat
  started : Bool
  stomp : Bool
  bundle : Nat
  passes : Nat
  member : Nat
  weir : Nat
deriving DecidableEq, Repr

/-- A packet in the Eddy (R157): the crossbar port behind which it sits, its entry FT and the passes begun. -/
structure EddyPkt where
  pkt : Pkt
  side : Nat
  enterFt : Nat
  passes : Nat
  bytes : Nat
deriving DecidableEq, Repr

/-- Millrace frames (R93), by type. -/
inductive MrFrame where
  | mark (ft : Nat)
  | wake
  | capability (payload : List Byte)
  | probe (n : Nat)
  | echo (n turnaround : Nat)
  | arm (seq target : Nat)
  | confirm (seq : Nat)
  | abort (seq : Nat)
  | missed (payload : List Byte)
  | arrive (handle : Nat)
  | release (handle : Nat)
  | digest (payload : List Byte)
  | sleep
deriving DecidableEq, Repr

/-- What a Millrace receiver got of a frame (R88, R91): the idle pairs since the frame before, the 10-bit symbols of lanes 0 and 1
of every pair, the bit sent first on the left, and the forwarded-clock edge of the first symbol, counted from the last tick of
FT (R70). DESIGN CHOICE (log 174). -/
structure MrRx where
  idles : Nat
  pairs : List (Nat × Nat)
  edge : Nat
deriving DecidableEq, Repr

/-- What a Millrace transmitter sends while it sends no frame (R97, R100 to R102): electrical idle, a receiver-detect probe on the
clock lane, the clock with D10.2 on both data lanes, training pairs with their status, idle pairs, or PRBS-31 on both data
lanes. -/
inductive MrLine where
  | off | detect | d10
  | training (locked : Bool)
  | idle | prbs
deriving DecidableEq, Repr

/-- A unit that a start stage found failed, or did not finish (R548, R549, R566, R572): a firmware slot, a lane of a UCIe module
or the module whole, a physical Mill, a row or column of SRAM or of Tier 1 that a spare replaces, 64 KiB of the Reservoir or
bytes of other memory that no spare covers, a Tier 1 stack, or the device of a CXL port. DESIGN CHOICE (log 150). -/
inductive BootUnit where
  | slot (n : Nat)
  | lane (join m : Nat)
  | module (join m : Nat)
  | mill (x : Nat)
  | row
  | reservoir
  | memory (bytes : Nat)
  | stack (h : Nat)
  | cxl (c : Nat)
deriving DecidableEq, Repr

/-- What a window of 1 s shows of the lanes of a port, lane k at place k (R116, R135): the pre-FEC symbol errors per 10^9 symbols,
or in state Pattern the bits that each lane received. DESIGN CHOICE (log 181). -/
inductive LaneWindow where
  | errors (rates : List Nat)
  | pattern (bits : List (List Bool))
deriving DecidableEq, Repr

/-- What an error of the Reservoir strikes (R194, R260): one bit of a word, which is corrected; two bits in a cell of a packet; two
bits in a slot of a Basin; and the row of the array (R549). DESIGN CHOICE (log 182). -/
inductive RsvError where
  | corrected (row : Nat)
  | packet (row : Nat)
  | basin (row : Nat)
deriving DecidableEq, Repr

/-- One share of a job that is not pinned, in units of the job (R342): for attention `place` is the Mill die, and the units are
the pages that the die takes; for a GEMM it is the tile of 96 columns, and the units are groups of 32 along K. DESIGN CHOICE
(log 106). -/
structure Share where
  place : Nat
  first : Nat
  count : Nat
deriving DecidableEq, Repr

/-- What strikes a Mill (R346, R347): a single-bit or a double-bit error in a row of its SRAM (R549), or a failed self-check of its
arrays. DESIGN CHOICE (log 182). -/
inductive MillError where
  | corrected (row : Nat)
  | doubleBit (row : Nat)
  | selfCheck
deriving DecidableEq, Repr

/-- What the code of the words that an access reads shows (R380): no error; an error of one bit, which is corrected; an error
that is not, or data that the device marks poisoned (R376). DESIGN CHOICE (log 182). -/
inductive EccCheck where
  | clean | corrected | bad
deriving DecidableEq, Repr

/-- What leaves the block: responses and notifications on the transports (over MCTP a notification has the Tag Owner bit set, R60),
frames on ports (a Millrace frame with the edge at which it starts and its symbols, R91, and the symbols that far-end loopback
returns, R100; a frame of a lane port with its 64B/66B blocks, R118, what far-end loopback returns and the start of a test
pattern, R135), writes and interrupts to the host, accesses to memory devices, and pins. DESIGN CHOICE (log 157). -/
inductive Output where
  | response (r : Req) (op status tx : Nat) (items : List RItem)
  | mctpNotify (eid messageTag : Nat) (bytes : List Byte)
  | inBandIrq
  | millrace (port : Nat) (f : MrFrame) (start : Nat) (pairs : List (Nat × Nat))
  | mrLine (port : Nat) (l : MrLine)
  | mrReturn (port : Nat) (pairs : List (Nat × Nat))
  | frame (port : Nat) (b : Body) (stomped : Bool) (blocks : List (Bool × Nat))
  | laneReturn (port : Nat) (bytes : List Byte) (check : Nat)
  | pattern (port value : Nat)
  | stomp (port : Nat)
  | markerSwitch (port width first : Nat)
  | laneStatus (port : Nat) (bytes : List Byte)
  | irq (vector : Nat)
  | hostWrite (addr : Nat) (bytes : List Byte)
  | hostReadData (bytes : List Byte)
  | mgmtFrame (bytes : List Byte)
  | mctp (eid : Nat) (bytes : List Byte)
  | udp (dst : Nat) (bytes : List Byte)
  | pin (name : Nat) (level : Bool)
  | device (what : Nat) (args : List Nat)
deriving DecidableEq, Repr

end Sys2Proof
end

