-- ==== Sys2Proof/Syntax.lean ====
section
/-!
DEFINITION. The commands of the block: one constructor for each row of spec/opcode_table.json, in its order. A command that is
a Catalogue request carries its header; every other command carries what the environment shows the block.
-/

namespace Sys2Proof

/-- The commands (spec/opcode_table.json). -/
inductive Instr where
  /-- READ: the items of a READ in order (R32, R55). -/
  | read (req : Req) (items : List Item)
  /-- WRITE: the items of a WRITE in order, stopping at the first that fails outside a transaction (R48, R55). -/
  | write (req : Req) (items : List Item)
  /-- READ_BLOCK: byte ranges of DOMAIN entries (R32). -/
  | readBlock (req : Req) (items : List Item)
  /-- WRITE_BLOCK: byte ranges written to DOMAIN entries (R32, R48). -/
  | writeBlock (req : Req) (items : List Item)
  /-- CREATE: handles created (R42, R43). -/
  | create (req : Req) (items : List Item)
  /-- DESTROY: handles destroyed, with their abort path where forced (R47). -/
  | destroy (req : Req) (items : List Item)
  /-- TX_OPEN: a transaction opens (R49). -/
  | txOpen (req : Req)
  /-- TX_COMMIT: a commit now, or scheduled at an FT (R50, R51). -/
  | txCommit (req : Req) (ft : Nat)
  /-- TX_COMMIT_FIRE: the scheduled commit whose turn has come (R50). -/
  | txCommitFire
  /-- TX_ABORT: an open or scheduled transaction ends (R51). -/
  | txAbort (req : Req)
  /-- TX_STATUS: the state and commit status of a transaction (R51). -/
  | txStatus (req : Req)
  /-- TX_INACTIVITY_TIMEOUT: an open transaction with no activity for 10 s (R53). -/
  | txInactivityTimeout (id : Nat)
  /-- SESSION_OPEN: credentials are judged and a session opens (R484). -/
  | sessionOpen (req : Req) (data : List Byte)
  /-- SESSION_CLOSE: a session closes (R53). -/
  | sessionClose (req : Req)
  /-- SUBSCRIBE: notification masks of a session (R510). -/
  | subscribe (req : Req) (items : List Item)
  /-- PDU_RECEIVE: a request PDU taken whole from a transport (R54, R56). -/
  | pduReceive (via : Transport) (src : Nat) (bytes : List Byte)
  /-- MCTP_MESSAGE: a vendor-defined MCTP message (R58). -/
  | mctpMessage (eid : Nat) (bytes : List Byte)
  /-- UDP_DATAGRAM: a datagram of the management port (R58, R485). -/
  | udpDatagram (src : Nat) (bytes : List Byte)
  /-- MAILBOX_DOORBELL: the host rings the mailbox (R59). -/
  | mailboxDoorbell (ring : Ring) (window : List Byte)
  /-- MAILBOX_RESPONSE_DONE: the response is complete in the window (R59). -/
  | mailboxResponseDone
  /-- QUARANTINE_END: the quiet interval of an index has ended (R44). -/
  | quarantineEnd (t : Nat) (i : Nat)
  /-- CREATION_QUIET_END: creation opens (R46). -/
  | creationQuietEnd
  /-- FT_TICK: FT advances by one (R65); a lock-step start whose FT has come is taken (R437). -/
  | ftTick
  /-- TIME_MARK: a time mark arrives (R70 to R73). -/
  | timeMark (p : Nat) (rx : MrRx) (value : Nat)
  /-- MISSED_TIME_MARKS: two marks in a row are missing on the source port (R72). -/
  | missedTimeMarks (p : Nat)
  /-- HOLDOVER_EXPIRE: holdover exceeds its limit (R73). -/
  | holdoverExpire
  /-- FT_LOCAL_SET: FT loaded with a written value (R74). -/
  | ftLocalSet (req : Req) (v : Nat)
  /-- FT_LAUNCH_AT: the local launch scheduled (R86). -/
  | ftLaunchAt (req : Req) (v : Nat)
  /-- FT_LAUNCH_CANCEL: the local launch cancelled (R86). -/
  | ftLaunchCancel (req : Req) (v : Nat)
  /-- LAUNCH_FIRE: a launch fires (R84). -/
  | launchFire
  /-- ARM: an arm frame (R105). -/
  | arm (p : Nat) (rx : MrRx) (seq : Nat) (target : Nat)
  /-- CONFIRM: a confirm frame (R105). -/
  | confirm (p : Nat) (rx : MrRx) (seq : Nat)
  /-- ABORT: an abort frame (R105). -/
  | abort (p : Nat) (rx : MrRx) (seq : Nat)
  /-- CONFIRM_DEADLINE: no confirm by the deadline (R105). -/
  | confirmDeadline (seq : Nat)
  /-- ABORTED_SEQUENCE_EXPIRE: an aborted number is forgotten (R105). -/
  | abortedSequenceExpire (seq : Nat)
  /-- MISSED_NOTICE_REPEAT: a missed notice is sent again (R106). -/
  | missedNoticeRepeat (p : Nat)
  /-- MISSED_NOTICE_SLEEP_AGAIN: a direction woken for notices sleeps again (R106). -/
  | missedNoticeSleepAgain (p : Nat)
  /-- MILLRACE_ROLE_WRITE: the role of a Millrace port (R90). -/
  | millraceRoleWrite (req : Req) (p : Nat) (v : Nat)
  /-- DETECT_PROBE: a receiver-detect probe (R97). -/
  | detectProbe (p : Nat) (found : Bool)
  /-- TRAIN_PHASE_ALIGNED: both lanes aligned (R97). -/
  | trainPhaseAligned (p : Nat)
  /-- SYMBOL_LOCK_ACHIEVED: both lock conditions hold (R97). -/
  | symbolLockAchieved (p : Nat)
  /-- BRINGUP_TIMEOUT: a bring-up stage times out (R97). -/
  | bringupTimeout (p : Nat)
  /-- CAPABILITY: a capability frame (R98). -/
  | capability (p : Nat) (rx : MrRx) (payload : List Byte)
  /-- ROLE_MISMATCH_RETRY: the capability exchange is tried again (R98). -/
  | roleMismatchRetry (p : Nat)
  /-- DELAY_PROBE: a delay probe is echoed (R99). -/
  | delayProbe (p : Nat) (rx : MrRx) (n : Nat) (turn : Nat)
  /-- DELAY_ECHO: a delay echo arrives (R99). -/
  | delayEcho (p : Nat) (rx : MrRx) (n : Nat) (turn : Nat) (edge : Nat)
  /-- CODE_ERROR: an invalid symbol begins a bubble (R96). -/
  | codeError (p : Nat)
  /-- MILLRACE_LOCK_LOSS: a bubble of 1,024 pair times loses the lock (R103). -/
  | millraceLockLoss (p : Nat) (stuck0 : Bool) (stuck1 : Bool)
  /-- CLOCK_LOST: no clock edge for 16 ns (R103). -/
  | clockLost (p : Nat)
  /-- MILLRACE_LOOPBACK_WRITE: the loopback of a Millrace port (R100). -/
  | millraceLoopbackWrite (req : Req) (p : Nat) (v : Nat)
  /-- MILLRACE_PRBS_WRITE: the test pattern of a Millrace port (R100). -/
  | millracePrbsWrite (req : Req) (p : Nat) (v : Nat)
  /-- TX_SLEEP: the transmit direction sleeps or wakes (R101). -/
  | txSleep (req : Req) (p : Nat) (v : Nat)
  /-- SLEEP: a sleep frame (R101). -/
  | sleep (p : Nat) (rx : MrRx)
  /-- TX_WAKE_TIMEOUT: a wake that does not become active (R102). -/
  | txWakeTimeout (p : Nat)
  /-- RECEIVE_WAKE: clock activity wakes a sleeping receiver (R102). -/
  | receiveWake (p : Nat)
  /-- SEND_WAKE: a wake frame is sent (R102). -/
  | sendWake (req : Req) (p : Nat) (v : Nat)
  /-- WAKE: a wake frame arrives (R102). -/
  | wake (p : Nat)
  /-- BARRIER_RELEASE: a release frame (R107, R252). -/
  | barrierRelease (p : Nat) (rx : MrRx) (h : Nat)
  /-- LOCK_STEP_DIGEST: a digest frame (R109, R110). -/
  | lockStepDigest (p : Nat) (rx : MrRx) (payload : List Byte)
  /-- DIGEST_MISSING: frames of a window are missing (R110). -/
  | digestMissing
  /-- LANE_LOST: a lane without lock for 1,000 ns (R113, R131). -/
  | laneLost (l : Nat)
  /-- LANE_GOOD: a lane in lock for 1,000 ns (R113). -/
  | laneGood (l : Nat) (snr : Nat)
  /-- REFERENCE_LOST: the reference of an I/O die is lost (R112). -/
  | referenceLost (die : Nat)
  /-- PORT_WIDTH: the width of a port (R129). -/
  | portWidth (req : Req) (n : Nat) (v : Nat)
  /-- PORT_MODE: the mode of a port (R129). -/
  | portMode (req : Req) (n : Nat) (v : Nat)
  /-- PORT_FEC: the FEC of a port (R129). -/
  | portFec (req : Req) (n : Nat) (v : Nat)
  /-- PORT_ROLE: the role of a port (R129). -/
  | portRole (req : Req) (n : Nat) (v : Nat)
  /-- PORT_AN: the auto-negotiation of a port (R129). -/
  | portAn (req : Req) (n : Nat) (v : Nat)
  /-- PORT_CONTROL_ROLE: the control role, or partition, of a port (R601). -/
  | portControlRole (req : Req) (n : Nat) (partition : Bool) (v : Nat)
  /-- TRAINING_DONE: training completes (R130, R602). -/
  | trainingDone (n : Nat) (map : Nat)
  /-- TRAINING_TIMEOUT: training is tried again (R130), but not while the general cores restart (R477). -/
  | trainingTimeout (n : Nat) (fecMismatch : Bool)
  /-- PARTIAL_TRAINING_DEGRADE: lanes still without lock 100,000,000 ns after a partial set (R602). -/
  | partialTrainingDegrade (n : Nat)
  /-- FEC_DEGRADED: what a window of 1 s shows of a port's lanes (R116, R135). -/
  | fecDegraded (n : Nat) (window : LaneWindow)
  /-- RILL_FRAME_RECEIVE: a Rill frame with the CRC-32 that ends it, and the codewords among those that carried it whose symbols
  came with errors, each with its lane of the port; `left` says that the header had left the ingress stage when the frame ended
  (R115, R117, R118). -/
  | rillFrameReceive (n : Nat) (bytes : List Byte) (crc : Nat) (words : List (Nat × List Nat)) (left : Bool) (idle : Nat) (startFt : Nat)
  /-- LANE_STATUS_MARKER: the lane-status blocks of a marker period (R119). -/
  | laneStatusMarker (n : Nat)
  /-- LANE_STATUS_BLOCK: a lane-status block arrives (R119, R132). -/
  | laneStatusBlock (n : Nat) (bytes : List Byte)
  /-- ETHERNET_FRAME_RECEIVE: an Ethernet frame with the FCS that ends it; `used` is what the landing reserve holds of packets
  that no command has shown yet (R117, R120, R174). -/
  | ethernetFrameReceive (n : Nat) (bytes : List Byte) (fcs : Nat) (left : Bool) (words : List (Nat × List Nat)) (used : Nat) (startFt : Nat)
  /-- MAC_AGEING: learnt addresses age out (R121, R122). -/
  | macAgeing
  /-- RESTORE_HOLD_EXPIRE: the lanes of a port have been good for the restore hold (R133). -/
  | restoreHoldExpire (n : Nat)
  /-- PORT_RESTORE: a port is to restore (R133). -/
  | portRestore (req : Req) (n : Nat) (v : Nat)
  /-- PORT_LOOPBACK: the loopback of a port (R135). -/
  | portLoopback (req : Req) (n : Nat) (v : Nat)
  /-- PORT_PRBS: the test pattern of a port (R135). -/
  | portPrbs (req : Req) (n : Nat) (v : Nat)
  /-- RILL_PACKET_ARRIVAL: a Rill packet arrives (R163). -/
  | rillPacketArrival (n : Nat) (bytes : List Byte) (used : Nat) (startFt : Nat)
  /-- EDDY_REENTRY: a deflected packet comes back (R157, R161). -/
  | eddyReentry (id : Nat)
  /-- ARRIVAL_FAULT_WINDOW: a fault window has ended (R165, R261). -/
  | arrivalFaultWindow
  /-- BUNDLE_ADAPT: the health factors of a bundle (R151). -/
  | bundleAdapt (b : Nat)
  /-- CELL_TIME_MATCH: one cell time (R179); a lock-step start whose FT has come is taken (R437). -/
  | cellTimeMatch
  /-- SCHEDULER_DECISION: the next queue of a port is named (R205). -/
  | schedulerDecision (n : Nat)
  /-- PACKET_TRANSMITTED: the last cell of a packet has left (R175). -/
  | packetTransmitted (n : Nat)
  /-- QUEUE_AVG_DECAY: the average depth of an empty queue (R187). -/
  | queueAvgDecay (n : Nat) (q : Nat)
  /-- PLANE_ENABLE: the planes in service (R172). -/
  | planeEnable (req : Req) (v : Nat)
  /-- PLANE_SELF_CHECK_FAIL: a plane fails its self-check (R172). -/
  | planeSelfCheckFail (p : Nat)
  /-- RSV_RED_SEED: the seed of early drop (R188). -/
  | rsvRedSeed (req : Req) (v : Nat)
  /-- RSV_WINDOW_REGION: the window region of the Reservoir (R190). -/
  | rsvWindowRegion (req : Req) (v : Nat)
  /-- RESERVOIR_UNCORRECTABLE: an error of the Reservoir: a double-bit error in a packet, or in slot k of a Basin, or one that was
  corrected (R194, R260). -/
  | reservoirUncorrectable (what : RsvError) (i : Nat) (k : Nat)
  /-- QUEUE_SAMPLE: the sample fields of every queue (R213). -/
  | queueSample
  /-- GATE_START: a gate list is to start (R217). -/
  | gateStart (req : Req) (h : Nat) (ft : Nat)
  /-- GATE_START_FIRE: a gate list starts (R217). -/
  | gateStartFire
  /-- GATE_BOUNDARY: the boundary of a gate entry (R215, R218). -/
  | gateBoundary (n : Nat)
  /-- GATE_STOP: a gate list stops (R217). -/
  | gateStop (req : Req) (h : Nat) (v : Nat)
  /-- GATE_SWITCH_AT: a switch to the alternate list (R218). -/
  | gateSwitchAt (req : Req) (h : Nat) (ft : Nat)
  /-- GATE_SWITCH_LAND: a scheduled switch request lands (R218). -/
  | gateSwitchLand
  /-- COLLECTIVE_ARM: a collective is armed (R230). -/
  | collectiveArm (req : Req) (h : Nat) (v : Nat)
  /-- COLLECTIVE_DISARM: an Armed collective returns to Created (R229). -/
  | collectiveDisarm (req : Req) (h : Nat) (v : Nat)
  /-- SEGMENT_REDUCTION_DONE: the reduction of a segment completes (R241). -/
  | segmentReductionDone (i : Nat) (seg : Nat)
  /-- EPILOGUE_RESULT: an epilogue job returned (R249). -/
  | epilogueResult (i : Nat) (seg : Nat)
  /-- EPILOGUE_PLACE_FREE: an engine hands over a held epilogue (R327). -/
  | epiloguePlaceFree (e : Nat)
  /-- LAGGARD_TIMEOUT: the laggard timer of a segment expires (R258). -/
  | laggardTimeout (i : Nat) (seg : Nat)
  /-- MILL_JOB_START: a job starts on Mills (R327). -/
  | millJobStart (id : Nat) (mills : List Nat)
  /-- MILL_JOB_COMPLETE: the shares of a job finish (R330). -/
  | millJobComplete (id : Nat) (shares : List Share) (cycles : Nat)
  /-- MILL_JOB_TIMEOUT: a job is not done within the timeout (R328). -/
  | millJobTimeout (id : Nat)
  /-- MILL_FAILURE: a Mill fails (R347). -/
  | millFailure (x : Nat) (what : MillError)
  /-- MEMORY_ACCESS_COMPLETE: an access takes effect (R364). -/
  | memoryAccessComplete (id : Nat) (chk : EccCheck)
  /-- WINDOW_OPEN: a window opens, or closes (R359). -/
  | windowOpen (req : Req) (h : Nat) (v : Nat)
  /-- WINDOW_CLOSING_END: a Closing window is done (R358). -/
  | windowClosingEnd (i : Nat)
  /-- T2_FILL_RETURN: a fill of the read cache returns (R372). -/
  | t2FillReturn (id : Nat) (line : Nat) (poisoned : Bool)
  /-- CXL_INVALIDATE: the lines of a CXL port go (R373). -/
  | cxlInvalidate (req : Req) (c : Nat) (v : Nat)
  /-- CXL_TIMEOUT: a request to an expander times out (R376). -/
  | cxlTimeout (id : Nat)
  /-- CXL_PORT_LOST: a CXL port is lost (R377). -/
  | cxlPortLost (c : Nat)
  /-- CXL_DEVICE_APPEAR: a device trains on a CXL port (R378), but not while the general cores restart (R477). -/
  | cxlDeviceAppear (c : Nat) (width : Nat) (size : Nat) (ident : Nat) (slow : Bool)
  /-- CXL_RESUME: a Held port becomes Active (R378). -/
  | cxlResume (req : Req) (c : Nat) (v : Nat)
  /-- CXL_ENABLE: a CXL port is disabled in order, or retrained (R379). -/
  | cxlEnable (req : Req) (c : Nat) (v : Nat)
  /-- HBM_STACK_FAIL: a Tier 1 stack fails (R381). -/
  | hbmStackFail (h : Nat)
  /-- POOL_ENABLE: a pool is enabled (R389). -/
  | poolEnable (req : Req) (h : Nat) (v : Nat)
  /-- POOL_FILL_DONE: the ring of a pool is written (R389). -/
  | poolFillDone (i : Nat)
  /-- POOL_ALLOC: one buffer is allocated by a read of `pool.alloc` (R392, R396). -/
  | poolAlloc (req : Req) (h : Nat)
  /-- POOL_FREE: one reference to a buffer is freed (R394). -/
  | poolFree (req : Req) (h : Nat) (v : Nat)
  /-- POOL_SHARE: one reference to a buffer is added (R394). -/
  | poolShare (req : Req) (h : Nat) (v : Nat)
  /-- POOL_REFILL_DONE: a refill of the head cache completes (R392). -/
  | poolRefillDone (i : Nat)
  /-- SEQUENCE_ACTIVATE: a sequence is activated (R404). -/
  | sequenceActivate (req : Req) (h : Nat) (v : Nat)
  /-- PREFIX_COPY_DONE: the copy of a partial prefix page is done (R409). -/
  | prefixCopyDone (i : Nat)
  /-- SEQUENCE_RESERVE: the capacity of a sequence (R406). -/
  | sequenceReserve (req : Req) (h : Nat) (v : Nat)
  /-- SEQUENCE_LENGTH: the readable length of a sequence (R407). -/
  | sequenceLength (req : Req) (h : Nat) (v : Nat)
  /-- WEIR_CLOCK_MODE: the reference of the core PLL (R420). -/
  | weirClockMode (req : Req) (v : Nat)
  /-- WEIR_START: the schedule is to start (R423). -/
  | weirStart (req : Req) (ft : Nat)
  /-- WEIR_START_ON_LAUNCH: the start is bound to the next launch (R423). -/
  | weirStartOnLaunch (req : Req) (v : Nat)
  /-- WEIR_START_FIRE: the schedule runs (R424). -/
  | weirStartFire
  /-- WEIR_CYCLE_BOUNDARY: a Weir cycle begins (R424); a lock-step start whose FT has come is taken first (R438). -/
  | weirCycleBoundary
  /-- WEIR_STOP: the schedule stops (R425). -/
  | weirStop (req : Req) (v : Nat)
  /-- WEIR_ENGINES: the engines of Weir partitions (R431). -/
  | weirEngines (req : Req) (v : Nat)
  /-- WEIR_MILLS: the Mills reserved for Weir jobs (R433). -/
  | weirMills (req : Req) (v : Nat)
  /-- LOCKSTEP_START: lock-step is to start (R437). -/
  | lockstepStart (req : Req) (ft : Nat)
  /-- LOCKSTEP_START_ON_LAUNCH: lock-step is bound to the next launch (R437). -/
  | lockstepStartOnLaunch (req : Req) (v : Nat)
  /-- LOCKSTEP_WINDOW_CLOSE: a lock-step window ends (R438). -/
  | lockstepWindowClose
  /-- LOCKSTEP_STOP: lock-step stops (R441). -/
  | lockstepStop (req : Req) (v : Nat)
  /-- SNAP_AT: a snapshot is scheduled (R449). -/
  | snapAt (req : Req) (ft : Nat)
  /-- SNAPSHOT_FIRE: the values are captured (R450). -/
  | snapshotFire
  /-- SNAPSHOT_SHADOW_READY: the capture reaches the shadows (R450). -/
  | snapshotShadowReady
  /-- ATTR_RESET: the attribution table is cleared (R448). -/
  | attrReset (req : Req) (v : Nat)
  /-- TRACE_OPEN_AT: a trace session is to open (R454). -/
  | traceOpenAt (req : Req) (h : Nat) (ft : Nat)
  /-- TRACE_OPEN_FIRE: a trace session opens (R454). -/
  | traceOpenFire
  /-- TRACE_CLOSE_AT: a trace session is to close (R454). -/
  | traceCloseAt (req : Req) (h : Nat) (ft : Nat)
  /-- TRACE_CLOSE_FIRE: a trace session closes (R454). -/
  | traceCloseFire
  /-- TRACE_NEXT: the oldest published buffer is taken (R455). -/
  | traceNext (req : Req) (h : Nat)
  /-- SPRING_START: a stream is to start (R463). -/
  | springStart (req : Req) (h : Nat) (ft : Nat)
  /-- SPRING_START_ON_LAUNCH: a stream is bound to the next launch (R463). -/
  | springStartOnLaunch (req : Req) (h : Nat) (v : Nat)
  /-- SPRING_START_FIRE: a stream starts (R465). -/
  | springStartFire
  /-- SPRING_PACKET_CREATE: a packet of a stream is built (R466). -/
  | springPacketCreate
  /-- SPRING_STOP: a stream stops (R463). -/
  | springStop (req : Req) (h : Nat) (v : Nat)
  /-- GAUGE_ENABLE: a check is activated or deactivated (R469). -/
  | gaugeEnable (req : Req) (h : Nat) (v : Nat)
  /-- CURATOR_SAFETY_MISMATCH: the cores of the safety pair disagree (R476). -/
  | curatorSafetyMismatch
  /-- CURATOR_WATCHDOG_RESTART: a missed watchdog restarts the general cores (R476, R477). -/
  | curatorWatchdogRestart
  /-- CURATOR_READY: the restarted firmware is ready (R477). -/
  | curatorReady
  /-- FW_VERIFY: the inactive slot is verified (R479). -/
  | fwVerify (req : Req) (v : Nat)
  /-- FW_ACTIVATE: the activation of the verified slot (R479). -/
  | fwActivate (req : Req) (ft : Nat)
  /-- FW_ACTIVATE_FIRE: the activation fires (R480). -/
  | fwActivateFire
  /-- FW_FALLBACK: the previous slot is started (R480). -/
  | fwFallback
  /-- FW_COMMIT: the running slot becomes permanent (R480). -/
  | fwCommit (req : Req) (v : Nat)
  /-- LC_ADVANCE: the next life-cycle state (R482). -/
  | lcAdvance (req : Req) (v : Nat)
  /-- SPDM_REQUEST: an SPDM request (R486). -/
  | spdmRequest (eid : Nat) (bytes : List Byte)
  /-- SET_ENDPOINT_ID: the MCTP endpoint ID (R487). -/
  | setEndpointId (eid : Nat)
  /-- SIDEBAND_STUCK: SB_SDA low for 10 ms (R488). -/
  | sidebandStuck
  /-- SIDEBAND_RECOVERY_ROUND: another round of pulses (R488). -/
  | sidebandRecoveryRound (low : Bool)
  /-- SIDEBAND_FAILED: the sideband fails (R488). -/
  | sidebandFailed (sclAlone : Bool)
  /-- MCTP_RESTART: a failed sideband restarts (R488). -/
  | mctpRestart (req : Req) (v : Nat)
  /-- MGMT_FRAME_RECEIVE: a frame of the management port (R489). -/
  | mgmtFrameReceive (bytes : List Byte)
  /-- APERTURE_ACCESS: a host access through the aperture (R491). -/
  | apertureAccess (write : Bool) (off : Nat) (len : Nat) (data : List Byte)
  /-- RING_TAIL: the host posts entries (R492), and may clear flags of the ring (R490). -/
  | ringTail (r : Nat) (post : Post) (entries : List (List Byte))
  /-- HRING_ENABLE: a ring starts or stops (R492). -/
  | hringEnable (req : Req) (r : Nat) (v : Nat)
  /-- RING_RECORD_DELIVER: a record is written to the host (R493). -/
  | ringRecordDeliver (r : Nat)
  /-- RING_IRQ_HOLDOFF: the holdoff of a ring expires (R493). -/
  | ringIrqHoldoff (r : Nat)
  /-- TX_DESCRIPTOR: a descriptor of the transmit ring (R496). -/
  | txDescriptor (data : List Byte)
  /-- FAULT_SETTING: the conditions of sources occur (R502, R506). -/
  | faultSetting (srcs : List Nat)
  /-- CHIP_RESET_REACTION: a pending chip reset begins (R506). -/
  | chipResetReaction
  /-- FAULT_N_EXTERNAL: the level that others give FAULT_N (R508). -/
  | faultNExternal (low : Bool)
  /-- FAULT_N_STUCK: FAULT_N low for 10 ms (R509). -/
  | faultNStuck
  /-- FAULT_PIN_REARM: the sampling of FAULT_N (R509). -/
  | faultPinRearm (req : Req) (v : Nat)
  /-- FAULT_INJECT: a source raised in the Factory state (R513). -/
  | faultInject (req : Req) (v : Nat)
  /-- PWR_TARGET: a power state is requested (R520). -/
  | pwrTarget (req : Req) (v : Nat)
  /-- PWR_ENTER_AT: a power state is scheduled (R520). -/
  | pwrEnterAt (req : Req) (ft : Nat) (target : Nat)
  /-- PWR_ENTER_FIRE: a scheduled request fires (R520, R522). -/
  | pwrEnterFire
  /-- PWR_DOM_REQUEST: one domain is switched off, or returned (R521). -/
  | pwrDomRequest (req : Req) (k : Nat) (v : Nat)
  /-- DRAIN_DONE: the drain ends and the entry completes (R522). -/
  | drainDone
  /-- DRAIN_LIMIT: the drain limit is reached (R522). -/
  | drainLimit
  /-- WAKE_EVENT: a wake event (R525). -/
  | wakeEvent (src : Nat)
  /-- LANE_SIGNAL_WAKE: signal on a wake lane (R525). -/
  | laneSignalWake (l : Nat)
  /-- DOMAIN_ADMIT: a waiting domain is admitted (R528). -/
  | domainAdmit
  /-- RAMP_WINDOW_END: a ramp window ends (R531). -/
  | rampWindowEnd (k : Nat) (good : Bool)
  /-- DOMAIN_USABLE: a restored domain is usable (R529). -/
  | domainUsable (k : Nat)
  /-- PWR_DOM_RETRY: one more restore of a failed domain (R531). -/
  | pwrDomRetry (req : Req) (k : Nat) (v : Nat)
  /-- PWR_WARN_ASSERT: PWR_WARN_N asserted (R534). -/
  | pwrWarnAssert
  /-- PWR_WARN_DEASSERT: PWR_WARN_N deasserted (R535). -/
  | pwrWarnDeassert
  /-- HOLD_WINDOW_EXPIRE: the hold window expires (R535). -/
  | holdWindowExpire
  /-- ST_SHUTDOWN: an orderly shut-down (R542). -/
  | stShutdown (req : Req) (ft : Nat)
  /-- SHUTDOWN_TEST: one partition of the shut-down test (R542). -/
  | shutdownTest (ok : Bool) (rail : Nat)
  /-- LANE_RUNTIME_REPAIR: a UCIe lane is steered, or its module retired (R548). -/
  | laneRuntimeRepair (join : Nat) (m : Nat)
  /-- RECABLE_OPEN_AT: a re-cabling window is to open (R558). -/
  | recableOpenAt (req : Req) (ft : Nat)
  /-- RECABLE_OPEN_FIRE: a scheduled window opens, or is refused (R558). -/
  | recableOpenFire
  /-- RECABLE_CLOSE: the window closes (R560). -/
  | recableClose (req : Req) (v : Nat)
  /-- RECABLE_LIMIT: the window reaches its limit (R560). -/
  | recableLimit
  /-- RACK_RESET_AT: a chip reset is scheduled (R561). -/
  | rackResetAt (req : Req) (ft : Nat)
  /-- RACK_RESET_FIRE: the scheduled chip reset fires (R561). -/
  | rackResetFire
  /-- POWER_ON: the first release of RESET_N (R564). -/
  | powerOn
  /-- CHIP_RESET: a RESET_N pulse (R564). -/
  | chipReset
  /-- BOOT_STAGE_END: a start stage ends (R566). -/
  | bootStageEnd (fails : List BootUnit)
  /-- STAGE_LIMIT_OVERRUN: a start stage overruns its limit (R566). -/
  | stageLimitOverrun (unfinished : List BootUnit)
  /-- VIN_IVR_LOW: VIN_IVR is low (R583). -/
  | vinIvrLow
  /-- VDD_AON_LOW: VDD_AON is low (R583). -/
  | vddAonLow
  /-- THERMAL_SAMPLE: the sensors are sampled (R592). -/
  | thermalSample (temps : List Int) (supplies : List Nat)
  /-- THROTTLE_STEP_DOWN: the Mill clock steps down (R593). -/
  | throttleStepDown
  /-- THROTTLE_STEP_UP: the Mill clock steps up (R593). -/
  | throttleStepUp
  /-- BUBBLE_END: a bubble ends (R96). -/
  | bubbleEnd (p : Nat) (pairs : Nat)
  /-- MISSED_NOTICE: a missed notice is relayed (R107). -/
  | missedNotice (p : Nat) (rx : MrRx) (payload : List Byte)
  /-- BARRIER_ARRIVE: an arrive frame is relayed (R107). -/
  | barrierArrive (p : Nat) (rx : MrRx) (h : Nat)
  /-- TRANSMIT_WAKE_DONE: a waking direction is active (R102). -/
  | transmitWakeDone (p : Nat)
  /-- CORE_CLOCK_LOCKED: the core PLL is locked to FT (R420). -/
  | coreClockLocked
  /-- SESSION_LOCKOUT_END: a lockout ends (R484). -/
  | sessionLockoutEnd
  /-- BLOCK_RESET_DONE: a block reset completes (R506). -/
  | blockResetDone (u : Nat)
  /-- VDD_SD_WAIT_TIMEOUT: a die waited too long for VDD_SD (R584). -/
  | vddSdWaitTimeout
  /-- VIN_IVR_RECOVERED: VIN_IVR is back (R583). -/
  | vinIvrRecovered
  /-- SELFTEST_RAIL_OUT_OF_WINDOW: the core rail leaves its window during the test (R541). -/
  | selftestRailOutOfWindow (rail : Nat)
deriving DecidableEq, Repr

end Sys2Proof
end

