-- ==== Sys2Proof/WellFormed.lean ====
section
/-!
DEFINITION. Which commands are well formed: every operand is one that the spec's field or numbering can hold (R12, R54, R93, R111,
R119, R129). The environment sends no other.
-/

namespace Sys2Proof

/-- A request header whose fields fit their widths (R54); a control packet names a lane. -/
def Req.wf (r : Req) : Bool :=
  decide (r.tag < 2 ^ 16) && decide (r.session < 2 ^ 32) && decide (r.tx < 2 ^ 32) &&
  (match r.via with | .control p => decide (p < 1024) | _ => true)

/-- An item whose fields fit their widths (R54). -/
def Item.wf (it : Item) : Bool :=
  decide (it.index < 2 ^ 16) && decide (it.sub < 2 ^ 8) && decide (it.flags < 2 ^ 8) && decide (it.handle < 2 ^ 32) &&
  decide (it.rsv < 2 ^ 16) && decide (it.data.length < 2 ^ 16)

/-- The request header of a command that is a Catalogue request. -/
def Instr.req? (i : Instr) : Option Req :=
  match i with
  | .read req _ => some req
  | .write req _ => some req
  | .readBlock req _ => some req
  | .writeBlock req _ => some req
  | .create req _ => some req
  | .destroy req _ => some req
  | .txOpen req => some req
  | .txCommit req _ => some req
  | .txCommitFire => none
  | .txAbort req => some req
  | .txStatus req => some req
  | .txInactivityTimeout _ => none
  | .sessionOpen req _ => some req
  | .sessionClose req => some req
  | .subscribe req _ => some req
  | .pduReceive _ _ _ => none
  | .mctpMessage _ _ => none
  | .udpDatagram _ _ => none
  | .mailboxDoorbell _ _ => none
  | .mailboxResponseDone => none
  | .quarantineEnd _ _ => none
  | .creationQuietEnd => none
  | .ftTick => none
  | .timeMark _ _ _ => none
  | .missedTimeMarks _ => none
  | .holdoverExpire => none
  | .ftLocalSet req _ => some req
  | .ftLaunchAt req _ => some req
  | .ftLaunchCancel req _ => some req
  | .launchFire => none
  | .arm _ _ _ _ => none
  | .confirm _ _ _ => none
  | .abort _ _ _ => none
  | .confirmDeadline _ => none
  | .abortedSequenceExpire _ => none
  | .missedNoticeRepeat _ => none
  | .missedNoticeSleepAgain _ => none
  | .millraceRoleWrite req _ _ => some req
  | .detectProbe _ _ => none
  | .trainPhaseAligned _ => none
  | .symbolLockAchieved _ => none
  | .bringupTimeout _ => none
  | .capability _ _ _ => none
  | .roleMismatchRetry _ => none
  | .delayProbe _ _ _ _ => none
  | .delayEcho _ _ _ _ _ => none
  | .codeError _ => none
  | .millraceLockLoss _ _ _ => none
  | .clockLost _ => none
  | .millraceLoopbackWrite req _ _ => some req
  | .millracePrbsWrite req _ _ => some req
  | .txSleep req _ _ => some req
  | .sleep _ _ => none
  | .txWakeTimeout _ => none
  | .receiveWake _ => none
  | .sendWake req _ _ => some req
  | .wake _ => none
  | .barrierRelease _ _ _ => none
  | .lockStepDigest _ _ _ => none
  | .digestMissing => none
  | .laneLost _ => none
  | .laneGood _ _ => none
  | .referenceLost _ => none
  | .portWidth req _ _ => some req
  | .portMode req _ _ => some req
  | .portFec req _ _ => some req
  | .portRole req _ _ => some req
  | .portAn req _ _ => some req
  | .portControlRole req _ _ _ => some req
  | .trainingDone _ _ => none
  | .trainingTimeout _ _ => none
  | .partialTrainingDegrade _ => none
  | .fecDegraded _ _ => none
  | .rillFrameReceive _ _ _ _ _ _ _ => none
  | .laneStatusMarker _ => none
  | .laneStatusBlock _ _ => none
  | .ethernetFrameReceive _ _ _ _ _ _ _ => none
  | .macAgeing => none
  | .restoreHoldExpire _ => none
  | .portRestore req _ _ => some req
  | .portLoopback req _ _ => some req
  | .portPrbs req _ _ => some req
  | .rillPacketArrival _ _ _ _ => none
  | .eddyReentry _ => none
  | .arrivalFaultWindow => none
  | .bundleAdapt _ => none
  | .cellTimeMatch => none
  | .schedulerDecision _ => none
  | .packetTransmitted _ => none
  | .queueAvgDecay _ _ => none
  | .planeEnable req _ => some req
  | .planeSelfCheckFail _ => none
  | .rsvRedSeed req _ => some req
  | .rsvWindowRegion req _ => some req
  | .reservoirUncorrectable _ _ _ => none
  | .queueSample => none
  | .gateStart req _ _ => some req
  | .gateStartFire => none
  | .gateBoundary _ => none
  | .gateStop req _ _ => some req
  | .gateSwitchAt req _ _ => some req
  | .gateSwitchLand => none
  | .collectiveArm req _ _ => some req
  | .collectiveDisarm req _ _ => some req
  | .segmentReductionDone _ _ => none
  | .epilogueResult _ _ => none
  | .epiloguePlaceFree _ => none
  | .laggardTimeout _ _ => none
  | .millJobStart _ _ => none
  | .millJobComplete _ _ _ => none
  | .millJobTimeout _ => none
  | .millFailure _ _ => none
  | .memoryAccessComplete _ _ => none
  | .windowOpen req _ _ => some req
  | .windowClosingEnd _ => none
  | .t2FillReturn _ _ _ => none
  | .cxlInvalidate req _ _ => some req
  | .cxlTimeout _ => none
  | .cxlPortLost _ => none
  | .cxlDeviceAppear _ _ _ _ _ => none
  | .cxlResume req _ _ => some req
  | .cxlEnable req _ _ => some req
  | .hbmStackFail _ => none
  | .poolEnable req _ _ => some req
  | .poolFillDone _ => none
  | .poolAlloc req _ => some req
  | .poolFree req _ _ => some req
  | .poolShare req _ _ => some req
  | .poolRefillDone _ => none
  | .sequenceActivate req _ _ => some req
  | .prefixCopyDone _ => none
  | .sequenceReserve req _ _ => some req
  | .sequenceLength req _ _ => some req
  | .weirClockMode req _ => some req
  | .weirStart req _ => some req
  | .weirStartOnLaunch req _ => some req
  | .weirStartFire => none
  | .weirCycleBoundary => none
  | .weirStop req _ => some req
  | .weirEngines req _ => some req
  | .weirMills req _ => some req
  | .lockstepStart req _ => some req
  | .lockstepStartOnLaunch req _ => some req
  | .lockstepWindowClose => none
  | .lockstepStop req _ => some req
  | .snapAt req _ => some req
  | .snapshotFire => none
  | .snapshotShadowReady => none
  | .attrReset req _ => some req
  | .traceOpenAt req _ _ => some req
  | .traceOpenFire => none
  | .traceCloseAt req _ _ => some req
  | .traceCloseFire => none
  | .traceNext req _ => some req
  | .springStart req _ _ => some req
  | .springStartOnLaunch req _ _ => some req
  | .springStartFire => none
  | .springPacketCreate => none
  | .springStop req _ _ => some req
  | .gaugeEnable req _ _ => some req
  | .curatorSafetyMismatch => none
  | .curatorWatchdogRestart => none
  | .curatorReady => none
  | .fwVerify req _ => some req
  | .fwActivate req _ => some req
  | .fwActivateFire => none
  | .fwFallback => none
  | .fwCommit req _ => some req
  | .lcAdvance req _ => some req
  | .spdmRequest _ _ => none
  | .setEndpointId _ => none
  | .sidebandStuck => none
  | .sidebandRecoveryRound _ => none
  | .sidebandFailed _ => none
  | .mctpRestart req _ => some req
  | .mgmtFrameReceive _ => none
  | .apertureAccess _ _ _ _ => none
  | .ringTail _ _ _ => none
  | .hringEnable req _ _ => some req
  | .ringRecordDeliver _ => none
  | .ringIrqHoldoff _ => none
  | .txDescriptor _ => none
  | .faultSetting _ => none
  | .chipResetReaction => none
  | .faultNExternal _ => none
  | .faultNStuck => none
  | .faultPinRearm req _ => some req
  | .faultInject req _ => some req
  | .pwrTarget req _ => some req
  | .pwrEnterAt req _ _ => some req
  | .pwrEnterFire => none
  | .pwrDomRequest req _ _ => some req
  | .drainDone => none
  | .drainLimit => none
  | .wakeEvent _ => none
  | .laneSignalWake _ => none
  | .domainAdmit => none
  | .rampWindowEnd _ _ => none
  | .domainUsable _ => none
  | .pwrDomRetry req _ _ => some req
  | .pwrWarnAssert => none
  | .pwrWarnDeassert => none
  | .holdWindowExpire => none
  | .stShutdown req _ => some req
  | .shutdownTest _ _ => none
  | .laneRuntimeRepair _ _ => none
  | .recableOpenAt req _ => some req
  | .recableOpenFire => none
  | .recableClose req _ => some req
  | .recableLimit => none
  | .rackResetAt req _ => some req
  | .rackResetFire => none
  | .powerOn => none
  | .chipReset => none
  | .bootStageEnd _ => none
  | .stageLimitOverrun _ => none
  | .vinIvrLow => none
  | .vddAonLow => none
  | .thermalSample _ _ => none
  | .throttleStepDown => none
  | .throttleStepUp => none
  | .bubbleEnd _ _ => none
  | .missedNotice _ _ _ => none
  | .barrierArrive _ _ _ => none
  | .transmitWakeDone _ => none
  | .coreClockLocked => none
  | .sessionLockoutEnd => none
  | .blockResetDone _ => none
  | .vddSdWaitTimeout => none
  | .vinIvrRecovered => none
  | .selftestRailOutOfWindow _ => none

/-- The operands of a command are in range. -/
def Instr.wf (i : Instr) : Bool :=
  match i with
  | .read req items => req.wf && items.all Item.wf
  | .write req items => req.wf && items.all Item.wf
  | .readBlock req items => req.wf && items.all Item.wf
  | .writeBlock req items => req.wf && items.all Item.wf
  | .create req items => req.wf && items.all Item.wf
  | .destroy req items => req.wf && items.all Item.wf
  | .txOpen req => req.wf
  | .txCommit req ft => req.wf && decide (ft < 2 ^ 64)
  | .txCommitFire => true
  | .txAbort req => req.wf
  | .txStatus req => req.wf
  | .txInactivityTimeout id => decide (id < 2 ^ 32)
  | .sessionOpen req data => req.wf && decide (data.length < 2 ^ 16)
  | .sessionClose req => req.wf
  | .subscribe req items => req.wf && items.all Item.wf
  | .pduReceive _ _ _ => true
  | .mctpMessage eid _ => decide (eid < 256)
  | .udpDatagram _ _ => true
  | .mailboxDoorbell ring window => decide (ring.clear < 2 ^ 32) && decide (ring.len < 2 ^ 32) && decide (window.length ≤ 4096)
  | .mailboxResponseDone => true
  | .quarantineEnd t i => decide (1 ≤ t ∧ t ≤ 10) && decide (i < 2 ^ 20)
  | .creationQuietEnd => true
  | .ftTick => true
  | .timeMark p _ value => decide (p < 8) && decide (value < 2 ^ 64)
  | .missedTimeMarks p => decide (p < 8)
  | .holdoverExpire => true
  | .ftLocalSet req v => req.wf && decide (v < 2 ^ 64)
  | .ftLaunchAt req v => req.wf && decide (v < 2 ^ 64)
  | .ftLaunchCancel req v => req.wf && decide (v < 2 ^ 8)
  | .launchFire => true
  | .arm p _ seq target => decide (p < 8) && decide (seq < 2 ^ 32) && decide (target < 2 ^ 64)
  | .confirm p _ seq => decide (p < 8) && decide (seq < 2 ^ 32)
  | .abort p _ seq => decide (p < 8) && decide (seq < 2 ^ 32)
  | .confirmDeadline seq => decide (seq < 2 ^ 32)
  | .abortedSequenceExpire seq => decide (seq < 2 ^ 32)
  | .missedNoticeRepeat p => decide (p < 8)
  | .missedNoticeSleepAgain p => decide (p < 8)
  | .millraceRoleWrite req p v => req.wf && decide (p < 8) && decide (v < 2 ^ 8)
  | .detectProbe p _ => decide (p < 8)
  | .trainPhaseAligned p => decide (p < 8)
  | .symbolLockAchieved p => decide (p < 8)
  | .bringupTimeout p => decide (p < 8)
  | .capability p _ payload => decide (p < 8) && decide (payload.length = 12)
  | .roleMismatchRetry p => decide (p < 8)
  | .delayProbe p _ n turn => decide (p < 8) && decide (n < 2 ^ 16) && decide (turn < 2 ^ 16)
  | .delayEcho p _ n turn _ => decide (p < 8) && decide (n < 2 ^ 16) && decide (turn < 2 ^ 16)
  | .codeError p => decide (p < 8)
  | .millraceLockLoss p _ _ => decide (p < 8)
  | .clockLost p => decide (p < 8)
  | .millraceLoopbackWrite req p v => req.wf && decide (p < 8) && decide (v < 2 ^ 8)
  | .millracePrbsWrite req p v => req.wf && decide (p < 8) && decide (v < 2 ^ 8)
  | .txSleep req p v => req.wf && decide (p < 8) && decide (v < 2 ^ 8)
  | .sleep p _ => decide (p < 8)
  | .txWakeTimeout p => decide (p < 8)
  | .receiveWake p => decide (p < 8)
  | .sendWake req p v => req.wf && decide (p < 8) && decide (v < 2 ^ 8)
  | .wake p => decide (p < 8)
  | .barrierRelease p _ h => decide (p < 8) && decide (h < 2 ^ 32)
  | .lockStepDigest p _ payload => decide (p < 8) && decide (20 ≤ payload.length ∧ payload.length ≤ 268)
  | .digestMissing => true
  | .laneLost l => decide (l < 1024)
  | .laneGood l snr => decide (l < 1024) && decide (snr < 2 ^ 16)
  | .referenceLost die => decide (die < 4)
  | .portWidth req n v => req.wf && decide (n < 1024) && decide (v < 2 ^ 8)
  | .portMode req n v => req.wf && decide (n < 1024) && decide (v < 2 ^ 8)
  | .portFec req n v => req.wf && decide (n < 1024) && decide (v < 2 ^ 8)
  | .portRole req n v => req.wf && decide (n < 1024) && decide (v < 2 ^ 8)
  | .portAn req n v => req.wf && decide (n < 1024) && decide (v < 2 ^ 8)
  | .portControlRole req n _ v => req.wf && decide (n < 1024) && decide (v < 2 ^ 16)
  | .trainingDone n map => decide (n < 1024) && decide (map < 256)
  | .trainingTimeout n _ => decide (n < 1024)
  | .partialTrainingDegrade n => decide (n < 1024)
  | .fecDegraded n _ => decide (n < 1024)
  | .rillFrameReceive n _ crc _ _ _ startFt => decide (n < 1024) && decide (crc < 2 ^ 32) && decide (startFt < 2 ^ 64)
  | .laneStatusMarker n => decide (n < 1024)
  | .laneStatusBlock n bytes => decide (n < 1024) && decide (bytes.length = 8)
  | .ethernetFrameReceive n _ fcs _ _ _ startFt => decide (n < 1024) && decide (fcs < 2 ^ 32) && decide (startFt < 2 ^ 64)
  | .macAgeing => true
  | .restoreHoldExpire n => decide (n < 1024)
  | .portRestore req n v => req.wf && decide (n < 1024) && decide (v < 2 ^ 8)
  | .portLoopback req n v => req.wf && decide (n < 1024) && decide (v < 2 ^ 8)
  | .portPrbs req n v => req.wf && decide (n < 1024) && decide (v < 2 ^ 8)
  | .rillPacketArrival n _ _ startFt => decide (n < 1024) && decide (startFt < 2 ^ 64)
  | .eddyReentry _ => true
  | .arrivalFaultWindow => true
  | .bundleAdapt b => decide (b < 1024)
  | .cellTimeMatch => true
  | .schedulerDecision n => decide (n < 1024)
  | .packetTransmitted n => decide (n < 1024)
  | .queueAvgDecay n q => decide (n < 1024) && decide (q < 16)
  | .planeEnable req v => req.wf && decide (v < 2 ^ 32)
  | .planeSelfCheckFail p => decide (p < 2)
  | .rsvRedSeed req v => req.wf && decide (v < 2 ^ 32)
  | .rsvWindowRegion req v => req.wf && decide (v < 2 ^ 8)
  | .reservoirUncorrectable _ _ _ => true
  | .queueSample => true
  | .gateStart req h ft => req.wf && decide (h < 2 ^ 32) && decide (ft < 2 ^ 64)
  | .gateStartFire => true
  | .gateBoundary n => decide (n < 1024)
  | .gateStop req h v => req.wf && decide (h < 2 ^ 32) && decide (v < 2 ^ 8)
  | .gateSwitchAt req h ft => req.wf && decide (h < 2 ^ 32) && decide (ft < 2 ^ 64)
  | .gateSwitchLand => true
  | .collectiveArm req h v => req.wf && decide (h < 2 ^ 32) && decide (v < 2 ^ 8)
  | .collectiveDisarm req h v => req.wf && decide (h < 2 ^ 32) && decide (v < 2 ^ 8)
  | .segmentReductionDone i _ => decide (i < 16384)
  | .epilogueResult i _ => decide (i < 16384)
  | .epiloguePlaceFree e => decide (e < 8)
  | .laggardTimeout i _ => decide (i < 16384)
  | .millJobStart _ mills => mills.all (· < 272)
  | .millJobComplete _ _ _ => true
  | .millJobTimeout _ => true
  | .millFailure x _ => decide (x < 272)
  | .memoryAccessComplete _ _ => true
  | .windowOpen req h v => req.wf && decide (h < 2 ^ 32) && decide (v < 2 ^ 8)
  | .windowClosingEnd i => decide (i < 16384)
  | .t2FillReturn _ _ _ => true
  | .cxlInvalidate req c v => req.wf && decide (c < 8) && decide (v < 2 ^ 8)
  | .cxlTimeout _ => true
  | .cxlPortLost c => decide (c < 8)
  | .cxlDeviceAppear c width _ _ _ => decide (c < 8) && decide (width ≤ 16)
  | .cxlResume req c v => req.wf && decide (c < 8) && decide (v < 2 ^ 8)
  | .cxlEnable req c v => req.wf && decide (c < 8) && decide (v < 2 ^ 8)
  | .hbmStackFail h => decide (h < 8)
  | .poolEnable req h v => req.wf && decide (h < 2 ^ 32) && decide (v < 2 ^ 8)
  | .poolFillDone i => decide (i < 256)
  | .poolAlloc req h => req.wf && decide (h < 2 ^ 32)
  | .poolFree req h v => req.wf && decide (h < 2 ^ 32) && decide (v < 2 ^ 64)
  | .poolShare req h v => req.wf && decide (h < 2 ^ 32) && decide (v < 2 ^ 64)
  | .poolRefillDone i => decide (i < 256)
  | .sequenceActivate req h v => req.wf && decide (h < 2 ^ 32) && decide (v < 2 ^ 8)
  | .prefixCopyDone i => decide (i < 65536)
  | .sequenceReserve req h v => req.wf && decide (h < 2 ^ 32) && decide (v < 2 ^ 32)
  | .sequenceLength req h v => req.wf && decide (h < 2 ^ 32) && decide (v < 2 ^ 32)
  | .weirClockMode req v => req.wf && decide (v < 2 ^ 8)
  | .weirStart req ft => req.wf && decide (ft < 2 ^ 64)
  | .weirStartOnLaunch req v => req.wf && decide (v < 2 ^ 8)
  | .weirStartFire => true
  | .weirCycleBoundary => true
  | .weirStop req v => req.wf && decide (v < 2 ^ 8)
  | .weirEngines req v => req.wf && decide (v < 2 ^ 32)
  | .weirMills req v => req.wf && decide (v < 2 ^ 16)
  | .lockstepStart req ft => req.wf && decide (ft < 2 ^ 64)
  | .lockstepStartOnLaunch req v => req.wf && decide (v < 2 ^ 8)
  | .lockstepWindowClose => true
  | .lockstepStop req v => req.wf && decide (v < 2 ^ 8)
  | .snapAt req ft => req.wf && decide (ft < 2 ^ 64)
  | .snapshotFire => true
  | .snapshotShadowReady => true
  | .attrReset req v => req.wf && decide (v < 2 ^ 8)
  | .traceOpenAt req h ft => req.wf && decide (h < 2 ^ 32) && decide (ft < 2 ^ 64)
  | .traceOpenFire => true
  | .traceCloseAt req h ft => req.wf && decide (h < 2 ^ 32) && decide (ft < 2 ^ 64)
  | .traceCloseFire => true
  | .traceNext req h => req.wf && decide (h < 2 ^ 32)
  | .springStart req h ft => req.wf && decide (h < 2 ^ 32) && decide (ft < 2 ^ 64)
  | .springStartOnLaunch req h v => req.wf && decide (h < 2 ^ 32) && decide (v < 2 ^ 8)
  | .springStartFire => true
  | .springPacketCreate => true
  | .springStop req h v => req.wf && decide (h < 2 ^ 32) && decide (v < 2 ^ 8)
  | .gaugeEnable req h v => req.wf && decide (h < 2 ^ 32) && decide (v < 2 ^ 8)
  | .curatorSafetyMismatch => true
  | .curatorWatchdogRestart => true
  | .curatorReady => true
  | .fwVerify req v => req.wf && decide (v < 2 ^ 8)
  | .fwActivate req ft => req.wf && decide (ft < 2 ^ 64)
  | .fwActivateFire => true
  | .fwFallback => true
  | .fwCommit req v => req.wf && decide (v < 2 ^ 8)
  | .lcAdvance req v => req.wf && decide (v < 2 ^ 8)
  | .spdmRequest eid _ => decide (eid < 256)
  | .setEndpointId eid => decide (eid < 256)
  | .sidebandStuck => true
  | .sidebandRecoveryRound _ => true
  | .sidebandFailed _ => true
  | .mctpRestart req v => req.wf && decide (v < 2 ^ 8)
  | .mgmtFrameReceive _ => true
  | .apertureAccess _ _ _ _ => true
  | .ringTail r post _ => decide (r < 4) && decide (post.clear < 2 ^ 32) && decide (post.tail < 2 ^ 32)
  | .hringEnable req r v => req.wf && decide (r < 4) && decide (v < 2 ^ 8)
  | .ringRecordDeliver r => decide (r < 4)
  | .ringIrqHoldoff r => decide (r < 4)
  | .txDescriptor data => decide (data.length = 16)
  | .faultSetting srcs => srcs.all (· < 1024)
  | .chipResetReaction => true
  | .faultNExternal _ => true
  | .faultNStuck => true
  | .faultPinRearm req v => req.wf && decide (v < 2 ^ 8)
  | .faultInject req v => req.wf && decide (v < 2 ^ 16)
  | .pwrTarget req v => req.wf && decide (v < 2 ^ 8)
  | .pwrEnterAt req ft target => req.wf && decide (ft < 2 ^ 64) && decide (target < 256)
  | .pwrEnterFire => true
  | .pwrDomRequest req k v => req.wf && decide (k < 64) && decide (v < 2 ^ 8)
  | .drainDone => true
  | .drainLimit => true
  | .wakeEvent src => decide (src < 16)
  | .laneSignalWake l => decide (l < 1024)
  | .domainAdmit => true
  | .rampWindowEnd k _ => decide (k < 64)
  | .domainUsable k => decide (k < 64)
  | .pwrDomRetry req k v => req.wf && decide (k < 64) && decide (v < 2 ^ 8)
  | .pwrWarnAssert => true
  | .pwrWarnDeassert => true
  | .holdWindowExpire => true
  | .stShutdown req ft => req.wf && decide (ft < 2 ^ 64)
  | .shutdownTest _ rail => decide (rail < 2 ^ 16)
  | .laneRuntimeRepair join m => decide (join < 8) && decide (m < 64)
  | .recableOpenAt req ft => req.wf && decide (ft < 2 ^ 64)
  | .recableOpenFire => true
  | .recableClose req v => req.wf && decide (v < 2 ^ 8)
  | .recableLimit => true
  | .rackResetAt req ft => req.wf && decide (ft < 2 ^ 64)
  | .rackResetFire => true
  | .powerOn => true
  | .chipReset => true
  | .bootStageEnd _ => true
  | .stageLimitOverrun _ => true
  | .vinIvrLow => true
  | .vddAonLow => true
  | .thermalSample _ _ => true
  | .throttleStepDown => true
  | .throttleStepUp => true
  | .bubbleEnd p _ => decide (p < 8)
  | .missedNotice p _ payload => decide (p < 8) && decide (payload.length = 20)
  | .barrierArrive p _ h => decide (p < 8) && decide (h < 2 ^ 32)
  | .transmitWakeDone p => decide (p < 8)
  | .coreClockLocked => true
  | .sessionLockoutEnd => true
  | .blockResetDone u => decide (u < 64)
  | .vddSdWaitTimeout => true
  | .vinIvrRecovered => true
  | .selftestRailOutOfWindow rail => decide (rail < 2 ^ 16)

end Sys2Proof
end

