-- ==== Sys2Proof/Decode.lean ====
section
/-!
DEFINITION. Commands spelt as words. spec/opcode_table.json gives no row any bits (every row's field list is empty): a command
of this block is an event, a frame or a request and not a word, so no word spells one. The bytes that the spec does lay out
(request PDUs, Rill packets, Millrace frames) are read by the commands that carry them (Machine/Pdu.lean, Machine/Rill.lean).
-/

namespace Sys2Proof

/-- The command that a word of the opcode table spells: no row has bits, so none. DESIGN CHOICE (log 5). -/
def decodeTableWord (_nbits _w : Nat) : Option Instr := none

end Sys2Proof
end

