-- ==== Sys2Proof/Machine/Bits.lean ====
section
/-!
DEFINITION. Bit fields of natural numbers, little- and big-endian byte strings, two's complement, and the operations of
the sorted finite maps.
-/

namespace Sys2Proof.Machine

/-- Bits hi:lo of n, as the field maps write them. -/
def bits (n hi lo : Nat) : Nat := n / 2 ^ lo % 2 ^ (hi + 1 - lo)

/-- Bit i of n. -/
def bitAt (n i : Nat) : Bool := n / 2 ^ i % 2 == 1

/-- n with bit i set. -/
def setBitAt (n i : Nat) : Nat := n ||| 2 ^ i

/-- n with bit i cleared. -/
def clearBitAt (n i : Nat) : Nat := if bitAt n i then n - 2 ^ i else n

/-- n with bit i equal to b. -/
def putBitAt (n i : Nat) (b : Bool) : Nat := if b then setBitAt n i else clearBitAt n i

/-- n with bits hi:lo replaced by v. -/
def putBits (n hi lo v : Nat) : Nat :=
  n - bits n hi lo * 2 ^ lo + (v % 2 ^ (hi + 1 - lo)) * 2 ^ lo

/-- The bits of a that are not set in b (of a number below 2^w). -/
def bitsMinus (a b : Nat) : Nat := a - (a &&& b)

/-- How many of the bits 0 to w - 1 are set. -/
def popCount : Nat → Nat → Nat
  | 0, _ => 0
  | w + 1, n => n % 2 + popCount w (n / 2)

/-- The positions below w of the set bits of n, rising. -/
def bitList (w n : Nat) : List Nat := (List.range w).filter (bitAt n)

/-- The number with exactly the listed bits set. -/
def ofBitList (l : List Nat) : Nat := l.foldl setBitAt 0

/-- n as len bytes, least significant first (R32). -/
def leBytes : Nat → Nat → List Byte
  | 0, _ => []
  | len + 1, n => BitVec.ofNat 8 n :: leBytes len (n / 256)

/-- The number that bytes spell, least significant first (R32). -/
def ofLe : List Byte → Nat
  | [] => 0
  | b :: bs => b.toNat + 256 * ofLe bs

/-- n as len bytes, most significant first. -/
def beBytes (len n : Nat) : List Byte := (leBytes len n).reverse

/-- The number that bytes spell, most significant first. -/
def ofBe (bs : List Byte) : Nat := ofLe bs.reverse

/-- Bytes lo to lo + len - 1 of a byte string. -/
def slice {α : Type} (l : List α) (lo len : Nat) : List α := (l.drop lo).take len

/-- The little-endian number at bytes lo to lo + len - 1. -/
def leAt (l : List Byte) (lo len : Nat) : Nat := ofLe (slice l lo len)

/-- The big-endian number at bytes lo to lo + len - 1. -/
def beAt (l : List Byte) (lo len : Nat) : Nat := ofBe (slice l lo len)

/-- A w-bit number read as two's complement. -/
def signedOf (w n : Nat) : Int :=
  if n % 2 ^ w < 2 ^ (w - 1) then (n % 2 ^ w : Nat) else (n % 2 ^ w : Nat) - (2 ^ w : Nat)

/-- An integer as a w-bit two's complement number. -/
def unsignedOf (w : Nat) (i : Int) : Nat := (i % ((2 ^ w : Nat) : Int)).toNat

/-- n rounded up to a multiple of m. -/
def roundUp (n m : Nat) : Nat := (n + m - 1) / m * m

/-- n divided by m, rounded up. -/
def ceilDiv (n m : Nat) : Nat := (n + m - 1) / m

/-- A list with the element at position i replaced. -/
def setAt {α : Type} (l : List α) (i : Nat) (a : α) : List α := l.set i a

/-- The value of key k, if any. -/
def mget? {α : Type} : NMap α → Nat → Option α
  | [], _ => none
  | (j, a) :: m, k => if j = k then some a else mget? m k

/-- The value of key k, or d. -/
def mgetD {α : Type} (m : NMap α) (k : Nat) (d : α) : α := (mget? m k).getD d

/-- The map with key k at a, keys kept rising. -/
def mput {α : Type} : NMap α → Nat → α → NMap α
  | [], k, a => [(k, a)]
  | (j, b) :: m, k, a =>
    if k < j then (k, a) :: (j, b) :: m
    else if k = j then (k, a) :: m
    else (j, b) :: mput m k a

/-- The map without key k. -/
def mdel {α : Type} (m : NMap α) (k : Nat) : NMap α := m.filter (fun p => p.1 != k)

/-- The map with the value of key k changed (d where it has none). -/
def mmod {α : Type} (m : NMap α) (k : Nat) (d : α) (f : α → α) : NMap α := mput m k (f (mgetD m k d))

/-- The keys of a map, rising. -/
def mkeys {α : Type} (m : NMap α) : List Nat := m.map (·.1)

/-- The least key of a list of pairs by a measure, ties to the earlier. -/
def minBy? {α : Type} (f : α → Nat) : List α → Option α
  | [] => none
  | a :: l =>
    match minBy? f l with
    | none => some a
    | some b => if f a ≤ f b then some a else some b

/-- The greatest element of a list by a measure, ties to the earlier. -/
def maxBy? {α : Type} (f : α → Nat) : List α → Option α
  | [] => none
  | a :: l =>
    match maxBy? f l with
    | none => some a
    | some b => if f b ≤ f a then some a else some b

/-- The sum of a list. -/
def sumBy {α : Type} (f : α → Nat) (l : List α) : Nat := l.foldl (fun n a => n + f a) 0

/-- Insert by a strict order test, after the elements that the new one does not precede. -/
def insertBy {α : Type} (lt : α → α → Bool) (a : α) : List α → List α
  | [] => [a]
  | b :: l => if lt a b then a :: b :: l else b :: insertBy lt a l

/-- A list with no repeats, first occurrences kept. -/
def dedup {α : Type} [DecidableEq α] : List α → List α
  | [] => []
  | a :: l => a :: (dedup l).filter (fun b => decide (b ≠ a))

/-- Insertion sort by a strict order test (stable). -/
def sortBy {α : Type} (lt : α → α → Bool) (l : List α) : List α :=
  l.foldl (fun acc a => insertBy lt a acc) []

/-- One more than x, or 0 from m - 1. -/
def nextMod (x m : Nat) : Nat := if x + 1 < m then x + 1 else 0

/-- Ceiling log2 of n (0 for 0 and 1). -/
def ceilLog2 (n : Nat) : Nat := if n ≤ 1 then 0 else Nat.log2 (n - 1) + 1

end Sys2Proof.Machine
end

