-- ==== Sys2Proof/Machine/Entries.lean ====
section
/-!
DEFINITION. The Catalogue entries (R31): one record per row of the entry tables of spec/, each with its type, access code,
field class, default, range and whether it is Retained. The name is the dotted name of the spec with underscores.
-/

namespace Sys2Proof.Machine.E

/-- `bripol.length` (0x1100:01), R61. -/
def bripol_length : Ent := ⟨0x1100, 1, 0x01, 1, 1, .u32, 4, .ro, .status, .v 0, false, .any, false⟩
/-- `bripol.version` (0x1100:02), R61. -/
def bripol_version : Ent := ⟨0x1100, 1, 0x02, 1, 1, .u16, 2, .ro, .status, .v 0x0100, false, .any, false⟩
/-- `bripol.crc` (0x1100:03), R61. -/
def bripol_crc : Ent := ⟨0x1100, 1, 0x03, 1, 1, .u32, 4, .ro, .status, .v 0, false, .any, false⟩
/-- `bripol.data` (0x1101:01), R61. -/
def bripol_data : Ent := ⟨0x1101, 1, 0x01, 1, 1, .domain, 0, .ro, .status, .v 0, false, .any, false⟩
/-- `ft.now` (0x8000:01), R76. -/
def ft_now : Ent := ⟨0x8000, 1, 0x01, 1, 1, .ft, 8, .ro, .status, .v 0, true, .any, false⟩
/-- `ft.step` (0x8000:02), R76. -/
def ft_step : Ent := ⟨0x8000, 1, 0x02, 1, 1, .u32, 4, .ro, .status, .v 0, true, .any, false⟩
/-- `ft.sync_state` (0x8000:03), R76. -/
def ft_sync_state : Ent := ⟨0x8000, 1, 0x03, 1, 1, .enum8, 1, .ro, .status, .v 0, true, .any, false⟩
/-- `ft.source_port` (0x8000:04), R76. DEDUCED (log 48). -/
def ft_source_port : Ent := ⟨0x8000, 1, 0x04, 1, 1, .u8, 1, .ro, .status, .v 255, true, .any, false⟩
/-- `ft.phase_error` (0x8000:05), R76. -/
def ft_phase_error : Ent := ⟨0x8000, 1, 0x05, 1, 1, .i32, 4, .ro, .status, .v 0, true, .any, false⟩
/-- `ft.delay_mode` (0x8000:06), R76. -/
def ft_delay_mode : Ent := ⟨0x8000, 1, 0x06, 1, 1, .enum8, 1, .rw, .config, .v 0, false, .oneOf [0, 1], false⟩
/-- `ft.delay_fixed` (0x8000:07), R76. -/
def ft_delay_fixed : Ent := ⟨0x8000, 1, 0x07, 2, 1, .u32, 4, .rw, .config, .v 0, false, .range 0 1000, false⟩
/-- `ft.delay_measured` (0x8000:09), R76, R89. DEDUCED (log 180). -/
def ft_delay_measured : Ent := ⟨0x8000, 1, 0x09, 2, 1, .u32, 4, .ro, .status, .v 0, true, .any, false⟩
/-- `ft.primary_port` (0x8000:0B), R76. -/
def ft_primary_port : Ent := ⟨0x8000, 1, 0x0B, 1, 1, .u8, 1, .rw, .config, .v 0, false, .range 0 1, false⟩
/-- `ft.holdover_limit` (0x8000:0C), R76. -/
def ft_holdover_limit : Ent := ⟨0x8000, 1, 0x0C, 1, 1, .u32, 4, .rw, .config, .v 100000000, false, .range 1000000 1000000000, false⟩
/-- `ft.local_set` (0x8000:0D), R76. -/
def ft_local_set : Ent := ⟨0x8000, 1, 0x0D, 1, 1, .ft, 8, .wo, .config, .v 0, false, .any, false⟩
/-- `ft.flags` (0x8000:0E), R76. -/
def ft_flags : Ent := ⟨0x8000, 1, 0x0E, 1, 1, .bits32, 4, .w1c, .sticky, .v 0, true, .range 0 255, false⟩
/-- `ft.corrections` (0x8000:0F), R76. -/
def ft_corrections : Ent := ⟨0x8000, 1, 0x0F, 1, 1, .u64, 8, .rc, .counter, .v 0, true, .any, false⟩
/-- `ft.late_actions` (0x8000:10), R76. -/
def ft_late_actions : Ent := ⟨0x8000, 1, 0x10, 1, 1, .u64, 8, .rc, .counter, .v 0, true, .any, false⟩
/-- `ft.pending` (0x8000:11), R76. -/
def ft_pending : Ent := ⟨0x8000, 1, 0x11, 1, 1, .u16, 2, .ro, .status, .v 0, false, .any, false⟩
/-- `ft.pending_limit` (0x8000:12), R76. -/
def ft_pending_limit : Ent := ⟨0x8000, 1, 0x12, 1, 1, .u16, 2, .ro, .status, .v 1024, false, .any, false⟩
/-- `ft.launch_at` (0x8000:13), R76. -/
def ft_launch_at : Ent := ⟨0x8000, 1, 0x13, 1, 1, .ft, 8, .wo, .config, .v 0, false, .any, false⟩
/-- `ft.launch_pending` (0x8000:14), R76. -/
def ft_launch_pending : Ent := ⟨0x8000, 1, 0x14, 1, 1, .ft, 8, .ro, .status, .v 0, false, .any, false⟩
/-- `ft.launch_cancel` (0x8000:15), R76. -/
def ft_launch_cancel : Ent := ⟨0x8000, 1, 0x15, 1, 1, .bool, 1, .wo, .config, .v 0, false, .range 0 1, false⟩
/-- `millrace.role` (0x2800+p:01), R111. -/
def millrace_role : Ent := ⟨0x2800, 8, 0x01, 1, 1, .enum8, 1, .rw, .config, .mrRole, true, .range 0 3, false⟩
/-- `millrace.loopback` (0x2800+p:02), R111. -/
def millrace_loopback : Ent := ⟨0x2800, 8, 0x02, 1, 1, .enum8, 1, .rw, .config, .v 0, true, .range 0 3, false⟩
/-- `millrace.tx_sleep` (0x2800+p:03), R111. -/
def millrace_tx_sleep : Ent := ⟨0x2800, 8, 0x03, 1, 1, .bool, 1, .rw, .config, .v 0, true, .range 0 1, false⟩
/-- `millrace.rx_wake_enable` (0x2800+p:04), R111. -/
def millrace_rx_wake_enable : Ent := ⟨0x2800, 8, 0x04, 1, 1, .bool, 1, .rw, .config, .v 1, true, .range 0 1, false⟩
/-- `millrace.prbs` (0x2800+p:05), R111. -/
def millrace_prbs : Ent := ⟨0x2800, 8, 0x05, 1, 1, .bool, 1, .rw, .config, .v 0, true, .range 0 1, false⟩
/-- `millrace.send_wake` (0x2800+p:06), R111. -/
def millrace_send_wake : Ent := ⟨0x2800, 8, 0x06, 1, 1, .bool, 1, .wo, .config, .v 0, false, .range 0 1, false⟩
/-- `millrace.state` (0x2810+p:01), R111. -/
def millrace_state : Ent := ⟨0x2810, 8, 0x01, 1, 1, .enum8, 1, .ro, .status, .mrRole, true, .any, false⟩
/-- `millrace.tx_state` (0x2810+p:02), R111. -/
def millrace_tx_state : Ent := ⟨0x2810, 8, 0x02, 1, 1, .enum8, 1, .ro, .status, .v 0, true, .any, false⟩
/-- `millrace.rx_state` (0x2810+p:03), R111. -/
def millrace_rx_state : Ent := ⟨0x2810, 8, 0x03, 1, 1, .enum8, 1, .ro, .status, .v 0, true, .any, false⟩
/-- `millrace.partner` (0x2810+p:04), R111. -/
def millrace_partner : Ent := ⟨0x2810, 8, 0x04, 1, 1, .octets, 12, .ro, .status, .v 0, true, .any, false⟩
/-- `millrace.flags` (0x2810+p:05), R111. -/
def millrace_flags : Ent := ⟨0x2810, 8, 0x05, 1, 1, .bits32, 4, .w1c, .sticky, .v 0, true, .range 0 511, false⟩
/-- `millrace.code_errors` (0x2820+p:01), R111. -/
def millrace_code_errors : Ent := ⟨0x2820, 8, 0x01, 1, 1, .u64, 8, .rc, .counter, .v 0, true, .any, false⟩
/-- `millrace.bubbles` (0x2820+p:02), R111. -/
def millrace_bubbles : Ent := ⟨0x2820, 8, 0x02, 1, 1, .u64, 8, .rc, .counter, .v 0, true, .any, false⟩
/-- `millrace.frame_drops` (0x2820+p:03), R111. -/
def millrace_frame_drops : Ent := ⟨0x2820, 8, 0x03, 1, 1, .u64, 8, .rc, .counter, .v 0, true, .any, false⟩
/-- `millrace.retrains` (0x2820+p:04), R111. -/
def millrace_retrains : Ent := ⟨0x2820, 8, 0x04, 1, 1, .u64, 8, .rc, .counter, .v 0, true, .any, false⟩
/-- `millrace.marks` (0x2820+p:05), R111. -/
def millrace_marks : Ent := ⟨0x2820, 8, 0x05, 1, 1, .u64, 8, .rc, .counter, .v 0, true, .any, false⟩
/-- `millrace.prbs_errors` (0x2820+p:06), R111. -/
def millrace_prbs_errors : Ent := ⟨0x2820, 8, 0x06, 1, 1, .u64, 8, .rc, .counter, .v 0, true, .any, false⟩
/-- `millrace.wakes` (0x2820+p:07), R111. -/
def millrace_wakes : Ent := ⟨0x2820, 8, 0x07, 1, 1, .u64, 8, .rc, .counter, .v 0, true, .any, false⟩
/-- `millrace.launch_ignored` (0x2820+p:08), R111. -/
def millrace_launch_ignored : Ent := ⟨0x2820, 8, 0x08, 1, 1, .u64, 8, .rc, .counter, .v 0, true, .any, false⟩
/-- `millrace.launch_count` (0x2830:01), R111. -/
def millrace_launch_count : Ent := ⟨0x2830, 1, 0x01, 1, 1, .u8, 1, .ro, .status, .v 0, false, .any, false⟩
/-- `millrace.launch_record` (0x2830:02–09), R111. -/
def millrace_launch_record : Ent := ⟨0x2830, 1, 0x02, 8, 1, .octets, 16, .ro, .status, .v 0, false, .any, false⟩
/-- `millrace.last_missed` (0x2830:0A), R111. -/
def millrace_last_missed : Ent := ⟨0x2830, 1, 0x0A, 1, 1, .octets, 16, .ro, .status, .v 0, true, .any, false⟩
/-- `port.width` (0x2000+n:01), R137. -/
def port_width : Ent := ⟨0x2000, 1024, 0x01, 1, 1, .enum8, 1, .rw, .config, .v 0, false, .oneOf [0, 1, 2, 4, 8], false⟩
/-- `port.mode` (0x2000+n:02), R137. -/
def port_mode : Ent := ⟨0x2000, 1024, 0x02, 1, 1, .enum8, 1, .rw, .config, .v 0, false, .range 0 1, false⟩
/-- `port.role` (0x2000+n:03), R137. -/
def port_role : Ent := ⟨0x2000, 1024, 0x03, 1, 1, .enum8, 1, .rw, .config, .v 0, false, .range 0 4, false⟩
/-- `port.fec` (0x2000+n:04), R137. -/
def port_fec : Ent := ⟨0x2000, 1024, 0x04, 1, 1, .enum8, 1, .rw, .config, .v 0, false, .range 0 1, false⟩
/-- `port.an` (0x2000+n:05), R137. -/
def port_an : Ent := ⟨0x2000, 1024, 0x05, 1, 1, .bool, 1, .rw, .config, .v 1, false, .range 0 1, false⟩
/-- `port.min_width` (0x2000+n:06), R137. -/
def port_min_width : Ent := ⟨0x2000, 1024, 0x06, 1, 1, .enum8, 1, .rw, .config, .v 1, false, .oneOf [1, 2, 4, 8], false⟩
/-- `port.auto_restore` (0x2000+n:07), R137. -/
def port_auto_restore : Ent := ⟨0x2000, 1024, 0x07, 1, 1, .bool, 1, .rw, .config, .v 1, false, .range 0 1, false⟩
/-- `port.restore_hold` (0x2000+n:08), R137. -/
def port_restore_hold : Ent := ⟨0x2000, 1024, 0x08, 1, 1, .u32, 4, .rw, .config, .v 1000000000, false, .range 1000000 4000000000, false⟩
/-- `port.restore` (0x2000+n:09), R137. -/
def port_restore : Ent := ⟨0x2000, 1024, 0x09, 1, 1, .bool, 1, .wo, .config, .v 0, false, .range 0 1, false⟩
/-- `port.degrade_enable` (0x2000+n:0A), R137. -/
def port_degrade_enable : Ent := ⟨0x2000, 1024, 0x0A, 1, 1, .bool, 1, .rw, .config, .v 0, false, .range 0 1, false⟩
/-- `port.ber_limit` (0x2000+n:0B), R137. -/
def port_ber_limit : Ent := ⟨0x2000, 1024, 0x0B, 1, 1, .u32, 4, .rw, .config, .v 0, false, .any, false⟩
/-- `port.loopback` (0x2000+n:0C), R137. -/
def port_loopback : Ent := ⟨0x2000, 1024, 0x0C, 1, 1, .enum8, 1, .rw, .config, .v 0, false, .range 0 3, false⟩
/-- `port.prbs` (0x2000+n:0D), R137. -/
def port_prbs : Ent := ⟨0x2000, 1024, 0x0D, 1, 1, .enum8, 1, .rw, .config, .v 0, false, .range 0 2, false⟩
/-- `port.control_role` (0x2000+n:0E), R137. -/
def port_control_role : Ent := ⟨0x2000, 1024, 0x0E, 1, 1, .enum8, 1, .rw, .config, .v 255, false, .oneOf [2, 3, 4, 255], false⟩
/-- `port.control_partition` (0x2000+n:0F), R137. -/
def port_control_partition : Ent := ⟨0x2000, 1024, 0x0F, 1, 1, .u16, 2, .rw, .config, .v 0, false, .range 0 4095, false⟩
/-- `port.mtu` (0x2000+n:10), R137. -/
def port_mtu : Ent := ⟨0x2000, 1024, 0x10, 1, 1, .u16, 2, .rw, .config, .v 9216, false, .range 1518 9216, false⟩
/-- `port.pvid` (0x2000+n:11), R137. -/
def port_pvid : Ent := ⟨0x2000, 1024, 0x11, 1, 1, .u16, 2, .rw, .config, .v 1, false, .range 1 4094, false⟩
/-- `port.vlan_mode` (0x2000+n:12), R137. -/
def port_vlan_mode : Ent := ⟨0x2000, 1024, 0x12, 1, 1, .enum8, 1, .rw, .config, .v 0, false, .oneOf [0, 1], false⟩
/-- `port.stp_state` (0x2000+n:13), R137. -/
def port_stp_state : Ent := ⟨0x2000, 1024, 0x13, 1, 1, .enum8, 1, .rw, .config, .v 2, false, .range 0 2, false⟩
/-- `port.ecn_enable` (0x2000+n:14), R137. -/
def port_ecn_enable : Ent := ⟨0x2000, 1024, 0x14, 1, 1, .bool, 1, .rw, .config, .v 1, false, .range 0 1, false⟩
/-- `port.mac` (0x2000+n:15), R137. -/
def port_mac : Ent := ⟨0x2000, 1024, 0x15, 1, 1, .octets, 6, .rw, .config, .portMac, false, .any, false⟩
/-- `port.tunnel_src` (0x2000+n:16), R137. -/
def port_tunnel_src : Ent := ⟨0x2000, 1024, 0x16, 1, 1, .octets, 16, .rw, .config, .v 0, false, .any, false⟩
/-- `port.tunnel_hop_limit` (0x2000+n:17), R137. -/
def port_tunnel_hop_limit : Ent := ⟨0x2000, 1024, 0x17, 1, 1, .u8, 1, .rw, .config, .v 64, false, .any, false⟩
/-- `port.state` (0x2000+n:20), R137. -/
def port_state : Ent := ⟨0x2000, 1024, 0x20, 1, 1, .enum8, 1, .ro, .status, .v 0, false, .any, false⟩
/-- `port.active_width` (0x2000+n:21), R137. -/
def port_active_width : Ent := ⟨0x2000, 1024, 0x21, 1, 1, .enum8, 1, .ro, .status, .v 0, false, .any, false⟩
/-- `port.active_first_lane` (0x2000+n:22), R137. -/
def port_active_first_lane : Ent := ⟨0x2000, 1024, 0x22, 1, 1, .u16, 2, .ro, .status, .v 0, false, .any, false⟩
/-- `port.rx_good` (0x2000+n:23), R137. -/
def port_rx_good : Ent := ⟨0x2000, 1024, 0x23, 1, 1, .bits32, 4, .ro, .status, .v 0, false, .any, false⟩
/-- `port.notice` (0x2000+n:24), R137. -/
def port_notice : Ent := ⟨0x2000, 1024, 0x24, 1, 1, .octets, 16, .ro, .status, .v 0, false, .any, false⟩
/-- `port.flags` (0x2000+n:25), R137. -/
def port_flags : Ent := ⟨0x2000, 1024, 0x25, 1, 1, .bits32, 4, .w1c, .sticky, .v 0, false, .range 0 255, false⟩
/-- `port.fec_corrected` (0x2000+n:30), R137. -/
def port_fec_corrected : Ent := ⟨0x2000, 1024, 0x30, 1, 1, .u64, 8, .rc, .counter, .v 0, false, .any, false⟩
/-- `port.fec_uncorrectable` (0x2000+n:31), R137. -/
def port_fec_uncorrectable : Ent := ⟨0x2000, 1024, 0x31, 1, 1, .u64, 8, .rc, .counter, .v 0, false, .any, false⟩
/-- `port.rx_dropped` (0x2000+n:32), R137. -/
def port_rx_dropped : Ent := ⟨0x2000, 1024, 0x32, 1, 1, .u64, 8, .rc, .counter, .v 0, false, .any, false⟩
/-- `port.rx_stomped` (0x2000+n:33), R137. -/
def port_rx_stomped : Ent := ⟨0x2000, 1024, 0x33, 1, 1, .u64, 8, .rc, .counter, .v 0, false, .any, false⟩
/-- `port.tx_stomped` (0x2000+n:34), R137. -/
def port_tx_stomped : Ent := ⟨0x2000, 1024, 0x34, 1, 1, .u64, 8, .rc, .counter, .v 0, false, .any, false⟩
/-- `port.tx_dropped` (0x2000+n:35), R137. -/
def port_tx_dropped : Ent := ⟨0x2000, 1024, 0x35, 1, 1, .u64, 8, .rc, .counter, .v 0, false, .any, false⟩
/-- `port.degrades` (0x2000+n:36), R137. -/
def port_degrades : Ent := ⟨0x2000, 1024, 0x36, 1, 1, .u64, 8, .rc, .counter, .v 0, false, .any, false⟩
/-- `port.marker_errors` (0x2000+n:37), R137. -/
def port_marker_errors : Ent := ⟨0x2000, 1024, 0x37, 1, 1, .u64, 8, .rc, .counter, .v 0, false, .any, false⟩
/-- `port.pause_dropped` (0x2000+n:38), R137. -/
def port_pause_dropped : Ent := ⟨0x2000, 1024, 0x38, 1, 1, .u64, 8, .rc, .counter, .v 0, false, .any, false⟩
/-- `lane.state` (0x2400+L:01), R138. -/
def lane_state : Ent := ⟨0x2400, 1024, 0x01, 1, 1, .enum8, 1, .ro, .status, .laneState, false, .any, false⟩
/-- `lane.snr` (0x2400+L:02), R138. -/
def lane_snr : Ent := ⟨0x2400, 1024, 0x02, 1, 1, .u16, 2, .ro, .status, .v 0, false, .any, false⟩
/-- `lane.pre_fec_ber` (0x2400+L:03), R138. -/
def lane_pre_fec_ber : Ent := ⟨0x2400, 1024, 0x03, 1, 1, .u32, 4, .ro, .status, .v 0, false, .any, false⟩
/-- `lane.losses` (0x2400+L:04), R138. -/
def lane_losses : Ent := ⟨0x2400, 1024, 0x04, 1, 1, .u64, 8, .rc, .counter, .v 0, false, .any, false⟩
/-- `lane.prbs_errors` (0x2400+L:05), R138. -/
def lane_prbs_errors : Ent := ⟨0x2400, 1024, 0x05, 1, 1, .u64, 8, .rc, .counter, .v 0, false, .any, false⟩
/-- `bridge.ageing_time` (0x3A00:01), R139. -/
def bridge_ageing_time : Ent := ⟨0x3A00, 1, 0x01, 1, 1, .u32, 4, .rw, .config, .v 300, false, .orElse 0 10 1000000 1, false⟩
/-- `bridge.mac_count` (0x3A00:02), R139. -/
def bridge_mac_count : Ent := ⟨0x3A00, 1, 0x02, 1, 1, .u32, 4, .ro, .status, .v 0, false, .any, false⟩
/-- `bridge.learn_refused` (0x3A00:03), R139. -/
def bridge_learn_refused : Ent := ⟨0x3A00, 1, 0x03, 1, 1, .u64, 8, .rc, .counter, .v 0, false, .any, false⟩
/-- `bridge.station_moves` (0x3A00:04), R139. -/
def bridge_station_moves : Ent := ⟨0x3A00, 1, 0x04, 1, 1, .u64, 8, .rc, .counter, .v 0, false, .any, false⟩
/-- `bridge.mac_table` (0x3A01:01), R139. -/
def bridge_mac_table : Ent := ⟨0x3A01, 1, 0x01, 1, 1, .domain, 4194304, .rw, .config, .v 0, false, .any, false⟩
/-- `bridge.vlan_table` (0x3A02:01), R139. -/
def bridge_vlan_table : Ent := ⟨0x3A02, 1, 0x01, 1, 1, .domain, 1048576, .rw, .config, .v 0, false, .any, false⟩
/-- `tunnel.udp_port` (0x3BF0:01), R139. -/
def tunnel_udp_port : Ent := ⟨0x3BF0, 1, 0x01, 1, 1, .u16, 2, .rw, .config, .v 51742, false, .any, false⟩
/-- `tunnel.dscp` (0x3BF0:02–09), R139. -/
def tunnel_dscp : Ent := ⟨0x3BF0, 1, 0x02, 8, 1, .u8, 1, .rw, .config, .v 0, false, .range 0 63, false⟩
/-- `tunnel.dst` (0x3C00+b:01), R139. -/
def tunnel_dst : Ent := ⟨0x3C00, 1024, 0x01, 1, 1, .octets, 16, .rw, .config, .v 0, false, .any, false⟩
/-- `tunnel.next_hop_mac` (0x3C00+b:02), R139. -/
def tunnel_next_hop_mac : Ent := ⟨0x3C00, 1024, 0x02, 1, 1, .octets, 6, .rw, .config, .v 0, false, .any, false⟩
/-- `tunnel.vlan` (0x3C00+b:03), R139. -/
def tunnel_vlan : Ent := ⟨0x3C00, 1024, 0x03, 1, 1, .u16, 2, .rw, .config, .v 0, false, .range 0 4094, false⟩
/-- `tunnel.ce_received` (0x3C00+b:04), R139. -/
def tunnel_ce_received : Ent := ⟨0x3C00, 1024, 0x04, 1, 1, .u64, 8, .rc, .counter, .v 0, false, .any, false⟩
/-- `bundle.members` (0x3000+b:01), R168. -/
def bundle_members : Ent := ⟨0x3000, 1024, 0x01, 1, 1, .octets, 64, .rw, .config, .v 13407807929942597099574024998205846127479365820592393377723561443721764030073546976801874298166903427690031858186486050853753882811946569946433649006084095, false, .any, false⟩
/-- `bundle.deflect_threshold` (0x3000+b:02), R168. -/
def bundle_deflect_threshold : Ent := ⟨0x3000, 1024, 0x02, 1, 1, .u32, 4, .rw, .config, .v 65536, false, .range 4352 16777216, false⟩
/-- `bundle.link_allowance` (0x3000+b:03), R168. -/
def bundle_link_allowance : Ent := ⟨0x3000, 1024, 0x03, 1, 1, .u16, 2, .rw, .config, .v 1, false, .range 1 1023, false⟩
/-- `bundle.adaptive` (0x3000+b:04), R168. -/
def bundle_adaptive : Ent := ⟨0x3000, 1024, 0x04, 1, 1, .bool, 1, .rw, .config, .v 1, false, .range 0 1, false⟩
/-- `bundle.adapt_interval` (0x3000+b:05), R168. -/
def bundle_adapt_interval : Ent := ⟨0x3000, 1024, 0x05, 1, 1, .u32, 4, .rw, .config, .v 10000, false, .range 1000 1000000, false⟩
/-- `bundle.delay_target` (0x3000+b:06), R168. -/
def bundle_delay_target : Ent := ⟨0x3000, 1024, 0x06, 1, 1, .u32, 4, .rw, .config, .v 2000, false, .range 100 1000000, false⟩
/-- `bundle.eddy_limit` (0x3000+b:07), R168. -/
def bundle_eddy_limit : Ent := ⟨0x3000, 1024, 0x07, 1, 1, .u32, 4, .rw, .config, .v 262144, false, .range 4352 4194304, false⟩
/-- `bundle.members_up` (0x3000+b:10), R168. -/
def bundle_members_up : Ent := ⟨0x3000, 1024, 0x10, 1, 1, .bits32, 4, .ro, .status, .v 0, false, .any, false⟩
/-- `bundle.weight` (0x3000+b:11–30), R168. -/
def bundle_weight : Ent := ⟨0x3000, 1024, 0x11, 32, 1, .u8, 1, .ro, .status, .v 0, false, .any, false⟩
/-- `bundle.forwarded` (0x3000+b:40), R168. -/
def bundle_forwarded : Ent := ⟨0x3000, 1024, 0x40, 1, 1, .u64, 8, .rc, .counter, .v 0, false, .any, false⟩
/-- `bundle.deflections` (0x3000+b:41), R168. -/
def bundle_deflections : Ent := ⟨0x3000, 1024, 0x41, 1, 1, .u64, 8, .rc, .counter, .v 0, false, .any, false⟩
/-- `bundle.eddy_drops` (0x3000+b:42), R168. -/
def bundle_eddy_drops : Ent := ⟨0x3000, 1024, 0x42, 1, 1, .u64, 8, .rc, .counter, .v 0, false, .any, false⟩
/-- `bundle.eddy_full_drops` (0x3000+b:43), R168. -/
def bundle_eddy_full_drops : Ent := ⟨0x3000, 1024, 0x43, 1, 1, .u64, 8, .rc, .counter, .v 0, false, .any, false⟩
/-- `bundle.expired` (0x3000+b:44), R168. -/
def bundle_expired : Ent := ⟨0x3000, 1024, 0x44, 1, 1, .u64, 8, .rc, .counter, .v 0, false, .any, false⟩
/-- `rill.rx_fail` (0x3400+n:01–0D), R169. -/
def rill_rx_fail : Ent := ⟨0x3400, 1024, 0x01, 13, 1, .u64, 8, .rc, .counter, .v 0, false, .any, false⟩
/-- `rill.rx_expired` (0x3400+n:0E), R169. -/
def rill_rx_expired : Ent := ⟨0x3400, 1024, 0x0E, 1, 1, .u64, 8, .rc, .counter, .v 0, false, .any, false⟩
/-- `rill.rx_accepted` (0x3400+n:0F), R169. -/
def rill_rx_accepted : Ent := ⟨0x3400, 1024, 0x0F, 1, 1, .u64, 8, .rc, .counter, .v 0, false, .any, false⟩
/-- `rill.rx_flags` (0x3400+n:20), R169. -/
def rill_rx_flags : Ent := ⟨0x3400, 1024, 0x20, 1, 1, .bits32, 4, .w1c, .sticky, .v 0, false, .range 0 8191, false⟩
/-- `rill.origin_lifetime` (0x3800:01), R170. -/
def rill_origin_lifetime : Ent := ⟨0x3800, 1, 0x01, 1, 1, .u16, 2, .rw, .config, .v 15625, false, .range 1 65535, false⟩
/-- `rill.lifetime_max` (0x3800:02–05), R170. -/
def rill_lifetime_max : Ent := ⟨0x3800, 1, 0x02, 4, 1, .u16, 2, .rw, .config, .v 65535, false, .any, false⟩
/-- `rill.fault_window` (0x3800:06), R170. -/
def rill_fault_window : Ent := ⟨0x3800, 1, 0x06, 1, 1, .u32, 4, .rw, .config, .v 1000000, false, .range 10000 1000000000, false⟩
/-- `rill.fault_rate` (0x3800:07), R170. -/
def rill_fault_rate : Ent := ⟨0x3800, 1, 0x07, 1, 1, .u32, 4, .rw, .config, .v 1000, false, .range 1 4294967295, false⟩
/-- `rill.eddy_used` (0x3800:08), R170. -/
def rill_eddy_used : Ent := ⟨0x3800, 1, 0x08, 1, 1, .u32, 4, .ro, .status, .v 0, false, .any, false⟩
/-- `rill.eddy_peak` (0x3800:09), R170. -/
def rill_eddy_peak : Ent := ⟨0x3800, 1, 0x09, 1, 1, .u32, 4, .rc, .counter, .v 0, false, .any, false⟩
/-- `rill.partition_sets` (0x3810:01), R170. -/
def rill_partition_sets : Ent := ⟨0x3810, 1, 0x01, 1, 1, .domain, 524288, .rw, .config, .partitionSets, false, .any, false⟩
/-- `rsv.window_region` (0x4000:01), R195. -/
def rsv_window_region : Ent := ⟨0x4000, 1, 0x01, 1, 1, .u8, 1, .rw, .config, .v 0, false, .range 0 8, false⟩
/-- `rsv.packet_cells` (0x4000:02), R195. -/
def rsv_packet_cells : Ent := ⟨0x4000, 1, 0x02, 1, 1, .u32, 4, .ro, .status, .v 1572864, false, .any, false⟩
/-- `rsv.landing_cells` (0x4000:03), R195. -/
def rsv_landing_cells : Ent := ⟨0x4000, 1, 0x03, 1, 1, .u16, 2, .rw, .config, .v 144, false, .range 72 1024, false⟩
/-- `rsv.yellow_limit` (0x4000:04), R195. -/
def rsv_yellow_limit : Ent := ⟨0x4000, 1, 0x04, 1, 1, .u16, 2, .rw, .config, .v 512, false, .range 0 1024, false⟩
/-- `rsv.red_limit` (0x4000:05), R195. -/
def rsv_red_limit : Ent := ⟨0x4000, 1, 0x05, 1, 1, .u16, 2, .rw, .config, .v 128, false, .range 0 1024, false⟩
/-- `rsv.red_seed` (0x4000:06), R195. -/
def rsv_red_seed : Ent := ⟨0x4000, 1, 0x06, 1, 1, .u32, 4, .rw, .config, .v 1, false, .any, false⟩
/-- `rsv.shared_cells` (0x4000:10), R195. -/
def rsv_shared_cells : Ent := ⟨0x4000, 1, 0x10, 1, 1, .u32, 4, .ro, .status, .v 0, false, .any, false⟩
/-- `rsv.shared_used` (0x4000:11), R195. -/
def rsv_shared_used : Ent := ⟨0x4000, 1, 0x11, 1, 1, .u32, 4, .ro, .status, .v 0, false, .any, false⟩
/-- `rsv.shared_yr` (0x4000:12), R195. -/
def rsv_shared_yr : Ent := ⟨0x4000, 1, 0x12, 1, 1, .u32, 4, .ro, .status, .v 0, false, .any, false⟩
/-- `rsv.shared_r` (0x4000:13), R195. -/
def rsv_shared_r : Ent := ⟨0x4000, 1, 0x13, 1, 1, .u32, 4, .ro, .status, .v 0, false, .any, false⟩
/-- `rsv.shared_peak` (0x4000:14), R195. -/
def rsv_shared_peak : Ent := ⟨0x4000, 1, 0x14, 1, 1, .u32, 4, .rc, .counter, .v 0, false, .any, false⟩
/-- `xbar.plane_enable` (0x4000:20), R195. -/
def xbar_plane_enable : Ent := ⟨0x4000, 1, 0x20, 1, 1, .bits32, 4, .rw, .config, .v 3, false, .range 0 3, false⟩
/-- `xbar.plane_state` (0x4000:21), R195. -/
def xbar_plane_state : Ent := ⟨0x4000, 1, 0x21, 1, 1, .bits32, 4, .ro, .status, .v 3, false, .any, false⟩
/-- `rsv.ecc_corrected` (0x4000:30), R195. -/
def rsv_ecc_corrected : Ent := ⟨0x4000, 1, 0x30, 1, 1, .u64, 8, .rc, .counter, .v 0, false, .any, false⟩
/-- `rsv.ecc_uncorrectable` (0x4000:31), R195. -/
def rsv_ecc_uncorrectable : Ent := ⟨0x4000, 1, 0x31, 1, 1, .u64, 8, .rc, .counter, .v 0, false, .any, false⟩
/-- `xbar.underruns` (0x4000:32), R195. -/
def xbar_underruns : Ent := ⟨0x4000, 1, 0x32, 1, 1, .u64, 8, .rc, .counter, .v 0, false, .any, false⟩
/-- `rsv.landing_drops` (0x4000:33), R195. -/
def rsv_landing_drops : Ent := ⟨0x4000, 1, 0x33, 1, 1, .u64, 8, .rc, .counter, .v 0, false, .any, false⟩
/-- `queue.min_cells` (0x4100:30), R196. -/
def queue_min_cells : Ent := ⟨0x4100, 1, 0x30, 1, 1, .u32, 4, .rw, .config, .v 16, false, .range 0 65536, true⟩
/-- `queue.shared_max` (0x4100:31), R196. -/
def queue_shared_max : Ent := ⟨0x4100, 1, 0x31, 1, 1, .u32, 4, .rw, .config, .v 262144, false, .range 0 1572864, true⟩
/-- `queue.alpha` (0x4100:32), R196. -/
def queue_alpha : Ent := ⟨0x4100, 1, 0x32, 1, 1, .u8, 1, .rw, .config, .v 5, false, .range 0 9, true⟩
/-- `queue.red_profile` (0x4100:33), R196. -/
def queue_red_profile : Ent := ⟨0x4100, 1, 0x33, 1, 1, .u8, 1, .rw, .config, .v 255, false, .orElse 255 0 63 1, true⟩
/-- `queue.avg_weight` (0x4100:34), R196. -/
def queue_avg_weight : Ent := ⟨0x4100, 1, 0x34, 1, 1, .u8, 1, .rw, .config, .v 9, false, .range 0 15, true⟩
/-- `queue.depth_cells` (0x4100:40), R196. -/
def queue_depth_cells : Ent := ⟨0x4100, 1, 0x40, 1, 1, .u32, 4, .ro, .status, .v 0, false, .any, true⟩
/-- `queue.min_used` (0x4100:41), R196. -/
def queue_min_used : Ent := ⟨0x4100, 1, 0x41, 1, 1, .u32, 4, .ro, .status, .v 0, false, .any, true⟩
/-- `queue.shared_used` (0x4100:42), R196. -/
def queue_shared_used : Ent := ⟨0x4100, 1, 0x42, 1, 1, .u32, 4, .ro, .status, .v 0, false, .any, true⟩
/-- `queue.avg_depth` (0x4100:43), R196. -/
def queue_avg_depth : Ent := ⟨0x4100, 1, 0x43, 1, 1, .u32, 4, .ro, .status, .v 0, false, .any, true⟩
/-- `queue.admitted` (0x4100:50), R196. -/
def queue_admitted : Ent := ⟨0x4100, 1, 0x50, 1, 1, .u64, 8, .rc, .counter, .v 0, false, .any, true⟩
/-- `queue.drop_green` (0x4100:51), R196. -/
def queue_drop_green : Ent := ⟨0x4100, 1, 0x51, 1, 1, .u64, 8, .rc, .counter, .v 0, false, .any, true⟩
/-- `queue.drop_yellow` (0x4100:52), R196. -/
def queue_drop_yellow : Ent := ⟨0x4100, 1, 0x52, 1, 1, .u64, 8, .rc, .counter, .v 0, false, .any, true⟩
/-- `queue.drop_red` (0x4100:53), R196. -/
def queue_drop_red : Ent := ⟨0x4100, 1, 0x53, 1, 1, .u64, 8, .rc, .counter, .v 0, false, .any, true⟩
/-- `queue.early_drops` (0x4100:54), R196. -/
def queue_early_drops : Ent := ⟨0x4100, 1, 0x54, 1, 1, .u64, 8, .rc, .counter, .v 0, false, .any, true⟩
/-- `queue.ecn_marked` (0x4100:55), R196. -/
def queue_ecn_marked : Ent := ⟨0x4100, 1, 0x55, 1, 1, .u64, 8, .rc, .counter, .v 0, false, .any, true⟩
/-- `queue.refused_rill` (0x4100:56), R196. -/
def queue_refused_rill : Ent := ⟨0x4100, 1, 0x56, 1, 1, .u64, 8, .rc, .counter, .v 0, false, .any, true⟩
/-- `red.min` (0), R197. -/
def red_min : Ent := ⟨0x4200, 64, 0x01, 3, 4, .u32, 4, .rw, .config, .v 0, false, .any, false⟩
/-- `red.max` (1), R197. -/
def red_max : Ent := ⟨0x4200, 64, 0x02, 3, 4, .u32, 4, .rw, .config, .v 1, false, .any, false⟩
/-- `red.pmax` (2), R197. -/
def red_pmax : Ent := ⟨0x4200, 64, 0x03, 3, 4, .u16, 2, .rw, .config, .v 0, false, .any, false⟩
/-- `red.enable` (3), R197. -/
def red_enable : Ent := ⟨0x4200, 64, 0x04, 3, 4, .bool, 1, .rw, .config, .v 0, false, .range 0 1, false⟩
/-- `internal.min_cells` (0x4020+k:01), R198. -/
def internal_min_cells : Ent := ⟨0x4020, 28, 0x01, 1, 1, .u32, 4, .rw, .config, .v 256, false, .range 0 65536, false⟩
/-- `internal.shared_max` (0x4020+k:02), R198. -/
def internal_shared_max : Ent := ⟨0x4020, 28, 0x02, 1, 1, .u32, 4, .rw, .config, .v 65536, false, .any, false⟩
/-- `internal.depth_cells` (0x4020+k:10), R198. -/
def internal_depth_cells : Ent := ⟨0x4020, 28, 0x10, 1, 1, .u32, 4, .ro, .status, .v 0, false, .any, false⟩
/-- `internal.held` (0x4020+k:11), R198. -/
def internal_held : Ent := ⟨0x4020, 28, 0x11, 1, 1, .u64, 8, .rc, .counter, .v 0, false, .any, false⟩
/-- `sample.rx_n` (0x4400+n:01), R199. -/
def sample_rx_n : Ent := ⟨0x4400, 1024, 0x01, 1, 1, .u32, 4, .rw, .config, .v 0, false, .range 0 16777216, false⟩
/-- `sample.tx_n` (0x4400+n:02), R199. -/
def sample_tx_n : Ent := ⟨0x4400, 1024, 0x02, 1, 1, .u32, 4, .rw, .config, .v 0, false, .range 0 16777216, false⟩
/-- `sample.mode` (0x4400+n:03), R199. -/
def sample_mode : Ent := ⟨0x4400, 1024, 0x03, 1, 1, .enum8, 1, .rw, .config, .v 0, false, .oneOf [0, 1], false⟩
/-- `sample.length` (0x4400+n:04), R199. -/
def sample_length : Ent := ⟨0x4400, 1024, 0x04, 1, 1, .u16, 2, .rw, .config, .v 128, false, .mult 64 512 64, false⟩
/-- `sample.dest` (0x4400+n:05), R199. -/
def sample_dest : Ent := ⟨0x4400, 1024, 0x05, 1, 1, .enum8, 1, .rw, .config, .v 0, false, .oneOf [0, 1], false⟩
/-- `sample.drops` (0x4400+n:06), R199. -/
def sample_drops : Ent := ⟨0x4400, 1024, 0x06, 1, 1, .bool, 1, .rw, .config, .v 0, false, .range 0 1, false⟩
/-- `sample.taken` (0x4400+n:10), R199. -/
def sample_taken : Ent := ⟨0x4400, 1024, 0x10, 1, 1, .u64, 8, .rc, .counter, .v 0, false, .any, false⟩
/-- `sample.lost` (0x4400+n:11), R199. -/
def sample_lost : Ent := ⟨0x4400, 1024, 0x11, 1, 1, .u64, 8, .rc, .counter, .v 0, false, .any, false⟩
/-- `queue.weight` (0x4100:01), R220. -/
def queue_weight : Ent := ⟨0x4100, 1, 0x01, 1, 1, .u8, 1, .rw, .config, .queueWeight, false, .range 1 255, true⟩
/-- `queue.rate` (0x4100:02), R220. -/
def queue_rate : Ent := ⟨0x4100, 1, 0x02, 1, 1, .u32, 4, .rw, .config, .v 0, false, .range 0 1600000000, true⟩
/-- `queue.burst` (0x4100:03), R220. -/
def queue_burst : Ent := ⟨0x4100, 1, 0x03, 1, 1, .u32, 4, .rw, .config, .v 16384, false, .range 0 16777216, true⟩
/-- `queue.credit` (0x4100:04), R220. -/
def queue_credit : Ent := ⟨0x4100, 1, 0x04, 1, 1, .i64, 8, .ro, .status, .v 0, false, .any, true⟩
/-- `queue.gate_open` (0x4100:05), R220. -/
def queue_gate_open : Ent := ⟨0x4100, 1, 0x05, 1, 1, .bool, 1, .ro, .status, .v 1, false, .range 0 1, true⟩
/-- `queue.tx_packets` (0x4100:57), R220. -/
def queue_tx_packets : Ent := ⟨0x4100, 1, 0x57, 1, 1, .u64, 8, .rc, .counter, .v 0, false, .any, true⟩
/-- `queue.tx_bytes` (0x4100:58), R220. -/
def queue_tx_bytes : Ent := ⟨0x4100, 1, 0x58, 1, 1, .u64, 8, .rc, .counter, .v 0, false, .any, true⟩
/-- `queue.gate_waits` (0x4100:59), R220. -/
def queue_gate_waits : Ent := ⟨0x4100, 1, 0x59, 1, 1, .u64, 8, .rc, .counter, .v 0, false, .any, true⟩
/-- `queue.sample_ft` (0x4100:60), R220. -/
def queue_sample_ft : Ent := ⟨0x4100, 1, 0x60, 1, 1, .ft, 8, .ro, .status, .v 0, false, .any, true⟩
/-- `queue.sample_depth` (0x4100:61), R220. -/
def queue_sample_depth : Ent := ⟨0x4100, 1, 0x61, 1, 1, .u32, 4, .ro, .status, .v 0, false, .any, true⟩
/-- `queue.sample_max_depth` (0x4100:62), R220. -/
def queue_sample_max_depth : Ent := ⟨0x4100, 1, 0x62, 1, 1, .u32, 4, .ro, .status, .v 0, false, .any, true⟩
/-- `queue.sample_head_age` (0x4100:63), R220. -/
def queue_sample_head_age : Ent := ⟨0x4100, 1, 0x63, 1, 1, .u32, 4, .ro, .status, .v 0, false, .any, true⟩
/-- `queue.sample_sojourn_mean` (0x4100:64), R220. -/
def queue_sample_sojourn_mean : Ent := ⟨0x4100, 1, 0x64, 1, 1, .u32, 4, .ro, .status, .v 0, false, .any, true⟩
/-- `queue.sample_sojourn_max` (0x4100:65), R220. -/
def queue_sample_sojourn_max : Ent := ⟨0x4100, 1, 0x65, 1, 1, .u32, 4, .ro, .status, .v 0, false, .any, true⟩
/-- `queue.sample_departures` (0x4100:66), R220. -/
def queue_sample_departures : Ent := ⟨0x4100, 1, 0x66, 1, 1, .u32, 4, .ro, .status, .v 0, false, .any, true⟩
/-- `policer.cir` (0x4100:70), R221. -/
def policer_cir : Ent := ⟨0x4100, 1, 0x70, 1, 1, .u32, 4, .rw, .config, .v 0, false, .range 0 1600000000, true⟩
/-- `policer.cbs` (0x4100:71), R221. -/
def policer_cbs : Ent := ⟨0x4100, 1, 0x71, 1, 1, .u32, 4, .rw, .config, .v 16384, false, .range 1 16777216, true⟩
/-- `policer.pir` (0x4100:72), R221. -/
def policer_pir : Ent := ⟨0x4100, 1, 0x72, 1, 1, .u32, 4, .rw, .config, .v 0, false, .any, true⟩
/-- `policer.pbs` (0x4100:73), R221. -/
def policer_pbs : Ent := ⟨0x4100, 1, 0x73, 1, 1, .u32, 4, .rw, .config, .v 16384, false, .range 1 16777216, true⟩
/-- `policer.aware` (0x4100:74), R221. -/
def policer_aware : Ent := ⟨0x4100, 1, 0x74, 1, 1, .bool, 1, .rw, .config, .v 0, false, .range 0 1, true⟩
/-- `policer.yellow_action` (0x4100:75), R221. -/
def policer_yellow_action : Ent := ⟨0x4100, 1, 0x75, 1, 1, .enum8, 1, .rw, .config, .v 0, false, .oneOf [0, 1], true⟩
/-- `policer.red_action` (0x4100:76), R221. -/
def policer_red_action : Ent := ⟨0x4100, 1, 0x76, 1, 1, .enum8, 1, .rw, .config, .v 1, false, .oneOf [0, 1], true⟩
/-- `policer.state` (0x4100:77), R221. -/
def policer_state : Ent := ⟨0x4100, 1, 0x77, 1, 1, .enum8, 1, .ro, .handle, .v 0, false, .any, true⟩
/-- `policer.die` (0x4100:78), R221. -/
def policer_die : Ent := ⟨0x4100, 1, 0x78, 1, 1, .u8, 1, .ro, .status, .v 255, false, .any, true⟩
/-- `policer.green` (0x4100:80), R221. -/
def policer_green : Ent := ⟨0x4100, 1, 0x80, 1, 1, .u64, 8, .rc, .counter, .v 0, false, .any, true⟩
/-- `policer.yellow` (0x4100:81), R221. -/
def policer_yellow : Ent := ⟨0x4100, 1, 0x81, 1, 1, .u64, 8, .rc, .counter, .v 0, false, .any, true⟩
/-- `policer.red` (0x4100:82), R221. -/
def policer_red : Ent := ⟨0x4100, 1, 0x82, 1, 1, .u64, 8, .rc, .counter, .v 0, false, .any, true⟩
/-- `policer.dropped` (0x4100:83), R221. -/
def policer_dropped : Ent := ⟨0x4100, 1, 0x83, 1, 1, .u64, 8, .rc, .counter, .v 0, false, .any, true⟩
/-- `sched.strict_mask` (0x4C00+n:01), R222. -/
def sched_strict_mask : Ent := ⟨0x4C00, 1024, 0x01, 1, 1, .bits32, 4, .rw, .config, .v 192, false, .range 0 255, false⟩
/-- `sched.class_weight` (0x4C00+n:02–09), R222. -/
def sched_class_weight : Ent := ⟨0x4C00, 1024, 0x02, 8, 1, .u8, 1, .rw, .config, .v 1, false, .range 1 255, false⟩
/-- `sched.sub_strict` (0x4C00+n:0A), R222. -/
def sched_sub_strict : Ent := ⟨0x4C00, 1024, 0x0A, 1, 1, .bits32, 4, .rw, .config, .v 0, false, .range 0 255, false⟩
/-- `sched.colour_split` (0x4C00+n:0B), R222. -/
def sched_colour_split : Ent := ⟨0x4C00, 1024, 0x0B, 1, 1, .bool, 1, .rw, .config, .v 1, false, .range 0 1, false⟩
/-- `sched.overhead` (0x4C00+n:0C), R222. -/
def sched_overhead : Ent := ⟨0x4C00, 1024, 0x0C, 1, 1, .u8, 1, .rw, .config, .v 255, false, .range 0 255, false⟩
/-- `sched.pcp_map` (0x4C00+n:0D), R222. -/
def sched_pcp_map : Ent := ⟨0x4C00, 1024, 0x0D, 1, 1, .u32, 4, .rw, .config, .v 16434824, false, .range 0 16777215, false⟩
/-- `sched.default_class` (0x4C00+n:0E), R222. -/
def sched_default_class : Ent := ⟨0x4C00, 1024, 0x0E, 1, 1, .u8, 1, .rw, .config, .v 0, false, .range 0 7, false⟩
/-- `sched.port_rate` (0x4C00+n:0F), R222. -/
def sched_port_rate : Ent := ⟨0x4C00, 1024, 0x0F, 1, 1, .u32, 4, .rw, .config, .v 0, false, .any, false⟩
/-- `sched.port_burst` (0x4C00+n:10), R222. -/
def sched_port_burst : Ent := ⟨0x4C00, 1024, 0x10, 1, 1, .u32, 4, .rw, .config, .v 16384, false, .range 0 16777216, false⟩
/-- `sched.gate_schedule` (0x4C00+n:11), R222. -/
def sched_gate_schedule : Ent := ⟨0x4C00, 1024, 0x11, 1, 1, .handle, 4, .ro, .status, .v 0, false, .any, false⟩
/-- `sched.sample_interval` (0x4900:01), R223. -/
def sched_sample_interval : Ent := ⟨0x4900, 1, 0x01, 1, 1, .u32, 4, .rw, .config, .v 0, false, .orElse 0 1000 1000000000 1, false⟩
/-- `policer.bind` (0x4A00:01), R223. -/
def policer_bind : Ent := ⟨0x4A00, 1, 0x01, 1, 1, .domain, 32768, .rw, .config, .v 0, false, .any, false⟩
/-- `gate.port` (0x4800:01), R224. -/
def gate_port : Ent := ⟨0x4800, 1, 0x01, 1, 1, .u16, 2, .rw, .config, .v 65535, false, .any, true⟩
/-- `gate.alternate` (0x4800:02), R224. -/
def gate_alternate : Ent := ⟨0x4800, 1, 0x02, 1, 1, .handle, 4, .rw, .config, .v 0, false, .any, true⟩
/-- `gate.entries` (0x4800:03), R224. -/
def gate_entries : Ent := ⟨0x4800, 1, 0x03, 1, 1, .u16, 2, .rw, .config, .v 1, false, .range 1 256, true⟩
/-- `gate.list` (0x4800:04), R224. -/
def gate_list : Ent := ⟨0x4800, 1, 0x04, 1, 1, .domain, 2048, .rw, .config, .gateList, false, .any, true⟩
/-- `gate.cycle` (0x4800:05), R224. -/
def gate_cycle : Ent := ⟨0x4800, 1, 0x05, 1, 1, .u32, 4, .ro, .status, .v 1000000, false, .any, true⟩
/-- `gate.start` (0x4800:06), R224. -/
def gate_start : Ent := ⟨0x4800, 1, 0x06, 1, 1, .ft, 8, .wo, .config, .v 0, false, .any, true⟩
/-- `gate.switch_at` (0x4800:07), R224. -/
def gate_switch_at : Ent := ⟨0x4800, 1, 0x07, 1, 1, .ft, 8, .wo, .config, .v 0, false, .any, true⟩
/-- `gate.stop` (0x4800:08), R224. -/
def gate_stop : Ent := ⟨0x4800, 1, 0x08, 1, 1, .bool, 1, .wo, .config, .v 0, false, .range 0 1, true⟩
/-- `gate.state` (0x4800:10), R224. -/
def gate_state : Ent := ⟨0x4800, 1, 0x10, 1, 1, .enum8, 1, .ro, .handle, .v 0, false, .any, true⟩
/-- `gate.anchor` (0x4800:11), R224. -/
def gate_anchor : Ent := ⟨0x4800, 1, 0x11, 1, 1, .ft, 8, .ro, .status, .v 0, false, .any, true⟩
/-- `gate.entry` (0x4800:12), R224. -/
def gate_entry : Ent := ⟨0x4800, 1, 0x12, 1, 1, .u16, 2, .ro, .status, .v 0, false, .any, true⟩
/-- `gate.switches` (0x4800:13), R224. -/
def gate_switches : Ent := ⟨0x4800, 1, 0x13, 1, 1, .u64, 8, .rc, .counter, .v 0, false, .any, true⟩
/-- `gate.switch_refused` (0x4800:14), R224. -/
def gate_switch_refused : Ent := ⟨0x4800, 1, 0x14, 1, 1, .u64, 8, .rc, .counter, .v 0, false, .any, true⟩
/-- `collective.type` (0x5210:01), R262. -/
def collective_type : Ent := ⟨0x5210, 1, 0x01, 1, 1, .enum8, 1, .rw, .config, .v 0, false, .range 0 7, true⟩
/-- `collective.operator` (0x5210:02), R262. -/
def collective_operator : Ent := ⟨0x5210, 1, 0x02, 1, 1, .enum8, 1, .rw, .config, .v 1, false, .range 0 5, true⟩
/-- `collective.segment_size` (0x5210:03), R262. -/
def collective_segment_size : Ent := ⟨0x5210, 1, 0x03, 1, 1, .u32, 4, .rw, .config, .v 65536, false, .mult 4096 262144 4096, true⟩
/-- `collective.threshold` (0x5210:04), R262. -/
def collective_threshold : Ent := ⟨0x5210, 1, 0x04, 1, 1, .u32, 4, .rw, .config, .v 65536, false, .range 0 16777216, true⟩
/-- `collective.length` (0x5210:05), R262. -/
def collective_length : Ent := ⟨0x5210, 1, 0x05, 1, 1, .u32, 4, .rw, .config, .v 0, false, .any, true⟩
/-- `collective.in_format` (0x5210:06), R262. -/
def collective_in_format : Ent := ⟨0x5210, 1, 0x06, 1, 1, .format, 1, .rw, .config, .v 1, false, .range 0 9, true⟩
/-- `collective.out_format` (0x5210:07), R262. -/
def collective_out_format : Ent := ⟨0x5210, 1, 0x07, 1, 1, .format, 1, .rw, .config, .v 1, false, .range 0 9, true⟩
/-- `collective.mode` (0x5210:08), R262. -/
def collective_mode : Ent := ⟨0x5210, 1, 0x08, 1, 1, .enum8, 1, .rw, .config, .v 0, false, .oneOf [0, 1], true⟩
/-- `collective.window` (0x5210:09), R262. -/
def collective_window : Ent := ⟨0x5210, 1, 0x09, 1, 1, .u8, 1, .rw, .config, .v 4, false, .range 1 64, true⟩
/-- `collective.members` (0x5210:0A), R262. -/
def collective_members : Ent := ⟨0x5210, 1, 0x0A, 1, 1, .domain, 2048, .rw, .config, .v 255, false, .any, true⟩
/-- `collective.root` (0x5210:0B), R262. -/
def collective_root : Ent := ⟨0x5210, 1, 0x0B, 1, 1, .u16, 2, .rw, .config, .v 0, false, .any, true⟩
/-- `collective.scale` (0x5210:0C), R262. -/
def collective_scale : Ent := ⟨0x5210, 1, 0x0C, 1, 1, .u32, 4, .rw, .config, .v 1065353216, false, .any, true⟩
/-- `collective.epilogue` (0x5210:0D), R262. -/
def collective_epilogue : Ent := ⟨0x5210, 1, 0x0D, 1, 1, .handle, 4, .rw, .config, .v 0, false, .any, true⟩
/-- `collective.laggard_timeout` (0x5210:0E), R262. -/
def collective_laggard_timeout : Ent := ⟨0x5210, 1, 0x0E, 1, 1, .u32, 4, .rw, .config, .v 0, false, .orElse 0 1000 1000000000 1, true⟩
/-- `collective.widen` (0x5210:0F), R262. -/
def collective_widen : Ent := ⟨0x5210, 1, 0x0F, 1, 1, .bool, 1, .rw, .config, .v 0, false, .range 0 1, true⟩
/-- `collective.widen_threshold` (0x5210:10), R262. -/
def collective_widen_threshold : Ent := ⟨0x5210, 1, 0x10, 1, 1, .u32, 4, .rw, .config, .v 1, false, .any, true⟩
/-- `collective.barrier_scope` (0x5210:11), R262. -/
def collective_barrier_scope : Ent := ⟨0x5210, 1, 0x11, 1, 1, .enum8, 1, .rw, .config, .v 0, false, .oneOf [0, 1], true⟩
/-- `collective.overflow_pool` (0x5210:12), R262. -/
def collective_overflow_pool : Ent := ⟨0x5210, 1, 0x12, 1, 1, .handle, 4, .rw, .config, .v 0, false, .any, true⟩
/-- `collective.peers` (0x5210:13), R262. -/
def collective_peers : Ent := ⟨0x5210, 1, 0x13, 1, 1, .domain, 120, .rw, .config, .v 255, false, .any, true⟩
/-- `collective.position` (0x5210:14), R262. -/
def collective_position : Ent := ⟨0x5210, 1, 0x14, 1, 1, .u8, 1, .rw, .config, .v 0, false, .range 0 15, true⟩
/-- `collective.result_class` (0x5210:15), R262. -/
def collective_result_class : Ent := ⟨0x5210, 1, 0x15, 1, 1, .u8, 1, .rw, .config, .v 6, false, .range 0 7, true⟩
/-- `collective.layer_id` (0x5210:16), R262. -/
def collective_layer_id : Ent := ⟨0x5210, 1, 0x16, 1, 1, .u16, 2, .rw, .config, .v 0, false, .any, true⟩
/-- `collective.op_id` (0x5210:17), R262. -/
def collective_op_id : Ent := ⟨0x5210, 1, 0x17, 1, 1, .u16, 2, .rw, .config, .v 0, false, .any, true⟩
/-- `collective.rows` (0x5210:18), R262. -/
def collective_rows : Ent := ⟨0x5210, 1, 0x18, 1, 1, .u32, 4, .rw, .config, .v 0, false, .any, true⟩
/-- `collective.row_bytes` (0x5210:19), R262. -/
def collective_row_bytes : Ent := ⟨0x5210, 1, 0x19, 1, 1, .u32, 4, .rw, .config, .v 0, false, .orElse 0 256 65536 256, true⟩
/-- `collective.topk` (0x5210:1A), R262. -/
def collective_topk : Ent := ⟨0x5210, 1, 0x1A, 1, 1, .u8, 1, .rw, .config, .v 1, false, .range 1 8, true⟩
/-- `collective.capacity` (0x5210:1B), R262. -/
def collective_capacity : Ent := ⟨0x5210, 1, 0x1B, 1, 1, .u32, 4, .rw, .config, .v 0, false, .any, true⟩
/-- `collective.pair` (0x5210:1C), R262. -/
def collective_pair : Ent := ⟨0x5210, 1, 0x1C, 1, 1, .handle, 4, .rw, .config, .v 0, false, .any, true⟩
/-- `collective.dispatch_map` (0x5210:1D), R262. -/
def collective_dispatch_map : Ent := ⟨0x5210, 1, 0x1D, 1, 1, .domain, 4294967296, .rw, .config, .v 255, false, .any, true⟩
/-- `collective.arm` (0x5210:1E), R262. -/
def collective_arm : Ent := ⟨0x5210, 1, 0x1E, 1, 1, .bool, 1, .wo, .config, .v 0, false, .range 0 1, true⟩
/-- `collective.disarm` (0x5210:1F), R262. -/
def collective_disarm : Ent := ⟨0x5210, 1, 0x1F, 1, 1, .bool, 1, .wo, .config, .v 0, false, .range 0 1, true⟩
/-- `collective.state` (0x5210:20), R262. -/
def collective_state : Ent := ⟨0x5210, 1, 0x20, 1, 1, .enum8, 1, .ro, .handle, .v 0, false, .any, true⟩
/-- `collective.engine` (0x5210:21), R262. -/
def collective_engine : Ent := ⟨0x5210, 1, 0x21, 1, 1, .u8, 1, .ro, .status, .v 0, false, .any, true⟩
/-- `collective.run` (0x5210:22), R262. -/
def collective_run : Ent := ⟨0x5210, 1, 0x22, 1, 1, .u8, 1, .ro, .status, .v 0, false, .any, true⟩
/-- `collective.path` (0x5210:23), R262. -/
def collective_path : Ent := ⟨0x5210, 1, 0x23, 1, 1, .enum8, 1, .ro, .status, .v 0, false, .any, true⟩
/-- `collective.segments` (0x5210:24), R262. -/
def collective_segments : Ent := ⟨0x5210, 1, 0x24, 1, 1, .u32, 4, .ro, .status, .v 0, false, .any, true⟩
/-- `collective.slot_bytes` (0x5210:25), R262. -/
def collective_slot_bytes : Ent := ⟨0x5210, 1, 0x25, 1, 1, .u32, 4, .ro, .status, .v 0, false, .any, true⟩
/-- `collective.basin_bytes` (0x5210:26), R262. -/
def collective_basin_bytes : Ent := ⟨0x5210, 1, 0x26, 1, 1, .u32, 4, .ro, .status, .v 0, false, .any, true⟩
/-- `collective.result_stride` (0x5210:27), R262. -/
def collective_result_stride : Ent := ⟨0x5210, 1, 0x27, 1, 1, .u32, 4, .ro, .status, .v 0, false, .any, true⟩
/-- `collective.limit` (0x5210:28), R262. -/
def collective_limit : Ent := ⟨0x5210, 1, 0x28, 1, 1, .u32, 4, .ro, .status, .v 0, false, .any, true⟩
/-- `collective.last_status` (0x5210:29), R262. -/
def collective_last_status : Ent := ⟨0x5210, 1, 0x29, 1, 1, .status, 1, .ro, .status, .v 0, false, .any, true⟩
/-- `collective.member_lost` (0x5210:2A), R262. -/
def collective_member_lost : Ent := ⟨0x5210, 1, 0x2A, 1, 1, .u16, 2, .ro, .status, .v 0, false, .any, true⟩
/-- `collective.laggard_position` (0x5210:2B), R262. -/
def collective_laggard_position : Ent := ⟨0x5210, 1, 0x2B, 1, 1, .u16, 2, .ro, .status, .v 0, false, .any, true⟩
/-- `collective.timeout_position` (0x5210:2C), R262. -/
def collective_timeout_position : Ent := ⟨0x5210, 1, 0x2C, 1, 1, .u16, 2, .ro, .status, .v 0, false, .any, true⟩
/-- `collective.skew_max` (0x5210:2D), R262. -/
def collective_skew_max : Ent := ⟨0x5210, 1, 0x2D, 1, 1, .u32, 4, .ro, .status, .v 0, false, .any, true⟩
/-- `collective.skew_mean` (0x5210:2E), R262. -/
def collective_skew_mean : Ent := ⟨0x5210, 1, 0x2E, 1, 1, .u32, 4, .ro, .status, .v 0, false, .any, true⟩
/-- `collective.runs` (0x5210:30), R262. -/
def collective_runs : Ent := ⟨0x5210, 1, 0x30, 1, 1, .u64, 8, .rc, .counter, .v 0, false, .any, true⟩
/-- `collective.timeouts` (0x5210:31), R262. -/
def collective_timeouts : Ent := ⟨0x5210, 1, 0x31, 1, 1, .u64, 8, .rc, .counter, .v 0, false, .any, true⟩
/-- `collective.widened` (0x5210:32), R262. -/
def collective_widened : Ent := ⟨0x5210, 1, 0x32, 1, 1, .u64, 8, .rc, .counter, .v 0, false, .any, true⟩
/-- `collective.not_armed` (0x5210:33), R262. -/
def collective_not_armed : Ent := ⟨0x5210, 1, 0x33, 1, 1, .u64, 8, .rc, .counter, .v 0, false, .any, true⟩
/-- `collective.format_errors` (0x5210:34), R262. -/
def collective_format_errors : Ent := ⟨0x5210, 1, 0x34, 1, 1, .u64, 8, .rc, .counter, .v 0, false, .any, true⟩
/-- `collective.early` (0x5210:35), R262. -/
def collective_early : Ent := ⟨0x5210, 1, 0x35, 1, 1, .u64, 8, .rc, .counter, .v 0, false, .any, true⟩
/-- `collective.late` (0x5210:36), R262. -/
def collective_late : Ent := ⟨0x5210, 1, 0x36, 1, 1, .u64, 8, .rc, .counter, .v 0, false, .any, true⟩
/-- `collective.oversize` (0x5210:37), R262. -/
def collective_oversize : Ent := ⟨0x5210, 1, 0x37, 1, 1, .u64, 8, .rc, .counter, .v 0, false, .any, true⟩
/-- `collective.over_credit` (0x5210:38), R262. -/
def collective_over_credit : Ent := ⟨0x5210, 1, 0x38, 1, 1, .u64, 8, .rc, .counter, .v 0, false, .any, true⟩
/-- `collective.not_owner` (0x5210:39), R262. -/
def collective_not_owner : Ent := ⟨0x5210, 1, 0x39, 1, 1, .u64, 8, .rc, .counter, .v 0, false, .any, true⟩
/-- `collective.duplicates` (0x5210:3A), R262. -/
def collective_duplicates : Ent := ⟨0x5210, 1, 0x3A, 1, 1, .u64, 8, .rc, .counter, .v 0, false, .any, true⟩
/-- `collective.rows_unassigned` (0x5210:3B), R262. -/
def collective_rows_unassigned : Ent := ⟨0x5210, 1, 0x3B, 1, 1, .u64, 8, .rc, .counter, .v 0, false, .any, true⟩
/-- `confluence.basin_free` (0x5000:01), R263. -/
def confluence_basin_free : Ent := ⟨0x5000, 1, 0x01, 1, 1, .u16, 2, .ro, .status, .v 2048, false, .any, false⟩
/-- `confluence.basin_peak` (0x5000:02), R263. -/
def confluence_basin_peak : Ent := ⟨0x5000, 1, 0x02, 1, 1, .u16, 2, .rc, .counter, .v 0, false, .any, false⟩
/-- `confluence.engine_handles` (0x5000:10–17), R263. -/
def confluence_engine_handles : Ent := ⟨0x5000, 1, 0x10, 8, 1, .u16, 2, .ro, .status, .v 0, false, .any, false⟩
/-- `confluence.engine_bytes` (0x5000:20–27), R263. -/
def confluence_engine_bytes : Ent := ⟨0x5000, 1, 0x20, 8, 1, .u64, 8, .rc, .counter, .v 0, false, .any, false⟩
/-- `confluence.proto_drops` (0x5000:30–37), R263. -/
def confluence_proto_drops : Ent := ⟨0x5000, 1, 0x30, 8, 1, .u64, 8, .rc, .counter, .v 0, false, .any, false⟩
/-- `confluence.epilogue_held` (0x5000:38–3F), R263. -/
def confluence_epilogue_held : Ent := ⟨0x5000, 1, 0x38, 8, 1, .u64, 8, .rc, .counter, .v 0, false, .any, false⟩
/-- `confluence.last_arrivals` (0x5400+n:01), R263. -/
def confluence_last_arrivals : Ent := ⟨0x5400, 1024, 0x01, 1, 1, .u64, 8, .rc, .counter, .v 0, false, .any, false⟩
/-- `collective.in_scale` (0x5210:40), R292. -/
def collective_in_scale : Ent := ⟨0x5210, 1, 0x40, 1, 1, .u32, 4, .rw, .config, .v 1065353216, false, .any, true⟩
/-- `collective.out_scale` (0x5210:41), R292. -/
def collective_out_scale : Ent := ⟨0x5210, 1, 0x41, 1, 1, .u32, 4, .rw, .config, .v 1065353216, false, .any, true⟩
/-- `collective.lse_dim` (0x5210:42), R292. -/
def collective_lse_dim : Ent := ⟨0x5210, 1, 0x42, 1, 1, .u16, 2, .rw, .config, .v 128, false, .mult 8 1024 8, true⟩
/-- `collective.saturated` (0x5210:50), R292. -/
def collective_saturated : Ent := ⟨0x5210, 1, 0x50, 1, 1, .u64, 8, .rc, .counter, .v 0, false, .any, true⟩
/-- `collective.flushed` (0x5210:51), R292. -/
def collective_flushed : Ent := ⟨0x5210, 1, 0x51, 1, 1, .u64, 8, .rc, .counter, .v 0, false, .any, true⟩
/-- `collective.nan_results` (0x5210:52), R292. -/
def collective_nan_results : Ent := ⟨0x5210, 1, 0x52, 1, 1, .u64, 8, .rc, .counter, .v 0, false, .any, true⟩
/-- `collective.truncated` (0x5210:53), R292. -/
def collective_truncated : Ent := ⟨0x5210, 1, 0x53, 1, 1, .u64, 8, .rc, .counter, .v 0, false, .any, true⟩
/-- `collective.histogram` (0x5210:60), R292. -/
def collective_histogram : Ent := ⟨0x5210, 1, 0x60, 1, 1, .domain, 512, .ro, .status, .v 0, false, .any, true⟩
/-- `collective.histogram_run` (0x5210:61), R292. -/
def collective_histogram_run : Ent := ⟨0x5210, 1, 0x61, 1, 1, .u8, 1, .ro, .status, .v 0, false, .any, true⟩
/-- `format.name` (0x6E00+f:01), R316. -/
def format_name : Ent := ⟨0x6E00, 10, 0x01, 1, 1, .octets, 8, .ro, .status, .fmtName, false, .any, false⟩
/-- `format.element_bits` (0x6E00+f:02), R316. -/
def format_element_bits : Ent := ⟨0x6E00, 10, 0x02, 1, 1, .u8, 1, .ro, .status, .fmtBits, false, .any, false⟩
/-- `format.block` (0x6E00+f:03), R316. -/
def format_block : Ent := ⟨0x6E00, 10, 0x03, 1, 1, .u8, 1, .ro, .status, .fmtBlock, false, .any, false⟩
/-- `format.granule_elements` (0x6E00+f:04), R316. -/
def format_granule_elements : Ent := ⟨0x6E00, 10, 0x04, 1, 1, .u16, 2, .ro, .status, .fmtGranule, false, .any, false⟩
/-- `format.rate_class` (0x6E00+f:05), R316. -/
def format_rate_class : Ent := ⟨0x6E00, 10, 0x05, 1, 1, .enum8, 1, .ro, .status, .fmtRate, false, .any, false⟩
/-- `format.flushed_in` (0x6E00+f:10), R316. -/
def format_flushed_in : Ent := ⟨0x6E00, 10, 0x10, 1, 1, .u64, 8, .rc, .counter, .v 0, false, .any, false⟩
/-- `format.flushed_out` (0x6E00+f:11), R316. -/
def format_flushed_out : Ent := ⟨0x6E00, 10, 0x11, 1, 1, .u64, 8, .rc, .counter, .v 0, false, .any, false⟩
/-- `format.saturated` (0x6E00+f:12), R316. -/
def format_saturated : Ent := ⟨0x6E00, 10, 0x12, 1, 1, .u64, 8, .rc, .counter, .v 0, false, .any, false⟩
/-- `format.nan_out` (0x6E00+f:13), R316. -/
def format_nan_out : Ent := ⟨0x6E00, 10, 0x13, 1, 1, .u64, 8, .rc, .counter, .v 0, false, .any, false⟩
/-- `format.reserved_in` (0x6E00+f:14), R316. -/
def format_reserved_in : Ent := ⟨0x6E00, 10, 0x14, 1, 1, .u64, 8, .rc, .counter, .v 0, false, .any, false⟩
/-- `template.descriptor` (0x6100:01), R349. -/
def template_descriptor : Ent := ⟨0x6100, 1, 0x01, 1, 1, .domain, 80, .rw, .config, .v 0, false, .any, true⟩
/-- `template.state` (0x6100:02), R349. -/
def template_state : Ent := ⟨0x6100, 1, 0x02, 1, 1, .enum8, 1, .ro, .handle, .v 0, false, .any, true⟩
/-- `template.holders` (0x6100:03), R349. -/
def template_holders : Ent := ⟨0x6100, 1, 0x03, 1, 1, .u32, 4, .ro, .status, .v 0, false, .any, true⟩
/-- `template.jobs` (0x6100:10), R349. -/
def template_jobs : Ent := ⟨0x6100, 1, 0x10, 1, 1, .u64, 8, .rc, .counter, .v 0, false, .any, true⟩
/-- `template.failed` (0x6100:11), R349. -/
def template_failed : Ent := ⟨0x6100, 1, 0x11, 1, 1, .u64, 8, .rc, .counter, .v 0, false, .any, true⟩
/-- `mill.state` (0x6200+x:01), R350. -/
def mill_state : Ent := ⟨0x6200, 272, 0x01, 1, 1, .enum8, 1, .ro, .status, .millState, true, .any, false⟩
/-- `mill.logical` (0x6200+x:02), R350. -/
def mill_logical : Ent := ⟨0x6200, 272, 0x02, 1, 1, .u16, 2, .ro, .status, .millLogical, true, .any, false⟩
/-- `mill.busy_cycles` (0x6200+x:10), R350. -/
def mill_busy_cycles : Ent := ⟨0x6200, 272, 0x10, 1, 1, .u64, 8, .rc, .counter, .v 0, false, .any, false⟩
/-- `mill.shares` (0x6200+x:11), R350. -/
def mill_shares : Ent := ⟨0x6200, 272, 0x11, 1, 1, .u64, 8, .rc, .counter, .v 0, false, .any, false⟩
/-- `mill.ecc_corrected` (0x6200+x:12), R350. -/
def mill_ecc_corrected : Ent := ⟨0x6200, 272, 0x12, 1, 1, .u64, 8, .rc, .counter, .v 0, false, .any, false⟩
/-- `mill.ecc_uncorrectable` (0x6200+x:13), R350. -/
def mill_ecc_uncorrectable : Ent := ⟨0x6200, 272, 0x13, 1, 1, .u64, 8, .rc, .counter, .v 0, false, .any, false⟩
/-- `mill.enabled_map` (0x6000+d:01), R351. -/
def mill_enabled_map : Ent := ⟨0x6000, 4, 0x01, 1, 1, .octets, 12, .ro, .status, .millMap, true, .any, false⟩
/-- `mill.enabled_count` (0x6000+d:02), R351. -/
def mill_enabled_count : Ent := ⟨0x6000, 4, 0x02, 1, 1, .u8, 1, .ro, .status, .v 64, true, .any, false⟩
/-- `mill.spare_count` (0x6000+d:03), R351. -/
def mill_spare_count : Ent := ⟨0x6000, 4, 0x03, 1, 1, .u8, 1, .ro, .status, .v 4, true, .any, false⟩
/-- `mill.die_queue` (0x6000+d:04), R351. -/
def mill_die_queue : Ent := ⟨0x6000, 4, 0x04, 1, 1, .u16, 2, .ro, .status, .v 0, false, .any, false⟩
/-- `mill.logical_count` (0x6010:01), R351. -/
def mill_logical_count : Ent := ⟨0x6010, 1, 0x01, 1, 1, .u16, 2, .ro, .status, .v 256, true, .any, false⟩
/-- `mill.queue_limit` (0x6010:02), R351. -/
def mill_queue_limit : Ent := ⟨0x6010, 1, 0x02, 1, 1, .u16, 2, .ro, .status, .v 4096, false, .any, false⟩
/-- `mill.queue_depth` (0x6010:03), R351. -/
def mill_queue_depth : Ent := ⟨0x6010, 1, 0x03, 1, 1, .u16, 2, .ro, .status, .v 0, false, .any, false⟩
/-- `mill.job_timeout` (0x6010:04), R351. -/
def mill_job_timeout : Ent := ⟨0x6010, 1, 0x04, 1, 1, .u32, 4, .rw, .config, .v 0, false, .orElse 0 10000 4000000000 1, false⟩
/-- `mill.jobs_accepted` (0x6010:10), R351. -/
def mill_jobs_accepted : Ent := ⟨0x6010, 1, 0x10, 1, 1, .u64, 8, .rc, .counter, .v 0, false, .any, false⟩
/-- `mill.jobs_completed` (0x6010:11), R351. -/
def mill_jobs_completed : Ent := ⟨0x6010, 1, 0x11, 1, 1, .u64, 8, .rc, .counter, .v 0, false, .any, false⟩
/-- `mill.jobs_failed` (0x6010:12), R351. -/
def mill_jobs_failed : Ent := ⟨0x6010, 1, 0x12, 1, 1, .u64, 8, .rc, .counter, .v 0, false, .any, false⟩
/-- `mill.queue_full` (0x6010:13), R351. -/
def mill_queue_full : Ent := ⟨0x6010, 1, 0x13, 1, 1, .u64, 8, .rc, .counter, .v 0, false, .any, false⟩
/-- `mill.saturated` (0x6010:14), R351. -/
def mill_saturated : Ent := ⟨0x6010, 1, 0x14, 1, 1, .u64, 8, .rc, .counter, .v 0, false, .any, false⟩
/-- `mill.flushed` (0x6010:15), R351. -/
def mill_flushed : Ent := ⟨0x6010, 1, 0x15, 1, 1, .u64, 8, .rc, .counter, .v 0, false, .any, false⟩
/-- `mill.nan_out` (0x6010:16), R351. -/
def mill_nan_out : Ent := ⟨0x6010, 1, 0x16, 1, 1, .u64, 8, .rc, .counter, .v 0, false, .any, false⟩
/-- `mill.router_overflow` (0x6010:17), R351. -/
def mill_router_overflow : Ent := ⟨0x6010, 1, 0x17, 1, 1, .u64, 8, .rc, .counter, .v 0, false, .any, false⟩
/-- `mem.t1_bytes` (0x7000:01), R382. -/
def mem_t1_bytes : Ent := ⟨0x7000, 1, 0x01, 1, 1, .u64, 8, .ro, .status, .t1Bytes, false, .any, false⟩
/-- `mem.t2_bytes` (0x7000:02), R382. -/
def mem_t2_bytes : Ent := ⟨0x7000, 1, 0x02, 1, 1, .u64, 8, .ro, .status, .v 0, false, .any, false⟩
/-- `mem.mill_window` (0x7000:03), R382. -/
def mem_mill_window : Ent := ⟨0x7000, 1, 0x03, 1, 1, .u16, 2, .rw, .config, .v 1024, false, .mult 0 3072 512, false⟩
/-- `mem.outstanding_limit` (0x7000:04), R382. -/
def mem_outstanding_limit : Ent := ⟨0x7000, 1, 0x04, 1, 1, .u16, 2, .ro, .status, .v 8192, false, .any, false⟩
/-- `mem.outstanding` (0x7000:05), R382. -/
def mem_outstanding : Ent := ⟨0x7000, 1, 0x05, 1, 1, .u16, 2, .ro, .status, .v 0, false, .any, false⟩
/-- `mem.busy` (0x7000:10), R382. -/
def mem_busy : Ent := ⟨0x7000, 1, 0x10, 1, 1, .u64, 8, .rc, .counter, .v 0, false, .any, false⟩
/-- `t2cache.hits` (0x7000:20), R382. -/
def t2cache_hits : Ent := ⟨0x7000, 1, 0x20, 1, 1, .u64, 8, .rc, .counter, .v 0, false, .any, false⟩
/-- `t2cache.misses` (0x7000:21), R382. -/
def t2cache_misses : Ent := ⟨0x7000, 1, 0x21, 1, 1, .u64, 8, .rc, .counter, .v 0, false, .any, false⟩
/-- `t2cache.fills_discarded` (0x7000:22), R382. -/
def t2cache_fills_discarded : Ent := ⟨0x7000, 1, 0x22, 1, 1, .u64, 8, .rc, .counter, .v 0, false, .any, false⟩
/-- `window.base` (0x7100:01), R383. -/
def window_base : Ent := ⟨0x7100, 1, 0x01, 1, 1, .u64, 8, .rw, .config, .v 0, false, .mult 0 18446744073709551615 4096, true⟩
/-- `window.size` (0x7100:02), R383. -/
def window_size : Ent := ⟨0x7100, 1, 0x02, 1, 1, .u64, 8, .rw, .config, .v 0, false, .mult 0 4398046511104 4096, true⟩
/-- `window.rights` (0x7100:03), R383. -/
def window_rights : Ent := ⟨0x7100, 1, 0x03, 1, 1, .bits32, 4, .rw, .config, .v 3, false, .range 0 3, true⟩
/-- `window.cached` (0x7100:04), R383. -/
def window_cached : Ent := ⟨0x7100, 1, 0x04, 1, 1, .bool, 1, .rw, .config, .v 1, false, .range 0 1, true⟩
/-- `window.open` (0x7100:05), R383. -/
def window_open : Ent := ⟨0x7100, 1, 0x05, 1, 1, .bool, 1, .wo, .config, .v 0, false, .range 0 1, true⟩
/-- `window.state` (0x7100:10), R383. -/
def window_state : Ent := ⟨0x7100, 1, 0x10, 1, 1, .enum8, 1, .ro, .handle, .v 0, false, .any, true⟩
/-- `window.tier` (0x7100:11), R383. -/
def window_tier : Ent := ⟨0x7100, 1, 0x11, 1, 1, .enum8, 1, .ro, .status, .v 255, false, .any, true⟩
/-- `window.holders` (0x7100:12), R383. -/
def window_holders : Ent := ⟨0x7100, 1, 0x12, 1, 1, .u32, 4, .ro, .status, .v 0, false, .any, true⟩
/-- `window.reads` (0x7100:20), R383. -/
def window_reads : Ent := ⟨0x7100, 1, 0x20, 1, 1, .u64, 8, .rc, .counter, .v 0, false, .any, true⟩
/-- `window.writes` (0x7100:21), R383. -/
def window_writes : Ent := ⟨0x7100, 1, 0x21, 1, 1, .u64, 8, .rc, .counter, .v 0, false, .any, true⟩
/-- `window.read_bytes` (0x7100:22), R383. -/
def window_read_bytes : Ent := ⟨0x7100, 1, 0x22, 1, 1, .u64, 8, .rc, .counter, .v 0, false, .any, true⟩
/-- `window.write_bytes` (0x7100:23), R383. -/
def window_write_bytes : Ent := ⟨0x7100, 1, 0x23, 1, 1, .u64, 8, .rc, .counter, .v 0, false, .any, true⟩
/-- `window.errors` (0x7100:24), R383. -/
def window_errors : Ent := ⟨0x7100, 1, 0x24, 1, 1, .u64, 8, .rc, .counter, .v 0, false, .any, true⟩
/-- `cxl.enable` (0x7010+c:01), R384. -/
def cxl_enable : Ent := ⟨0x7010, 8, 0x01, 1, 1, .bool, 1, .rw, .config, .v 1, false, .range 0 1, false⟩
/-- `cxl.timeout` (0x7010+c:02), R384. -/
def cxl_timeout : Ent := ⟨0x7010, 8, 0x02, 1, 1, .u32, 4, .rw, .config, .v 50000, false, .range 10000 10000000, false⟩
/-- `cxl.resume` (0x7010+c:03), R384. -/
def cxl_resume : Ent := ⟨0x7010, 8, 0x03, 1, 1, .bool, 1, .wo, .config, .v 0, false, .range 0 1, false⟩
/-- `cxl.invalidate` (0x7010+c:04), R384. -/
def cxl_invalidate : Ent := ⟨0x7010, 8, 0x04, 1, 1, .bool, 1, .wo, .config, .v 0, false, .range 0 1, false⟩
/-- `cxl.state` (0x7010+c:10), R384. -/
def cxl_state : Ent := ⟨0x7010, 8, 0x10, 1, 1, .enum8, 1, .ro, .status, .v 0, false, .any, false⟩
/-- `cxl.width` (0x7010+c:11), R384. -/
def cxl_width : Ent := ⟨0x7010, 8, 0x11, 1, 1, .u8, 1, .ro, .status, .v 0, false, .any, false⟩
/-- `cxl.capacity` (0x7010+c:12), R384. -/
def cxl_capacity : Ent := ⟨0x7010, 8, 0x12, 1, 1, .u64, 8, .ro, .status, .v 0, false, .any, false⟩
/-- `cxl.device_id` (0x7010+c:13), R384. -/
def cxl_device_id : Ent := ⟨0x7010, 8, 0x13, 1, 1, .octets, 16, .ro, .status, .v 0, false, .any, false⟩
/-- `cxl.flags` (0x7010+c:14), R384. -/
def cxl_flags : Ent := ⟨0x7010, 8, 0x14, 1, 1, .bits32, 4, .w1c, .sticky, .v 0, false, .range 0 63, false⟩
/-- `cxl.timeouts` (0x7010+c:20), R384. -/
def cxl_timeouts : Ent := ⟨0x7010, 8, 0x20, 1, 1, .u64, 8, .rc, .counter, .v 0, false, .any, false⟩
/-- `cxl.poison` (0x7010+c:21), R384. -/
def cxl_poison : Ent := ⟨0x7010, 8, 0x21, 1, 1, .u64, 8, .rc, .counter, .v 0, false, .any, false⟩
/-- `cxl.losses` (0x7010+c:22), R384. -/
def cxl_losses : Ent := ⟨0x7010, 8, 0x22, 1, 1, .u64, 8, .rc, .counter, .v 0, false, .any, false⟩
/-- `cxl.read_bytes` (0x7010+c:23), R384. -/
def cxl_read_bytes : Ent := ⟨0x7010, 8, 0x23, 1, 1, .u64, 8, .rc, .counter, .v 0, false, .any, false⟩
/-- `cxl.write_bytes` (0x7010+c:24), R384. -/
def cxl_write_bytes : Ent := ⟨0x7010, 8, 0x24, 1, 1, .u64, 8, .rc, .counter, .v 0, false, .any, false⟩
/-- `hbm.state` (0x7020+h:01), R385. -/
def hbm_state : Ent := ⟨0x7020, 8, 0x01, 1, 1, .enum8, 1, .ro, .status, .hbmState, true, .any, false⟩
/-- `hbm.ecc_corrected` (0x7020+h:10), R385. -/
def hbm_ecc_corrected : Ent := ⟨0x7020, 8, 0x10, 1, 1, .u64, 8, .rc, .counter, .v 0, false, .any, false⟩
/-- `hbm.ecc_uncorrectable` (0x7020+h:11), R385. -/
def hbm_ecc_uncorrectable : Ent := ⟨0x7020, 8, 0x11, 1, 1, .u64, 8, .rc, .counter, .v 0, false, .any, false⟩
/-- `hbm.read_bytes` (0x7020+h:12), R385. -/
def hbm_read_bytes : Ent := ⟨0x7020, 8, 0x12, 1, 1, .u64, 8, .rc, .counter, .v 0, false, .any, false⟩
/-- `hbm.write_bytes` (0x7020+h:13), R385. -/
def hbm_write_bytes : Ent := ⟨0x7020, 8, 0x13, 1, 1, .u64, 8, .rc, .counter, .v 0, false, .any, false⟩
/-- `pool.buffer_size` (0x7300:01), R413. -/
def pool_buffer_size : Ent := ⟨0x7300, 1, 0x01, 1, 1, .u32, 4, .rw, .config, .v 4096, false, .pow2 256 2097152, true⟩
/-- `pool.count` (0x7300:02), R413. -/
def pool_count : Ent := ⟨0x7300, 1, 0x02, 1, 1, .u32, 4, .rw, .config, .v 0, false, .range 1 16777216, true⟩
/-- `pool.buffer_base` (0x7300:03), R413. -/
def pool_buffer_base : Ent := ⟨0x7300, 1, 0x03, 1, 1, .u64, 8, .rw, .config, .v 0, false, .any, true⟩
/-- `pool.buffer_window` (0x7300:04), R413. -/
def pool_buffer_window : Ent := ⟨0x7300, 1, 0x04, 1, 1, .handle, 4, .rw, .config, .v 0, false, .any, true⟩
/-- `pool.ring_base` (0x7300:05), R413. -/
def pool_ring_base : Ent := ⟨0x7300, 1, 0x05, 1, 1, .u64, 8, .rw, .config, .v 0, false, .any, true⟩
/-- `pool.ring_window` (0x7300:06), R413. -/
def pool_ring_window : Ent := ⟨0x7300, 1, 0x06, 1, 1, .handle, 4, .rw, .config, .v 0, false, .any, true⟩
/-- `pool.low_water` (0x7300:07), R413. -/
def pool_low_water : Ent := ⟨0x7300, 1, 0x07, 1, 1, .u32, 4, .rw, .config, .v 0, false, .any, true⟩
/-- `pool.enable` (0x7300:08), R413. -/
def pool_enable : Ent := ⟨0x7300, 1, 0x08, 1, 1, .bool, 1, .wo, .config, .v 0, false, .range 0 1, true⟩
/-- `pool.alloc` (0x7300:09), R413. -/
def pool_alloc : Ent := ⟨0x7300, 1, 0x09, 1, 1, .u64, 8, .ro, .status, .v 0, false, .any, true⟩
/-- `pool.free` (0x7300:0A), R413. -/
def pool_free : Ent := ⟨0x7300, 1, 0x0A, 1, 1, .u64, 8, .wo, .config, .v 0, false, .any, true⟩
/-- `pool.share` (0x7300:0B), R413. -/
def pool_share : Ent := ⟨0x7300, 1, 0x0B, 1, 1, .u64, 8, .wo, .config, .v 0, false, .any, true⟩
/-- `pool.state` (0x7300:10), R413. -/
def pool_state : Ent := ⟨0x7300, 1, 0x10, 1, 1, .enum8, 1, .ro, .handle, .v 0, false, .any, true⟩
/-- `pool.free_count` (0x7300:11), R413. -/
def pool_free_count : Ent := ⟨0x7300, 1, 0x11, 1, 1, .u32, 4, .ro, .status, .v 0, false, .any, true⟩
/-- `pool.ring_count` (0x7300:12), R413. -/
def pool_ring_count : Ent := ⟨0x7300, 1, 0x12, 1, 1, .u32, 4, .ro, .status, .v 0, false, .any, true⟩
/-- `pool.head_cached` (0x7300:13), R413. -/
def pool_head_cached : Ent := ⟨0x7300, 1, 0x13, 1, 1, .u8, 1, .ro, .status, .v 0, false, .any, true⟩
/-- `pool.tail_cached` (0x7300:14), R413. -/
def pool_tail_cached : Ent := ⟨0x7300, 1, 0x14, 1, 1, .u8, 1, .ro, .status, .v 0, false, .any, true⟩
/-- `pool.users` (0x7300:15), R413. -/
def pool_users : Ent := ⟨0x7300, 1, 0x15, 1, 1, .u32, 4, .ro, .status, .v 0, false, .any, true⟩
/-- `pool.flags` (0x7300:16), R413. -/
def pool_flags : Ent := ⟨0x7300, 1, 0x16, 1, 1, .bits32, 4, .w1c, .sticky, .v 0, false, .range 0 15, true⟩
/-- `pool.allocs` (0x7300:20), R413. -/
def pool_allocs : Ent := ⟨0x7300, 1, 0x20, 1, 1, .u64, 8, .rc, .counter, .v 0, false, .any, true⟩
/-- `pool.frees` (0x7300:21), R413. -/
def pool_frees : Ent := ⟨0x7300, 1, 0x21, 1, 1, .u64, 8, .rc, .counter, .v 0, false, .any, true⟩
/-- `pool.empty` (0x7300:22), R413. -/
def pool_empty : Ent := ⟨0x7300, 1, 0x22, 1, 1, .u64, 8, .rc, .counter, .v 0, false, .any, true⟩
/-- `pool.double_frees` (0x7300:23), R413. -/
def pool_double_frees : Ent := ⟨0x7300, 1, 0x23, 1, 1, .u64, 8, .rc, .counter, .v 0, false, .any, true⟩
/-- `pool.bad_addresses` (0x7300:24), R413. -/
def pool_bad_addresses : Ent := ⟨0x7300, 1, 0x24, 1, 1, .u64, 8, .rc, .counter, .v 0, false, .any, true⟩
/-- `pool.low_free` (0x7300:25), R413. -/
def pool_low_free : Ent := ⟨0x7300, 1, 0x25, 1, 1, .u32, 4, .rc, .counter, .v 0, false, .any, true⟩
/-- `sequence.template` (0x7400:01), R414. -/
def sequence_template : Ent := ⟨0x7400, 1, 0x01, 1, 1, .u8, 1, .rw, .config, .v 0, false, .range 0 255, true⟩
/-- `sequence.prefix_source` (0x7400:02), R414. -/
def sequence_prefix_source : Ent := ⟨0x7400, 1, 0x02, 1, 1, .handle, 4, .rw, .config, .v 0, false, .any, true⟩
/-- `sequence.prefix_tokens` (0x7400:03), R414. -/
def sequence_prefix_tokens : Ent := ⟨0x7400, 1, 0x03, 1, 1, .u32, 4, .rw, .config, .v 0, false, .any, true⟩
/-- `sequence.activate` (0x7400:04), R414. -/
def sequence_activate : Ent := ⟨0x7400, 1, 0x04, 1, 1, .bool, 1, .wo, .config, .v 0, false, .range 0 1, true⟩
/-- `sequence.reserve` (0x7400:05), R414. -/
def sequence_reserve : Ent := ⟨0x7400, 1, 0x05, 1, 1, .u32, 4, .rw, .config, .v 0, false, .range 0 16777216, true⟩
/-- `sequence.length` (0x7400:06), R414. -/
def sequence_length : Ent := ⟨0x7400, 1, 0x06, 1, 1, .u32, 4, .rw, .config, .v 0, false, .any, true⟩
/-- `sequence.state` (0x7400:10), R414. -/
def sequence_state : Ent := ⟨0x7400, 1, 0x10, 1, 1, .enum8, 1, .ro, .handle, .v 0, false, .any, true⟩
/-- `sequence.capacity` (0x7400:11), R414. -/
def sequence_capacity : Ent := ⟨0x7400, 1, 0x11, 1, 1, .u32, 4, .ro, .status, .v 0, false, .any, true⟩
/-- `sequence.pages` (0x7400:12), R414. -/
def sequence_pages : Ent := ⟨0x7400, 1, 0x12, 1, 1, .u32, 4, .ro, .status, .v 0, false, .any, true⟩
/-- `sequence.root` (0x7400:13), R414. -/
def sequence_root : Ent := ⟨0x7400, 1, 0x13, 1, 1, .u64, 8, .ro, .status, .v 0, false, .any, true⟩
/-- `sequence.holders` (0x7400:14), R414. -/
def sequence_holders : Ent := ⟨0x7400, 1, 0x14, 1, 1, .u32, 4, .ro, .status, .v 0, false, .any, true⟩
/-- `sequence.jobs` (0x7400:20), R414. -/
def sequence_jobs : Ent := ⟨0x7400, 1, 0x20, 1, 1, .u64, 8, .rc, .counter, .v 0, false, .any, true⟩
/-- `sequence.pages_taken` (0x7400:21), R414. -/
def sequence_pages_taken : Ent := ⟨0x7400, 1, 0x21, 1, 1, .u64, 8, .rc, .counter, .v 0, false, .any, true⟩
/-- `seqtemplate.layers` (0x7600+t:01), R415. -/
def seqtemplate_layers : Ent := ⟨0x7600, 256, 0x01, 1, 1, .u16, 2, .rw, .config, .v 1, false, .range 1 256, false⟩
/-- `seqtemplate.kv_heads` (0x7600+t:02), R415. -/
def seqtemplate_kv_heads : Ent := ⟨0x7600, 256, 0x02, 1, 1, .u8, 1, .rw, .config, .v 1, false, .range 1 64, false⟩
/-- `seqtemplate.head_dim` (0x7600+t:03), R415. -/
def seqtemplate_head_dim : Ent := ⟨0x7600, 256, 0x03, 1, 1, .u16, 2, .rw, .config, .v 128, false, .mult 8 1024 8, false⟩
/-- `seqtemplate.kv_format` (0x7600+t:04), R415. -/
def seqtemplate_kv_format : Ent := ⟨0x7600, 256, 0x04, 1, 1, .format, 1, .rw, .config, .v 3, false, .range 0 9, false⟩
/-- `seqtemplate.page_pool` (0x7600+t:05–0C), R415. -/
def seqtemplate_page_pool : Ent := ⟨0x7600, 256, 0x05, 8, 1, .handle, 4, .rw, .config, .v 0, false, .any, false⟩
/-- `seqtemplate.table_pool` (0x7600+t:0D), R415. -/
def seqtemplate_table_pool : Ent := ⟨0x7600, 256, 0x0D, 1, 1, .handle, 4, .rw, .config, .v 0, false, .any, false⟩
/-- `seqtemplate.page_bytes` (0x7600+t:10), R415. -/
def seqtemplate_page_bytes : Ent := ⟨0x7600, 256, 0x10, 1, 1, .u32, 4, .ro, .status, .v 16384, false, .any, false⟩
/-- `seqtemplate.users` (0x7600+t:11), R415. -/
def seqtemplate_users : Ent := ⟨0x7600, 256, 0x11, 1, 1, .u32, 4, .ro, .status, .v 0, false, .any, false⟩
/-- `holdings.sequences` (0x7500:01), R416. -/
def holdings_sequences : Ent := ⟨0x7500, 1, 0x01, 1, 1, .u32, 4, .ro, .status, .v 0, false, .any, false⟩
/-- `holdings.pages` (0x7500:02), R416. -/
def holdings_pages : Ent := ⟨0x7500, 1, 0x02, 1, 1, .u32, 4, .ro, .status, .v 0, false, .any, false⟩
/-- `holdings.tokens` (0x7500:03), R416. -/
def holdings_tokens : Ent := ⟨0x7500, 1, 0x03, 1, 1, .u64, 8, .ro, .status, .v 0, false, .any, false⟩
/-- `holdings.copies` (0x7500:10), R416. -/
def holdings_copies : Ent := ⟨0x7500, 1, 0x10, 1, 1, .u64, 8, .rc, .counter, .v 0, false, .any, false⟩
/-- `holdings.failed` (0x7500:11), R416. -/
def holdings_failed : Ent := ⟨0x7500, 1, 0x11, 1, 1, .u64, 8, .rc, .counter, .v 0, false, .any, false⟩
/-- `weir.clock_mode` (0x8100:01), R442. -/
def weir_clock_mode : Ent := ⟨0x8100, 1, 0x01, 1, 1, .enum8, 1, .rw, .config, .v 0, false, .range 0 1, false⟩
/-- `weir.clock_locked` (0x8100:02), R442. -/
def weir_clock_locked : Ent := ⟨0x8100, 1, 0x02, 1, 1, .bool, 1, .ro, .status, .v 0, false, .range 0 1, false⟩
/-- `weir.slots` (0x8100:03), R442. -/
def weir_slots : Ent := ⟨0x8100, 1, 0x03, 1, 1, .u16, 2, .rw, .config, .v 1024, false, .mult 128 16384 128, false⟩
/-- `weir.engines` (0x8100:04), R442. -/
def weir_engines : Ent := ⟨0x8100, 1, 0x04, 1, 1, .bits32, 4, .rw, .config, .v 0, false, .range 0 255, false⟩
/-- `weir.mills` (0x8100:05), R442. -/
def weir_mills : Ent := ⟨0x8100, 1, 0x05, 1, 1, .u16, 2, .rw, .config, .v 0, false, .range 0 256, false⟩
/-- `weir.t1_share` (0x8100:06), R442. -/
def weir_t1_share : Ent := ⟨0x8100, 1, 0x06, 1, 1, .u8, 1, .rw, .config, .v 16, false, .range 0 48, false⟩
/-- `weir.hold_limit` (0x8100:07), R442. -/
def weir_hold_limit : Ent := ⟨0x8100, 1, 0x07, 1, 1, .u16, 2, .rw, .config, .v 4, false, .range 1 1024, false⟩
/-- `weir.start` (0x8100:08), R442. -/
def weir_start : Ent := ⟨0x8100, 1, 0x08, 1, 1, .ft, 8, .wo, .config, .v 0, false, .any, false⟩
/-- `weir.start_on_launch` (0x8100:09), R442. -/
def weir_start_on_launch : Ent := ⟨0x8100, 1, 0x09, 1, 1, .bool, 1, .wo, .config, .v 0, false, .range 0 1, false⟩
/-- `weir.stop` (0x8100:0A), R442. -/
def weir_stop : Ent := ⟨0x8100, 1, 0x0A, 1, 1, .bool, 1, .wo, .config, .v 0, false, .range 0 1, false⟩
/-- `weir.state` (0x8100:10), R442. -/
def weir_state : Ent := ⟨0x8100, 1, 0x10, 1, 1, .enum8, 1, .ro, .status, .v 0, false, .any, false⟩
/-- `weir.anchor` (0x8100:11), R442. -/
def weir_anchor : Ent := ⟨0x8100, 1, 0x11, 1, 1, .ft, 8, .ro, .status, .v 0, false, .any, false⟩
/-- `weir.cycle` (0x8100:12), R442. -/
def weir_cycle : Ent := ⟨0x8100, 1, 0x12, 1, 1, .u64, 8, .ro, .status, .v 0, false, .any, false⟩
/-- `weir.ft_offset` (0x8100:13), R442. -/
def weir_ft_offset : Ent := ⟨0x8100, 1, 0x13, 1, 1, .i32, 4, .ro, .status, .v 0, false, .any, false⟩
/-- `weir.flags` (0x8100:14), R442. -/
def weir_flags : Ent := ⟨0x8100, 1, 0x14, 1, 1, .bits32, 4, .w1c, .sticky, .v 0, false, .range 0 7, false⟩
/-- `weir.held` (0x8100:20), R442. -/
def weir_held : Ent := ⟨0x8100, 1, 0x20, 1, 1, .u64, 8, .rc, .counter, .v 0, false, .any, false⟩
/-- `weir.no_slot` (0x8100:21), R442. -/
def weir_no_slot : Ent := ⟨0x8100, 1, 0x21, 1, 1, .u64, 8, .rc, .counter, .v 0, false, .any, false⟩
/-- `weir.hold_drops` (0x8100:22), R442. -/
def weir_hold_drops : Ent := ⟨0x8100, 1, 0x22, 1, 1, .u64, 8, .rc, .counter, .v 0, false, .any, false⟩
/-- `weir.buffer_drops` (0x8100:23), R442. -/
def weir_buffer_drops : Ent := ⟨0x8100, 1, 0x23, 1, 1, .u64, 8, .rc, .counter, .v 0, false, .any, false⟩
/-- `weir.idle_slots` (0x8100:24), R442. -/
def weir_idle_slots : Ent := ⟨0x8100, 1, 0x24, 1, 1, .u64, 8, .rc, .counter, .v 0, false, .any, false⟩
/-- `weir.t1_slips` (0x8100:25), R442. -/
def weir_t1_slips : Ent := ⟨0x8100, 1, 0x25, 1, 1, .u64, 8, .rc, .counter, .v 0, false, .any, false⟩
/-- `weir.realigns` (0x8100:26), R442. -/
def weir_realigns : Ent := ⟨0x8100, 1, 0x26, 1, 1, .u64, 8, .rc, .counter, .v 0, false, .any, false⟩
/-- `weir.partitions` (0x8110:01), R442. -/
def weir_partitions : Ent := ⟨0x8110, 1, 0x01, 1, 1, .domain, 512, .rw, .config, .v 0, false, .any, false⟩
/-- `weir.schedule` (0x8120:01), R442. -/
def weir_schedule : Ent := ⟨0x8120, 1, 0x01, 1, 1, .domain, 1572864, .rw, .config, .v 255, false, .any, false⟩
/-- `lockstep.peer_port` (0x8200:01), R443. -/
def lockstep_peer_port : Ent := ⟨0x8200, 1, 0x01, 1, 1, .u8, 1, .rw, .config, .v 255, false, .orElse 255 0 7 1, false⟩
/-- `lockstep.window_cycles` (0x8200:02), R443. -/
def lockstep_window_cycles : Ent := ⟨0x8200, 1, 0x02, 1, 1, .u16, 2, .rw, .config, .v 16, false, .range 1 65535, false⟩
/-- `lockstep.start` (0x8200:03), R443. -/
def lockstep_start : Ent := ⟨0x8200, 1, 0x03, 1, 1, .ft, 8, .wo, .config, .v 0, false, .any, false⟩
/-- `lockstep.start_on_launch` (0x8200:04), R443. -/
def lockstep_start_on_launch : Ent := ⟨0x8200, 1, 0x04, 1, 1, .bool, 1, .wo, .config, .v 0, false, .range 0 1, false⟩
/-- `lockstep.stop` (0x8200:05), R443. -/
def lockstep_stop : Ent := ⟨0x8200, 1, 0x05, 1, 1, .bool, 1, .wo, .config, .v 0, false, .range 0 1, false⟩
/-- `lockstep.stop_on_divergence` (0x8200:06), R443. -/
def lockstep_stop_on_divergence : Ent := ⟨0x8200, 1, 0x06, 1, 1, .bool, 1, .rw, .config, .v 0, false, .range 0 1, false⟩
/-- `lockstep.state` (0x8200:10), R443. -/
def lockstep_state : Ent := ⟨0x8200, 1, 0x10, 1, 1, .enum8, 1, .ro, .status, .v 0, false, .any, false⟩
/-- `lockstep.window` (0x8200:11), R443. -/
def lockstep_window : Ent := ⟨0x8200, 1, 0x11, 1, 1, .u64, 8, .ro, .status, .v 0, false, .any, false⟩
/-- `lockstep.first` (0x8200:12), R443. -/
def lockstep_first : Ent := ⟨0x8200, 1, 0x12, 1, 1, .octets, 32, .ro, .status, .v 0, false, .any, false⟩
/-- `lockstep.flags` (0x8200:13), R443. -/
def lockstep_flags : Ent := ⟨0x8200, 1, 0x13, 1, 1, .bits32, 4, .w1c, .sticky, .v 0, false, .range 0 3, false⟩
/-- `lockstep.windows` (0x8200:20), R443. -/
def lockstep_windows : Ent := ⟨0x8200, 1, 0x20, 1, 1, .u64, 8, .rc, .counter, .v 0, false, .any, false⟩
/-- `lockstep.divergent` (0x8200:21), R443. -/
def lockstep_divergent : Ent := ⟨0x8200, 1, 0x21, 1, 1, .u64, 8, .rc, .counter, .v 0, false, .any, false⟩
/-- `lockstep.missing` (0x8200:22), R443. -/
def lockstep_missing : Ent := ⟨0x8200, 1, 0x22, 1, 1, .u64, 8, .rc, .counter, .v 0, false, .any, false⟩
/-- `lockstep.foreign_frames` (0x8200:23), R443. -/
def lockstep_foreign_frames : Ent := ⟨0x8200, 1, 0x23, 1, 1, .u64, 8, .rc, .counter, .v 0, false, .any, false⟩
/-- `lockstep.ports` (0x8210:01), R443. -/
def lockstep_ports : Ent := ⟨0x8210, 1, 0x01, 1, 1, .domain, 128, .rw, .config, .v 0, false, .any, false⟩
/-- `snap.at` (0xC000:01), R461. -/
def snap_at : Ent := ⟨0xC000, 1, 0x01, 1, 1, .ft, 8, .wo, .config, .v 0, false, .any, false⟩
/-- `snap.clear` (0xC000:02), R461. -/
def snap_clear : Ent := ⟨0xC000, 1, 0x02, 1, 1, .bool, 1, .rw, .config, .v 0, false, .range 0 1, false⟩
/-- `snap.view` (0xC000:03), R461. -/
def snap_view : Ent := ⟨0xC000, 1, 0x03, 1, 1, .bool, 1, .rw, .config, .v 0, false, .range 0 1, false⟩
/-- `snap.seq` (0xC000:04), R461. -/
def snap_seq : Ent := ⟨0xC000, 1, 0x04, 1, 1, .u32, 4, .ro, .status, .v 0, false, .any, false⟩
/-- `snap.ft` (0xC000:05), R461. -/
def snap_ft : Ent := ⟨0xC000, 1, 0x05, 1, 1, .ft, 8, .ro, .status, .v 0, false, .any, false⟩
/-- `snap.pending` (0xC000:06), R461. -/
def snap_pending : Ent := ⟨0xC000, 1, 0x06, 1, 1, .u8, 1, .ro, .status, .v 0, false, .any, false⟩
/-- `archive.budget` (0xC010:01), R461. -/
def archive_budget : Ent := ⟨0xC010, 1, 0x01, 1, 1, .u16, 2, .rw, .config, .v 30, false, .range 1 30, false⟩
/-- `archive.sessions_open` (0xC010:02), R461. -/
def archive_sessions_open : Ent := ⟨0xC010, 1, 0x02, 1, 1, .u8, 1, .ro, .status, .v 0, false, .any, false⟩
/-- `archive.cells` (0xC010:10), R461. -/
def archive_cells : Ent := ⟨0xC010, 1, 0x10, 1, 1, .u64, 8, .rc, .counter, .v 0, false, .any, false⟩
/-- `archive.budget_drops` (0xC010:11), R461. -/
def archive_budget_drops : Ent := ⟨0xC010, 1, 0x11, 1, 1, .u64, 8, .rc, .counter, .v 0, false, .any, false⟩
/-- `opcount.mill` (0xC100+k:01–0A), R461. -/
def opcount_mill : Ent := ⟨0xC100, 6, 0x01, 10, 1, .u64, 8, .rc, .counter, .v 0, false, .any, false⟩
/-- `opcount.confluence` (0xC108+y:01–0A), R461. -/
def opcount_confluence : Ent := ⟨0xC108, 8, 0x01, 10, 1, .u64, 8, .rc, .counter, .v 0, false, .any, false⟩
/-- `attr.table` (0xC200:01), R461. -/
def attr_table : Ent := ⟨0xC200, 1, 0x01, 1, 1, .domain, 262144, .ro, .status, .v 0, false, .any, false⟩
/-- `attr.used` (0xC200:02), R461. -/
def attr_used : Ent := ⟨0xC200, 1, 0x02, 1, 1, .u16, 2, .ro, .status, .v 1, false, .any, false⟩
/-- `attr.reset` (0xC200:03), R461. -/
def attr_reset : Ent := ⟨0xC200, 1, 0x03, 1, 1, .bool, 1, .wo, .config, .v 0, false, .range 0 1, false⟩
/-- `trace.pool` (0xC800:01), R462. -/
def trace_pool : Ent := ⟨0xC800, 1, 0x01, 1, 1, .handle, 4, .rw, .config, .v 0, false, .any, true⟩
/-- `trace.kinds` (0xC800:02), R462. -/
def trace_kinds : Ent := ⟨0xC800, 1, 0x02, 1, 1, .bits32, 4, .rw, .config, .v 768, false, .range 0 1023, true⟩
/-- `trace.partition` (0xC800:03), R462. -/
def trace_partition : Ent := ⟨0xC800, 1, 0x03, 1, 1, .u16, 2, .rw, .config, .v 65535, false, .any, true⟩
/-- `trace.layer` (0xC800:04), R462. -/
def trace_layer : Ent := ⟨0xC800, 1, 0x04, 1, 1, .u16, 2, .rw, .config, .v 65535, false, .any, true⟩
/-- `trace.operator` (0xC800:05), R462. -/
def trace_operator : Ent := ⟨0xC800, 1, 0x05, 1, 1, .u16, 2, .rw, .config, .v 65535, false, .any, true⟩
/-- `trace.ports` (0xC800:06), R462. -/
def trace_ports : Ent := ⟨0xC800, 1, 0x06, 1, 1, .domain, 128, .rw, .config, .v 0, false, .any, true⟩
/-- `trace.packet_n` (0xC800:07), R462. -/
def trace_packet_n : Ent := ⟨0xC800, 1, 0x07, 1, 1, .u32, 4, .rw, .config, .v 1024, false, .range 1 16777216, true⟩
/-- `trace.full_action` (0xC800:08), R462. -/
def trace_full_action : Ent := ⟨0xC800, 1, 0x08, 1, 1, .enum8, 1, .rw, .config, .v 0, false, .range 0 1, true⟩
/-- `trace.dest` (0xC800:09), R462. -/
def trace_dest : Ent := ⟨0xC800, 1, 0x09, 1, 1, .enum8, 1, .rw, .config, .v 0, false, .range 0 1, true⟩
/-- `trace.open_at` (0xC800:0A), R462. -/
def trace_open_at : Ent := ⟨0xC800, 1, 0x0A, 1, 1, .ft, 8, .wo, .config, .v 0, false, .any, true⟩
/-- `trace.close_at` (0xC800:0B), R462. -/
def trace_close_at : Ent := ⟨0xC800, 1, 0x0B, 1, 1, .ft, 8, .wo, .config, .v 0, false, .any, true⟩
/-- `trace.state` (0xC800:10), R462. -/
def trace_state : Ent := ⟨0xC800, 1, 0x10, 1, 1, .enum8, 1, .ro, .handle, .v 0, false, .any, true⟩
/-- `trace.next` (0xC800:11), R462. -/
def trace_next : Ent := ⟨0xC800, 1, 0x11, 1, 1, .u64, 8, .ro, .status, .v 0, false, .any, true⟩
/-- `trace.queued` (0xC800:12), R462. -/
def trace_queued : Ent := ⟨0xC800, 1, 0x12, 1, 1, .u16, 2, .ro, .status, .v 0, false, .any, true⟩
/-- `trace.records` (0xC800:20), R462. -/
def trace_records : Ent := ⟨0xC800, 1, 0x20, 1, 1, .u64, 8, .rc, .counter, .v 0, false, .any, true⟩
/-- `trace.bytes` (0xC800:21), R462. -/
def trace_bytes : Ent := ⟨0xC800, 1, 0x21, 1, 1, .u64, 8, .rc, .counter, .v 0, false, .any, true⟩
/-- `trace.buffers` (0xC800:22), R462. -/
def trace_buffers : Ent := ⟨0xC800, 1, 0x22, 1, 1, .u64, 8, .rc, .counter, .v 0, false, .any, true⟩
/-- `trace.lost` (0xC800:23), R462. -/
def trace_lost : Ent := ⟨0xC800, 1, 0x23, 1, 1, .u64, 8, .rc, .counter, .v 0, false, .any, true⟩
/-- `spring.header` (0xD100:01), R473. -/
def spring_header : Ent := ⟨0xD100, 1, 0x01, 1, 1, .octets, 48, .rw, .config, .v 0, false, .any, true⟩
/-- `spring.length` (0xD100:02), R473. -/
def spring_length : Ent := ⟨0xD100, 1, 0x02, 1, 1, .u16, 2, .rw, .config, .v 1024, false, .range 0 4096, true⟩
/-- `spring.payload` (0xD100:03), R473. -/
def spring_payload : Ent := ⟨0xD100, 1, 0x03, 1, 1, .enum8, 1, .rw, .config, .v 0, false, .range 0 4, true⟩
/-- `spring.word` (0xD100:04), R473. -/
def spring_word : Ent := ⟨0xD100, 1, 0x04, 1, 1, .u32, 4, .rw, .config, .v 0, false, .any, true⟩
/-- `spring.pool` (0xD100:05), R473. -/
def spring_pool : Ent := ⟨0xD100, 1, 0x05, 1, 1, .handle, 4, .rw, .config, .v 0, false, .any, true⟩
/-- `spring.payload_addr` (0xD100:06), R473. -/
def spring_payload_addr : Ent := ⟨0xD100, 1, 0x06, 1, 1, .u64, 8, .rw, .config, .v 0, false, .any, true⟩
/-- `spring.payload_slots` (0xD100:07), R473. -/
def spring_payload_slots : Ent := ⟨0xD100, 1, 0x07, 1, 1, .u16, 2, .rw, .config, .v 1, false, .range 1 65535, true⟩
/-- `spring.stamp` (0xD100:08), R473. -/
def spring_stamp : Ent := ⟨0xD100, 1, 0x08, 1, 1, .bool, 1, .rw, .config, .v 1, false, .range 0 1, true⟩
/-- `spring.burst` (0xD100:09), R473. -/
def spring_burst : Ent := ⟨0xD100, 1, 0x09, 1, 1, .u16, 2, .rw, .config, .v 1, false, .range 1 65535, true⟩
/-- `spring.spacing` (0xD100:0A), R473. -/
def spring_spacing : Ent := ⟨0xD100, 1, 0x0A, 1, 1, .u32, 4, .rw, .config, .v 0, false, .any, true⟩
/-- `spring.period` (0xD100:0B), R473. -/
def spring_period : Ent := ⟨0xD100, 1, 0x0B, 1, 1, .u32, 4, .rw, .config, .v 1000000, false, .range 64 4000000000, true⟩
/-- `spring.count` (0xD100:0C), R473. -/
def spring_count : Ent := ⟨0xD100, 1, 0x0C, 1, 1, .u64, 8, .rw, .config, .v 0, false, .any, true⟩
/-- `spring.corrupt` (0xD100:0D), R473. -/
def spring_corrupt : Ent := ⟨0xD100, 1, 0x0D, 1, 1, .enum8, 1, .rw, .config, .v 0, false, .range 0 3, true⟩
/-- `spring.return_bundle` (0xD100:0E), R473. -/
def spring_return_bundle : Ent := ⟨0xD100, 1, 0x0E, 1, 1, .u16, 2, .rw, .config, .v 0, false, .range 0 1023, true⟩
/-- `spring.start` (0xD100:0F), R473. -/
def spring_start : Ent := ⟨0xD100, 1, 0x0F, 1, 1, .ft, 8, .wo, .config, .v 0, false, .any, true⟩
/-- `spring.start_on_launch` (0xD100:10), R473. -/
def spring_start_on_launch : Ent := ⟨0xD100, 1, 0x10, 1, 1, .bool, 1, .wo, .config, .v 0, false, .range 0 1, true⟩
/-- `spring.stop` (0xD100:11), R473. -/
def spring_stop : Ent := ⟨0xD100, 1, 0x11, 1, 1, .bool, 1, .wo, .config, .v 0, false, .range 0 1, true⟩
/-- `spring.state` (0xD100:20), R473. -/
def spring_state : Ent := ⟨0xD100, 1, 0x20, 1, 1, .enum8, 1, .ro, .handle, .v 0, false, .any, true⟩
/-- `spring.next_seq` (0xD100:21), R473. -/
def spring_next_seq : Ent := ⟨0xD100, 1, 0x21, 1, 1, .u32, 4, .ro, .status, .v 0, false, .any, true⟩
/-- `spring.stop_status` (0xD100:22), R473. -/
def spring_stop_status : Ent := ⟨0xD100, 1, 0x22, 1, 1, .status, 1, .ro, .status, .v 0, false, .any, true⟩
/-- `spring.sent` (0xD100:30), R473. -/
def spring_sent : Ent := ⟨0xD100, 1, 0x30, 1, 1, .u64, 8, .rc, .counter, .v 0, false, .any, true⟩
/-- `spring.bytes` (0xD100:31), R473. -/
def spring_bytes : Ent := ⟨0xD100, 1, 0x31, 1, 1, .u64, 8, .rc, .counter, .v 0, false, .any, true⟩
/-- `spring.late` (0xD100:32), R473. -/
def spring_late : Ent := ⟨0xD100, 1, 0x32, 1, 1, .u64, 8, .rc, .counter, .v 0, false, .any, true⟩
/-- `spring.held` (0xD100:33), R473. -/
def spring_held : Ent := ⟨0xD100, 1, 0x33, 1, 1, .u64, 8, .rc, .counter, .v 0, false, .any, true⟩
/-- `gauge.tap` (0xD400:01), R474. -/
def gauge_tap : Ent := ⟨0xD400, 1, 0x01, 1, 1, .enum8, 1, .rw, .config, .v 0, false, .range 0 2, true⟩
/-- `gauge.port` (0xD400:02), R474. -/
def gauge_port : Ent := ⟨0xD400, 1, 0x02, 1, 1, .u16, 2, .rw, .config, .v 65535, false, .any, true⟩
/-- `gauge.partition` (0xD400:03), R474. -/
def gauge_partition : Ent := ⟨0xD400, 1, 0x03, 1, 1, .u16, 2, .rw, .config, .v 65535, false, .any, true⟩
/-- `gauge.kinds` (0xD400:04), R474. -/
def gauge_kinds : Ent := ⟨0xD400, 1, 0x04, 1, 1, .bits32, 4, .rw, .config, .v 1, false, .range 0 1023, true⟩
/-- `gauge.stream` (0xD400:05), R474. -/
def gauge_stream : Ent := ⟨0xD400, 1, 0x05, 1, 1, .handle, 4, .rw, .config, .v 0, false, .any, true⟩
/-- `gauge.tests` (0xD400:06), R474. -/
def gauge_tests : Ent := ⟨0xD400, 1, 0x06, 1, 1, .bits32, 4, .rw, .config, .v 0, false, .range 0 15, true⟩
/-- `gauge.pattern` (0xD400:07), R474. -/
def gauge_pattern : Ent := ⟨0xD400, 1, 0x07, 1, 1, .enum8, 1, .rw, .config, .v 0, false, .range 0 3, true⟩
/-- `gauge.word` (0xD400:08), R474. -/
def gauge_word : Ent := ⟨0xD400, 1, 0x08, 1, 1, .u32, 4, .rw, .config, .v 0, false, .any, true⟩
/-- `gauge.bin_ns` (0xD400:09), R474. -/
def gauge_bin_ns : Ent := ⟨0xD400, 1, 0x09, 1, 1, .u32, 4, .rw, .config, .v 10, false, .range 1 1000000, true⟩
/-- `gauge.enable` (0xD400:0A), R474. -/
def gauge_enable : Ent := ⟨0xD400, 1, 0x0A, 1, 1, .bool, 1, .wo, .config, .v 0, false, .range 0 1, true⟩
/-- `gauge.state` (0xD400:10), R474. -/
def gauge_state : Ent := ⟨0xD400, 1, 0x10, 1, 1, .enum8, 1, .ro, .handle, .v 0, false, .any, true⟩
/-- `gauge.expected` (0xD400:11), R474. -/
def gauge_expected : Ent := ⟨0xD400, 1, 0x11, 1, 1, .u32, 4, .ro, .status, .v 0, false, .any, true⟩
/-- `gauge.missing` (0xD400:12), R474. -/
def gauge_missing : Ent := ⟨0xD400, 1, 0x12, 1, 1, .u64, 8, .ro, .status, .v 0, false, .any, true⟩
/-- `gauge.latency_min` (0xD400:13), R474. -/
def gauge_latency_min : Ent := ⟨0xD400, 1, 0x13, 1, 1, .u32, 4, .ro, .status, .v 4294967295, false, .any, true⟩
/-- `gauge.latency_max` (0xD400:14), R474. -/
def gauge_latency_max : Ent := ⟨0xD400, 1, 0x14, 1, 1, .u32, 4, .ro, .status, .v 0, false, .any, true⟩
/-- `gauge.latency_sum` (0xD400:15), R474. -/
def gauge_latency_sum : Ent := ⟨0xD400, 1, 0x15, 1, 1, .u64, 8, .ro, .status, .v 0, false, .any, true⟩
/-- `gauge.histogram` (0xD400:16), R474. -/
def gauge_histogram : Ent := ⟨0xD400, 1, 0x16, 1, 1, .domain, 512, .ro, .status, .v 0, false, .any, true⟩
/-- `gauge.first` (0xD400:17), R474. -/
def gauge_first : Ent := ⟨0xD400, 1, 0x17, 1, 1, .octets, 64, .ro, .status, .v 0, false, .any, true⟩
/-- `gauge.flags` (0xD400:18), R474. -/
def gauge_flags : Ent := ⟨0xD400, 1, 0x18, 1, 1, .bits32, 4, .w1c, .sticky, .v 0, false, .range 0 3, true⟩
/-- `gauge.received` (0xD400:20), R474. -/
def gauge_received : Ent := ⟨0xD400, 1, 0x20, 1, 1, .u64, 8, .rc, .counter, .v 0, false, .any, true⟩
/-- `gauge.out_of_order` (0xD400:21), R474. -/
def gauge_out_of_order : Ent := ⟨0xD400, 1, 0x21, 1, 1, .u64, 8, .rc, .counter, .v 0, false, .any, true⟩
/-- `gauge.duplicates` (0xD400:22), R474. -/
def gauge_duplicates : Ent := ⟨0xD400, 1, 0x22, 1, 1, .u64, 8, .rc, .counter, .v 0, false, .any, true⟩
/-- `gauge.stale` (0xD400:23), R474. -/
def gauge_stale : Ent := ⟨0xD400, 1, 0x23, 1, 1, .u64, 8, .rc, .counter, .v 0, false, .any, true⟩
/-- `gauge.payload_errors` (0xD400:24), R474. -/
def gauge_payload_errors : Ent := ⟨0xD400, 1, 0x24, 1, 1, .u64, 8, .rc, .counter, .v 0, false, .any, true⟩
/-- `gauge.bit_errors` (0xD400:25), R474. -/
def gauge_bit_errors : Ent := ⟨0xD400, 1, 0x25, 1, 1, .u64, 8, .rc, .counter, .v 0, false, .any, true⟩
/-- `gauge.negative` (0xD400:26), R474. -/
def gauge_negative : Ent := ⟨0xD400, 1, 0x26, 1, 1, .u64, 8, .rc, .counter, .v 0, false, .any, true⟩
/-- `gauge.copy_lost` (0xD400:27), R474. -/
def gauge_copy_lost : Ent := ⟨0xD400, 1, 0x27, 1, 1, .u64, 8, .rc, .counter, .v 0, false, .any, true⟩
/-- `gauge.rule` (0xD400:30–3B), R474. -/
def gauge_rule : Ent := ⟨0xD400, 1, 0x30, 12, 1, .u64, 8, .rc, .counter, .v 0, false, .any, true⟩
/-- `lc.state` (0x1010:01), R498. DESIGN CHOICE (log 14). -/
def lc_state : Ent := ⟨0x1010, 1, 0x01, 1, 1, .enum8, 1, .ro, .status, .v 2, true, .any, false⟩
/-- `lc.advance` (0x1010:02), R498. -/
def lc_advance : Ent := ⟨0x1010, 1, 0x02, 1, 1, .enum8, 1, .wo, .config, .v 0, false, .range 0 4, false⟩
/-- `lc.pending` (0x1010:03), R498. -/
def lc_pending : Ent := ⟨0x1010, 1, 0x03, 1, 1, .enum8, 1, .ro, .status, .v 255, false, .any, false⟩
/-- `lc.confirm` (0x1010:04), R498. -/
def lc_confirm : Ent := ⟨0x1010, 1, 0x04, 1, 1, .u32, 4, .rw, .config, .v 0, false, .any, false⟩
/-- `fw.image` (0xE100:01), R498. -/
def fw_image : Ent := ⟨0xE100, 1, 0x01, 1, 1, .domain, 33554432, .wo, .config, .v 0, false, .any, false⟩
/-- `fw.verify` (0xE100:02), R498. -/
def fw_verify : Ent := ⟨0xE100, 1, 0x02, 1, 1, .bool, 1, .wo, .config, .v 0, false, .range 0 1, false⟩
/-- `fw.verify_status` (0xE100:03), R498. -/
def fw_verify_status : Ent := ⟨0xE100, 1, 0x03, 1, 1, .status, 1, .ro, .status, .v 12, false, .any, false⟩
/-- `fw.activate` (0xE100:04), R498. -/
def fw_activate : Ent := ⟨0xE100, 1, 0x04, 1, 1, .ft, 8, .wo, .config, .v 0, false, .any, false⟩
/-- `fw.activate_mode` (0xE100:05), R498. -/
def fw_activate_mode : Ent := ⟨0xE100, 1, 0x05, 1, 1, .enum8, 1, .rw, .config, .v 0, false, .range 0 1, false⟩
/-- `fw.commit` (0xE100:06), R498. -/
def fw_commit : Ent := ⟨0xE100, 1, 0x06, 1, 1, .bool, 1, .wo, .config, .v 0, false, .range 0 1, false⟩
/-- `fw.running` (0xE100:07), R498. -/
def fw_running : Ent := ⟨0xE100, 1, 0x07, 1, 1, .octets, 16, .ro, .status, .v 0, true, .any, false⟩
/-- `fw.min_security` (0xE100:08), R498. -/
def fw_min_security : Ent := ⟨0xE100, 1, 0x08, 1, 1, .u32, 4, .ro, .status, .v 0, true, .any, false⟩
/-- `fw.flags` (0xE100:09), R498. -/
def fw_flags : Ent := ⟨0xE100, 1, 0x09, 1, 1, .bits32, 4, .w1c, .sticky, .v 0, true, .range 0 1, false⟩
/-- `curator.restarts` (0xE110:01), R498. -/
def curator_restarts : Ent := ⟨0xE110, 1, 0x01, 1, 1, .u64, 8, .rc, .counter, .v 0, true, .any, false⟩
/-- `mctp.bus` (0x1300:01), R499. -/
def mctp_bus : Ent := ⟨0x1300, 1, 0x01, 1, 1, .enum8, 1, .rw, .config, .v 0, true, .range 0 1, false⟩
/-- `mctp.smbus_addr` (0x1300:02), R499. -/
def mctp_smbus_addr : Ent := ⟨0x1300, 1, 0x02, 1, 1, .u8, 1, .rw, .config, .v 78, true, .range 0 127, false⟩
/-- `mctp.smbus_speed` (0x1300:03), R499. -/
def mctp_smbus_speed : Ent := ⟨0x1300, 1, 0x03, 1, 1, .enum8, 1, .rw, .config, .v 0, true, .range 0 2, false⟩
/-- `mctp.eid` (0x1300:04), R499. -/
def mctp_eid : Ent := ⟨0x1300, 1, 0x04, 1, 1, .u8, 1, .ro, .status, .v 0, false, .any, false⟩
/-- `mctp.restart` (0x1300:05), R499. -/
def mctp_restart : Ent := ⟨0x1300, 1, 0x05, 1, 1, .bool, 1, .wo, .config, .v 0, false, .range 0 1, false⟩
/-- `mctp.flags` (0x1300:06), R499. -/
def mctp_flags : Ent := ⟨0x1300, 1, 0x06, 1, 1, .bits32, 4, .w1c, .sticky, .v 0, false, .range 0 1, false⟩
/-- `mctp.recoveries` (0x1300:10), R499. -/
def mctp_recoveries : Ent := ⟨0x1300, 1, 0x10, 1, 1, .u64, 8, .rc, .counter, .v 0, false, .any, false⟩
/-- `comm.mgmt_mode` (0x1310:02), R499. -/
def comm_mgmt_mode : Ent := ⟨0x1310, 1, 0x02, 1, 1, .enum8, 1, .rw, .config, .v 0, true, .range 0 1, false⟩
/-- `comm.ipv4` (0x1310:03), R499. -/
def comm_ipv4 : Ent := ⟨0x1310, 1, 0x03, 1, 1, .octets, 12, .rw, .config, .v 0, true, .any, false⟩
/-- `comm.ipv6` (0x1310:04), R499. -/
def comm_ipv6 : Ent := ⟨0x1310, 1, 0x04, 1, 1, .octets, 36, .rw, .config, .v 0, true, .any, false⟩
/-- `comm.mac` (0x1310:05), R499. -/
def comm_mac : Ent := ⟨0x1310, 1, 0x05, 1, 1, .octets, 6, .ro, .status, .commMac, false, .any, false⟩
/-- `comm.dropped` (0x1310:10), R499. -/
def comm_dropped : Ent := ⟨0x1310, 1, 0x10, 1, 1, .u64, 8, .rc, .counter, .v 0, false, .any, false⟩
/-- `comm.udp_replays` (0x1310:11), R499. -/
def comm_udp_replays : Ent := ⟨0x1310, 1, 0x11, 1, 1, .u64, 8, .rc, .counter, .v 0, false, .any, false⟩
/-- `hring.base` (0x1320+r:01), R499. -/
def hring_base : Ent := ⟨0x1320, 4, 0x01, 1, 1, .u64, 8, .rw, .config, .v 0, false, .mult 0 18446744073709551615 4096, false⟩
/-- `hring.size` (0x1320+r:02), R499. -/
def hring_size : Ent := ⟨0x1320, 4, 0x02, 1, 1, .u32, 4, .rw, .config, .v 256, false, .pow2 64 65536, false⟩
/-- `hring.pool` (0x1320+r:03), R499. -/
def hring_pool : Ent := ⟨0x1320, 4, 0x03, 1, 1, .handle, 4, .rw, .config, .v 0, false, .any, false⟩
/-- `hring.enable` (0x1320+r:04), R499. -/
def hring_enable : Ent := ⟨0x1320, 4, 0x04, 1, 1, .bool, 1, .rw, .config, .v 0, false, .range 0 1, false⟩
/-- `hring.irq_holdoff` (0x1320+r:05), R499. -/
def hring_irq_holdoff : Ent := ⟨0x1320, 4, 0x05, 1, 1, .u32, 4, .rw, .config, .v 0, false, .range 0 1000000, false⟩
/-- `hring.records` (0x1320+r:10), R499. -/
def hring_records : Ent := ⟨0x1320, 4, 0x10, 1, 1, .u64, 8, .rc, .counter, .v 0, false, .any, false⟩
/-- `hring.no_buffer` (0x1320+r:11), R499. -/
def hring_no_buffer : Ent := ⟨0x1320, 4, 0x11, 1, 1, .u64, 8, .rc, .counter, .v 0, false, .any, false⟩
/-- `hring.truncated` (0x1320+r:12), R499. -/
def hring_truncated : Ent := ⟨0x1320, 4, 0x12, 1, 1, .u64, 8, .rc, .counter, .v 0, false, .any, false⟩
/-- `hring.dropped_bytes` (0x1320+r:13), R499. -/
def hring_dropped_bytes : Ent := ⟨0x1320, 4, 0x13, 1, 1, .u64, 8, .rc, .counter, .v 0, false, .any, false⟩
/-- `hring.no_stage` (0x1320+r:14), R499. -/
def hring_no_stage : Ent := ⟨0x1320, 4, 0x14, 1, 1, .u64, 8, .rc, .counter, .v 0, false, .any, false⟩
/-- `host.aperture_base` (0x1330:01), R499. -/
def host_aperture_base : Ent := ⟨0x1330, 1, 0x01, 1, 1, .u64, 8, .rw, .config, .v 0, false, .mult 0 18446744073709551615 1073741824, false⟩
/-- `host.aperture_window` (0x1330:02), R499. -/
def host_aperture_window : Ent := ⟨0x1330, 1, 0x02, 1, 1, .handle, 4, .rw, .config, .v 0, false, .any, false⟩
/-- `host.aperture_partition` (0x1330:03), R499. -/
def host_aperture_partition : Ent := ⟨0x1330, 1, 0x03, 1, 1, .u16, 2, .rw, .config, .v 0, false, .range 0 4095, false⟩
/-- `host.aperture_errors` (0x1330:10), R499. -/
def host_aperture_errors : Ent := ⟨0x1330, 1, 0x10, 1, 1, .u64, 8, .rc, .counter, .v 0, false, .any, false⟩
/-- `sec.owner_key` (0xE000:01), R500. -/
def sec_owner_key : Ent := ⟨0xE000, 1, 0x01, 1, 1, .octets, 32, .wo, .config, .v 0, true, .any, false⟩
/-- `sec.operator_key` (0xE000:02), R500. -/
def sec_operator_key : Ent := ⟨0xE000, 1, 0x02, 1, 1, .octets, 32, .wo, .config, .v 0, true, .any, false⟩
/-- `sec.observer_key` (0xE000:03), R500. -/
def sec_observer_key : Ent := ⟨0xE000, 1, 0x03, 1, 1, .octets, 32, .wo, .config, .v 0, true, .any, false⟩
/-- `sec.keys_set` (0xE000:04), R500. -/
def sec_keys_set : Ent := ⟨0xE000, 1, 0x04, 1, 1, .bits32, 4, .ro, .status, .v 0, true, .any, false⟩
/-- `sec.lockout` (0xE000:05), R500. -/
def sec_lockout : Ent := ⟨0xE000, 1, 0x05, 1, 1, .bool, 1, .ro, .status, .v 0, false, .range 0 1, false⟩
/-- `sec.open_failures` (0xE000:10), R500. -/
def sec_open_failures : Ent := ⟨0xE000, 1, 0x10, 1, 1, .u64, 8, .rc, .counter, .v 0, false, .any, false⟩
/-- `sec.tenant_keys` (0xE001:01), R500. -/
def sec_tenant_keys : Ent := ⟨0xE001, 1, 0x01, 1, 1, .domain, 131072, .wo, .config, .v 0, true, .any, false⟩
/-- `sec.open_counter` (0xE002:01), R500. -/
def sec_open_counter : Ent := ⟨0xE002, 1, 0x01, 1, 1, .domain, 32800, .ro, .status, .v 0, true, .any, false⟩
/-- `fault.severity` (0xA000+s:01), R514. -/
def fault_severity : Ent := ⟨0xA000, 1024, 0x01, 1, 1, .enum8, 1, .rw, .config, .sevTable, true, .range 0 3, false⟩
/-- `fault.reactions` (0xA000+s:02), R514. -/
def fault_reactions : Ent := ⟨0xA000, 1024, 0x02, 1, 1, .bits32, 4, .rw, .config, .maskTable, true, .range 0 31, false⟩
/-- `fault.sets` (0xA000+s:03), R514. -/
def fault_sets : Ent := ⟨0xA000, 1024, 0x03, 1, 1, .u64, 8, .rc, .counter, .v 0, true, .any, false⟩
/-- `fault.subscribe` (0xA400+b:00), R515. -/
def fault_subscribe : Ent := ⟨0xA400, 16, 0x00, 1, 1, .bits64, 8, .sub, .config, .v 0, false, .any, false⟩
/-- `fault.sticky` (0xA400+b:01), R515. -/
def fault_sticky : Ent := ⟨0xA400, 16, 0x01, 1, 1, .bits64, 8, .w1c, .sticky, .v 0, true, .any, false⟩
/-- `fault.pin_level` (0xA800:01), R515. -/
def fault_pin_level : Ent := ⟨0xA800, 1, 0x01, 1, 1, .bool, 1, .ro, .status, .v 1, false, .range 0 1, false⟩
/-- `fault.pin_sampling` (0xA800:02), R515. -/
def fault_pin_sampling : Ent := ⟨0xA800, 1, 0x02, 1, 1, .bool, 1, .ro, .status, .v 1, false, .range 0 1, false⟩
/-- `fault.pin_rearm` (0xA800:03), R515. -/
def fault_pin_rearm : Ent := ⟨0xA800, 1, 0x03, 1, 1, .bool, 1, .wo, .config, .v 0, false, .range 0 1, false⟩
/-- `fault.last_reset_cause` (0xA800:04), R515. -/
def fault_last_reset_cause : Ent := ⟨0xA800, 1, 0x04, 1, 1, .u16, 2, .ro, .status, .v 0xFFFF, true, .any, false⟩
/-- `fault.last_trap` (0xA800:05), R515. -/
def fault_last_trap : Ent := ⟨0xA800, 1, 0x05, 1, 1, .octets, 16, .ro, .status, .v 0, true, .any, false⟩
/-- `fault.traps` (0xA800:10), R515. -/
def fault_traps : Ent := ⟨0xA800, 1, 0x10, 1, 1, .u64, 8, .rc, .counter, .v 0, true, .any, false⟩
/-- `fault.block_resets` (0xA800:11), R515. -/
def fault_block_resets : Ent := ⟨0xA800, 1, 0x11, 1, 1, .u64, 8, .rc, .counter, .v 0, true, .any, false⟩
/-- `fault.storm_refused` (0xA800:12), R515. -/
def fault_storm_refused : Ent := ⟨0xA800, 1, 0x12, 1, 1, .u64, 8, .rc, .counter, .v 0, true, .any, false⟩
/-- `fault.chip_resets` (0xA800:13), R515. -/
def fault_chip_resets : Ent := ⟨0xA800, 1, 0x13, 1, 1, .u64, 8, .rc, .counter, .v 0, true, .any, false⟩
/-- `fault.notify_lost` (0xA800:14), R515. -/
def fault_notify_lost : Ent := ⟨0xA800, 1, 0x14, 1, 1, .u64, 8, .rc, .counter, .v 0, false, .any, false⟩
/-- `fault.inject` (0xF0A0:01), R515. -/
def fault_inject : Ent := ⟨0xF0A0, 1, 0x01, 1, 1, .u16, 2, .wo, .config, .v 0, false, .any, false⟩
/-- `pwr.target` (0x9000:01), R537. -/
def pwr_target : Ent := ⟨0x9000, 1, 0x01, 1, 1, .enum8, 1, .wo, .config, .v 0, false, .range 0 3, false⟩
/-- `pwr.enter_at` (0x9000:02), R537. -/
def pwr_enter_at : Ent := ⟨0x9000, 1, 0x02, 1, 1, .octets, 16, .wo, .config, .v 0, false, .any, false⟩
/-- `pwr.state` (0x9000:03), R537. -/
def pwr_state : Ent := ⟨0x9000, 1, 0x03, 1, 1, .enum8, 1, .ro, .status, .v 0, false, .any, false⟩
/-- `pwr.phase` (0x9000:04), R537. -/
def pwr_phase : Ent := ⟨0x9000, 1, 0x04, 1, 1, .enum8, 1, .ro, .status, .v 0, false, .any, false⟩
/-- `pwr.wake_state` (0x9000:05), R537. -/
def pwr_wake_state : Ent := ⟨0x9000, 1, 0x05, 1, 1, .enum8, 1, .rw, .config, .v 0, false, .range 0 2, false⟩
/-- `pwr.wake_on_job` (0x9000:06), R537. -/
def pwr_wake_on_job : Ent := ⟨0x9000, 1, 0x06, 1, 1, .bool, 1, .rw, .config, .v 0, false, .range 0 1, false⟩
/-- `pwr.drain_limit` (0x9000:07), R537. -/
def pwr_drain_limit : Ent := ⟨0x9000, 1, 0x07, 1, 1, .u32, 4, .rw, .config, .v 10000000, false, .range 10000 1000000000, false⟩
/-- `pwr.slew_budget` (0x9000:08), R537. -/
def pwr_slew_budget : Ent := ⟨0x9000, 1, 0x08, 1, 1, .u16, 2, .rw, .config, .v 120, false, .range 60 400, false⟩
/-- `pwr.hold_window` (0x9000:09), R537. -/
def pwr_hold_window : Ent := ⟨0x9000, 1, 0x09, 1, 1, .u32, 4, .rw, .config, .v 10000000, false, .range 1000000 1000000000, false⟩
/-- `pwr.hold_action` (0x9000:0A), R537. -/
def pwr_hold_action : Ent := ⟨0x9000, 1, 0x0A, 1, 1, .enum8, 1, .rw, .config, .v 0, false, .range 0 1, false⟩
/-- `pwr.warn_level` (0x9000:0B), R537. -/
def pwr_warn_level : Ent := ⟨0x9000, 1, 0x0B, 1, 1, .bool, 1, .ro, .status, .v 0, false, .range 0 1, false⟩
/-- `pwr.shed_cap` (0x9000:0C), R537. -/
def pwr_shed_cap : Ent := ⟨0x9000, 1, 0x0C, 1, 1, .u16, 2, .ro, .status, .shedCap, false, .any, false⟩
/-- `pwr.refusals` (0x9000:10), R537. -/
def pwr_refusals : Ent := ⟨0x9000, 1, 0x10, 1, 1, .u64, 8, .rc, .counter, .v 0, false, .any, false⟩
/-- `pwr.aborts` (0x9000:11), R537. -/
def pwr_aborts : Ent := ⟨0x9000, 1, 0x11, 1, 1, .u64, 8, .rc, .counter, .v 0, false, .any, false⟩
/-- `pwr.sheds` (0x9000:12), R537. -/
def pwr_sheds : Ent := ⟨0x9000, 1, 0x12, 1, 1, .u64, 8, .rc, .counter, .v 0, false, .any, false⟩
/-- `pwr.wakes` (0x9000:13), R537. -/
def pwr_wakes : Ent := ⟨0x9000, 1, 0x13, 1, 1, .u64, 8, .rc, .counter, .v 0, false, .any, false⟩
/-- `pwr.slew_waits` (0x9000:14), R537. -/
def pwr_slew_waits : Ent := ⟨0x9000, 1, 0x14, 1, 1, .u64, 8, .rc, .counter, .v 0, false, .any, false⟩
/-- `pwr.wake_lanes` (0x9001:01), R537. -/
def pwr_wake_lanes : Ent := ⟨0x9001, 1, 0x01, 1, 1, .domain, 128, .rw, .config, .v 0, false, .any, false⟩
/-- `pwr.log` (0x9002:01), R537. -/
def pwr_log : Ent := ⟨0x9002, 1, 0x01, 1, 1, .domain, 1024, .ro, .status, .v 0, false, .any, false⟩
/-- `pwr.dom.name` (0x9100+k:01), R538. -/
def pwr_dom_name : Ent := ⟨0x9100, 57, 0x01, 1, 1, .octets, 8, .ro, .status, .domName, false, .any, false⟩
/-- `pwr.dom.status` (0x9100+k:02), R538. -/
def pwr_dom_status : Ent := ⟨0x9100, 57, 0x02, 1, 1, .enum8, 1, .ro, .status, .domStatus, true, .any, false⟩
/-- `pwr.dom.request` (0x9100+k:03), R538. -/
def pwr_dom_request : Ent := ⟨0x9100, 57, 0x03, 1, 1, .enum8, 1, .rw, .config, .v 0, false, .range 0 1, false⟩
/-- `pwr.dom.retry` (0x9100+k:04), R538. -/
def pwr_dom_retry : Ent := ⟨0x9100, 57, 0x04, 1, 1, .bool, 1, .wo, .config, .v 0, false, .range 0 1, false⟩
/-- `pwr.dom.restore_ns` (0x9100+k:05), R538. -/
def pwr_dom_restore_ns : Ent := ⟨0x9100, 57, 0x05, 1, 1, .u32, 4, .ro, .status, .domRestore, false, .any, false⟩
/-- `pwr.dom.ramp_ns` (0x9100+k:06), R538. -/
def pwr_dom_ramp_ns : Ent := ⟨0x9100, 57, 0x06, 1, 1, .u32, 4, .ro, .status, .domRamp, false, .any, false⟩
/-- `pwr.dom.cost` (0x9100+k:07), R538. -/
def pwr_dom_cost : Ent := ⟨0x9100, 57, 0x07, 1, 1, .u16, 2, .ro, .status, .domCost, false, .any, false⟩
/-- `pwr.dom.offs` (0x9100+k:10), R538. -/
def pwr_dom_offs : Ent := ⟨0x9100, 57, 0x10, 1, 1, .u64, 8, .rc, .counter, .v 0, true, .any, false⟩
/-- `pwr.dom.ramp_failures` (0x9100+k:11), R538. -/
def pwr_dom_ramp_failures : Ent := ⟨0x9100, 57, 0x11, 1, 1, .u64, 8, .rc, .counter, .v 0, true, .any, false⟩
/-- `st.shutdown` (0xB000:01), R553. -/
def st_shutdown : Ent := ⟨0xB000, 1, 0x01, 1, 1, .ft, 8, .wo, .config, .v 0, false, .any, false⟩
/-- `st.clock` (0xB000:02), R553. -/
def st_clock : Ent := ⟨0xB000, 1, 0x02, 1, 1, .enum8, 1, .rw, .config, .v 2, true, .range 0 2, false⟩
/-- `st.hbm_hard_repair` (0xB000:03), R553. -/
def st_hbm_hard_repair : Ent := ⟨0xB000, 1, 0x03, 1, 1, .bool, 1, .rw, .config, .v 0, true, .range 0 1, false⟩
/-- `st.state` (0xB000:04), R553. -/
def st_state : Ent := ⟨0xB000, 1, 0x04, 1, 1, .enum8, 1, .ro, .status, .v 0, false, .any, false⟩
/-- `st.start_count` (0xB000:05), R553. -/
def st_start_count : Ent := ⟨0xB000, 1, 0x05, 1, 1, .u32, 4, .ro, .status, .v 0, true, .any, false⟩
/-- `st.lane_retry_limit` (0xB000:06), R553. -/
def st_lane_retry_limit : Ent := ⟨0xB000, 1, 0x06, 1, 1, .u32, 4, .rw, .config, .v 64, true, .range 1 65536, false⟩
/-- `st.last` (0xB000:10), R553. -/
def st_last : Ent := ⟨0xB000, 1, 0x10, 1, 1, .domain, 72, .ro, .status, .v 0, true, .any, false⟩
/-- `st.repair_record` (0xB000:11), R553. -/
def st_repair_record : Ent := ⟨0xB000, 1, 0x11, 1, 1, .domain, 4096, .ro, .status, .v 0, true, .any, false⟩
/-- `st.lane_repairs` (0xB000:20), R553. -/
def st_lane_repairs : Ent := ⟨0xB000, 1, 0x20, 1, 1, .u64, 8, .rc, .counter, .v 0, true, .any, false⟩
/-- `st.row_repairs` (0xB000:21), R553. -/
def st_row_repairs : Ent := ⟨0xB000, 1, 0x21, 1, 1, .u64, 8, .rc, .counter, .v 0, true, .any, false⟩
/-- `st.withheld_bytes` (0xB000:22), R553. -/
def st_withheld_bytes : Ent := ⟨0xB000, 1, 0x22, 1, 1, .u64, 8, .ro, .status, .v 0, true, .any, false⟩
/-- `st.lbist_states` (0xB010:01), R553. -/
def st_lbist_states : Ent := ⟨0xB010, 1, 0x01, 1, 1, .bits32, 4, .rw, .config, .v 14, true, .range 0 31, false⟩
/-- `st.scan_states` (0xB010:02), R553. -/
def st_scan_states : Ent := ⟨0xB010, 1, 0x02, 1, 1, .bits32, 4, .rw, .config, .v 3, true, .range 0 31, false⟩
/-- `st.clear_secrets` (0xB010:03), R553. -/
def st_clear_secrets : Ent := ⟨0xB010, 1, 0x03, 1, 1, .bits32, 4, .rw, .config, .v 1, true, .range 0 3, false⟩
/-- `coord.rack` (0x1020:01), R554. -/
def coord_rack : Ent := ⟨0x1020, 1, 0x01, 1, 1, .u16, 2, .rw, .config, .v 65535, true, .any, false⟩
/-- `coord.plane` (0x1020:02), R554. -/
def coord_plane : Ent := ⟨0x1020, 1, 0x02, 1, 1, .u8, 1, .rw, .config, .v 255, true, .orElse 255 0 63 1, false⟩
/-- `coord.slot` (0x1020:03), R554. -/
def coord_slot : Ent := ⟨0x1020, 1, 0x03, 1, 1, .u8, 1, .rw, .config, .v 255, true, .any, false⟩
/-- `coord.set` (0x1020:04), R554. -/
def coord_set : Ent := ⟨0x1020, 1, 0x04, 1, 1, .bool, 1, .ro, .status, .v 0, false, .range 0 1, false⟩
/-- `rack.reset_at` (0x1021:01), R563. -/
def rack_reset_at : Ent := ⟨0x1021, 1, 0x01, 1, 1, .ft, 8, .wo, .config, .v 0, false, .any, false⟩
/-- `rack.reset_pending` (0x1021:02), R563. -/
def rack_reset_pending : Ent := ⟨0x1021, 1, 0x02, 1, 1, .ft, 8, .ro, .status, .v 0, false, .any, false⟩
/-- `recable.ports` (0x1028:01), R563. -/
def recable_ports : Ent := ⟨0x1028, 1, 0x01, 1, 1, .domain, 128, .rw, .config, .v 0, false, .any, false⟩
/-- `recable.open_at` (0x1028:02), R563. -/
def recable_open_at : Ent := ⟨0x1028, 1, 0x02, 1, 1, .ft, 8, .wo, .config, .v 0, false, .any, false⟩
/-- `recable.close` (0x1028:03), R563. -/
def recable_close : Ent := ⟨0x1028, 1, 0x03, 1, 1, .bool, 1, .wo, .config, .v 0, false, .range 0 1, false⟩
/-- `recable.limit` (0x1028:04), R563. -/
def recable_limit : Ent := ⟨0x1028, 1, 0x04, 1, 1, .u32, 4, .rw, .config, .v 1000000000, false, .range 1000000 4000000000, false⟩
/-- `recable.state` (0x1028:10), R563. -/
def recable_state : Ent := ⟨0x1028, 1, 0x10, 1, 1, .enum8, 1, .ro, .status, .v 0, false, .any, false⟩
/-- `recable.opened` (0x1028:11), R563. -/
def recable_opened : Ent := ⟨0x1028, 1, 0x11, 1, 1, .ft, 8, .ro, .status, .v 0, false, .any, false⟩
/-- `recable.drops` (0x1028:20), R563. -/
def recable_drops : Ent := ⟨0x1028, 1, 0x20, 1, 1, .u64, 8, .rc, .counter, .v 0, false, .any, false⟩
/-- `recable.windows` (0x1028:21), R563. -/
def recable_windows : Ent := ⟨0x1028, 1, 0x21, 1, 1, .u64, 8, .rc, .counter, .v 0, false, .any, false⟩
/-- `recable.expired` (0x1028:22), R563. -/
def recable_expired : Ent := ⟨0x1028, 1, 0x22, 1, 1, .u64, 8, .rc, .counter, .v 0, false, .any, false⟩
/-- `recable.refused` (0x1028:23), R563. -/
def recable_refused : Ent := ⟨0x1028, 1, 0x23, 1, 1, .u64, 8, .rc, .counter, .v 0, false, .any, false⟩
/-- `boot.stage` (0x1040:01), R574. -/
def boot_stage : Ent := ⟨0x1040, 1, 0x01, 1, 1, .enum8, 1, .ro, .status, .v 1, false, .any, false⟩
/-- `boot.cause` (0x1040:02), R574. -/
def boot_cause : Ent := ⟨0x1040, 1, 0x02, 1, 1, .enum8, 1, .ro, .status, .v 0, false, .any, false⟩
/-- `boot.fail` (0x1040:03), R574. -/
def boot_fail : Ent := ⟨0x1040, 1, 0x03, 1, 1, .bits32, 4, .ro, .status, .v 0, false, .any, false⟩
/-- `boot.code` (0x1040:04), R574. -/
def boot_code : Ent := ⟨0x1040, 1, 0x04, 1, 1, .u8, 1, .ro, .status, .v 0, false, .any, false⟩
/-- `boot.ready_ns` (0x1040:05), R574. -/
def boot_ready_ns : Ent := ⟨0x1040, 1, 0x05, 1, 1, .u32, 4, .ro, .status, .v 0, false, .any, false⟩
/-- `boot.stage_ns` (0x1040:06), R574. -/
def boot_stage_ns : Ent := ⟨0x1040, 1, 0x06, 1, 1, .octets, 32, .ro, .status, .v 0, false, .any, false⟩
/-- `therm.max` (0x9200:01), R598. -/
def therm_max : Ent := ⟨0x9200, 1, 0x01, 1, 1, .i32, 4, .ro, .status, .v 0, false, .any, false⟩
/-- `therm.throttle_c` (0x9200:02), R598. -/
def therm_throttle_c : Ent := ⟨0x9200, 1, 0x02, 1, 1, .u8, 1, .rw, .config, .v 100, true, .range 85 102, false⟩
/-- `therm.mill_clock` (0x9200:03), R598. -/
def therm_mill_clock : Ent := ⟨0x9200, 1, 0x03, 1, 1, .u16, 2, .ro, .status, .v 2200, false, .any, false⟩
/-- `therm.state` (0x9200:04), R598. -/
def therm_state : Ent := ⟨0x9200, 1, 0x04, 1, 1, .enum8, 1, .ro, .status, .v 0, false, .any, false⟩
/-- `therm.throttle_steps` (0x9200:10), R598. -/
def therm_throttle_steps : Ent := ⟨0x9200, 1, 0x10, 1, 1, .u64, 8, .rc, .counter, .v 0, true, .any, false⟩
/-- `therm.throttle_ns` (0x9200:11), R598. -/
def therm_throttle_ns : Ent := ⟨0x9200, 1, 0x11, 1, 1, .u64, 8, .rc, .counter, .v 0, true, .any, false⟩
/-- `therm.sensor` (0x9201:01–18), R598. -/
def therm_sensor : Ent := ⟨0x9201, 1, 0x01, 24, 1, .i32, 4, .ro, .status, .thermSensor, false, .any, false⟩
/-- `supply.vin_mv` (0x9210:01), R598. -/
def supply_vin_mv : Ent := ⟨0x9210, 1, 0x01, 1, 1, .u16, 2, .ro, .status, .v 0, false, .any, false⟩
/-- `supply.sd_mv` (0x9210:02), R598. -/
def supply_sd_mv : Ent := ⟨0x9210, 1, 0x02, 1, 1, .u16, 2, .ro, .status, .v 0, false, .any, false⟩
/-- `supply.mr_mv` (0x9210:03), R598. -/
def supply_mr_mv : Ent := ⟨0x9210, 1, 0x03, 1, 1, .u16, 2, .ro, .status, .v 0, false, .any, false⟩
/-- `supply.aon_mv` (0x9210:04), R598. -/
def supply_aon_mv : Ent := ⟨0x9210, 1, 0x04, 1, 1, .u16, 2, .ro, .status, .v 0, false, .any, false⟩
/-- `supply.io_mv` (0x9210:05), R598. -/
def supply_io_mv : Ent := ⟨0x9210, 1, 0x05, 1, 1, .u16, 2, .ro, .status, .v 0, false, .any, false⟩
/-- `supply.core_mv` (0x9210:06), R598. -/
def supply_core_mv : Ent := ⟨0x9210, 1, 0x06, 1, 1, .u16, 2, .ro, .status, .v 0, false, .any, false⟩
/-- `supply.vin_amps` (0x9210:07), R598. -/
def supply_vin_amps : Ent := ⟨0x9210, 1, 0x07, 1, 1, .u16, 2, .ro, .status, .v 0, false, .any, false⟩
/-- `supply.vin_lows` (0x9210:10), R598. -/
def supply_vin_lows : Ent := ⟨0x9210, 1, 0x10, 1, 1, .u64, 8, .rc, .counter, .v 0, true, .any, false⟩
/-- `device.conditions` (0x1030:01), R600. -/
def device_conditions : Ent := ⟨0x1030, 1, 0x01, 1, 1, .bits32, 4, .ro, .status, .v 16383, false, .any, false⟩
/-- `device_vendor` (0x1000:01), R64. -/
def device_vendor : Ent := ⟨0x1000, 1, 0x01, 1, 1, .octets, 8, .ro, .status, .v 31084814905996371, false, .any, false⟩
/-- `device_part` (0x1000:02), R4. -/
def device_part : Ent := ⟨0x1000, 1, 0x02, 1, 1, .octets, 8, .ro, .status, .v 0, false, .any, false⟩
/-- `device_stepping` (0x1000:03), R10. -/
def device_stepping : Ent := ⟨0x1000, 1, 0x03, 1, 1, .u8, 1, .ro, .status, .v 0xB0, false, .any, false⟩
/-- `device_serial` (0x1000:04), R64. -/
def device_serial : Ent := ⟨0x1000, 1, 0x04, 1, 1, .octets, 16, .ro, .status, .v 0, false, .any, false⟩
/-- `device_ready` (0x1000:10), R56. -/
def device_ready : Ent := ⟨0x1000, 1, 0x10, 1, 1, .bool, 1, .ro, .status, .v 0, false, .any, false⟩
/-- `handle_limit` (0x1050:01), R40. -/
def handle_limit : Ent := ⟨0x1050, 1, 0x01, 10, 1, .u32, 4, .ro, .status, .v 0, false, .any, false⟩
/-- `quota_limit` (0x1061:01), R43. -/
def quota_limit : Ent := ⟨0x1061, 10, 0x01, 1, 1, .domain, 16384, .rw, .config, .v 0, false, .any, false⟩
/-- `quota_count` (0x1061:02), R43. -/
def quota_count : Ent := ⟨0x1061, 10, 0x02, 1, 1, .domain, 16384, .ro, .status, .v 0, false, .any, false⟩
/-- `comm_udp_port` (0x1310:01), R58. -/
def comm_udp_port : Ent := ⟨0x1310, 1, 0x01, 1, 1, .u16, 2, .rw, .config, .v 50770, false, .any, false⟩

/-- Part of the entry table (spec file 02). -/
def table02_0 : List Ent := [bripol_length, bripol_version, bripol_crc, bripol_data, device_vendor, device_part, device_stepping, device_serial, device_ready, handle_limit, quota_limit, quota_count, comm_udp_port]
/-- Part of the entry table (spec file 03). -/
def table03_0 : List Ent := [ft_now, ft_step, ft_sync_state, ft_source_port, ft_phase_error, ft_delay_mode, ft_delay_fixed, ft_delay_measured, ft_primary_port, ft_holdover_limit, ft_local_set, ft_flags, ft_corrections, ft_late_actions, ft_pending, ft_pending_limit, ft_launch_at, ft_launch_pending, ft_launch_cancel]
/-- Part of the entry table (spec file 04). -/
def table04_0 : List Ent := [millrace_role, millrace_loopback, millrace_tx_sleep, millrace_rx_wake_enable, millrace_prbs, millrace_send_wake, millrace_state, millrace_tx_state, millrace_rx_state, millrace_partner, millrace_flags, millrace_code_errors, millrace_bubbles, millrace_frame_drops, millrace_retrains, millrace_marks, millrace_prbs_errors, millrace_wakes, millrace_launch_ignored, millrace_launch_count, millrace_launch_record, millrace_last_missed]
/-- Part of the entry table (spec file 05). -/
def table05_0 : List Ent := [port_width, port_mode, port_role, port_fec, port_an, port_min_width, port_auto_restore, port_restore_hold, port_restore, port_degrade_enable, port_ber_limit, port_loopback, port_prbs, port_control_role, port_control_partition, port_mtu, port_pvid, port_vlan_mode, port_stp_state, port_ecn_enable, port_mac, port_tunnel_src, port_tunnel_hop_limit, port_state, port_active_width, port_active_first_lane, port_rx_good, port_notice, port_flags, port_fec_corrected, port_fec_uncorrectable, port_rx_dropped, port_rx_stomped, port_tx_stomped, port_tx_dropped, port_degrades, port_marker_errors, port_pause_dropped, lane_state, lane_snr]
/-- Part of the entry table (spec file 05). -/
def table05_1 : List Ent := [lane_pre_fec_ber, lane_losses, lane_prbs_errors, bridge_ageing_time, bridge_mac_count, bridge_learn_refused, bridge_station_moves, bridge_mac_table, bridge_vlan_table, tunnel_udp_port, tunnel_dscp, tunnel_dst, tunnel_next_hop_mac, tunnel_vlan, tunnel_ce_received]
/-- Part of the entry table (spec file 06). -/
def table06_0 : List Ent := [bundle_members, bundle_deflect_threshold, bundle_link_allowance, bundle_adaptive, bundle_adapt_interval, bundle_delay_target, bundle_eddy_limit, bundle_members_up, bundle_weight, bundle_forwarded, bundle_deflections, bundle_eddy_drops, bundle_eddy_full_drops, bundle_expired, rill_rx_fail, rill_rx_expired, rill_rx_accepted, rill_rx_flags, rill_origin_lifetime, rill_lifetime_max, rill_fault_window, rill_fault_rate, rill_eddy_used, rill_eddy_peak, rill_partition_sets]
/-- Part of the entry table (spec file 07). -/
def table07_0 : List Ent := [rsv_window_region, rsv_packet_cells, rsv_landing_cells, rsv_yellow_limit, rsv_red_limit, rsv_red_seed, rsv_shared_cells, rsv_shared_used, rsv_shared_yr, rsv_shared_r, rsv_shared_peak, xbar_plane_enable, xbar_plane_state, rsv_ecc_corrected, rsv_ecc_uncorrectable, xbar_underruns, rsv_landing_drops, queue_min_cells, queue_shared_max, queue_alpha, queue_red_profile, queue_avg_weight, queue_depth_cells, queue_min_used, queue_shared_used, queue_avg_depth, queue_admitted, queue_drop_green, queue_drop_yellow, queue_drop_red, queue_early_drops, queue_ecn_marked, queue_refused_rill, red_min, red_max, red_pmax, red_enable, internal_min_cells, internal_shared_max, internal_depth_cells]
/-- Part of the entry table (spec file 07). -/
def table07_1 : List Ent := [internal_held, sample_rx_n, sample_tx_n, sample_mode, sample_length, sample_dest, sample_drops, sample_taken, sample_lost]
/-- Part of the entry table (spec file 08). -/
def table08_0 : List Ent := [queue_weight, queue_rate, queue_burst, queue_credit, queue_gate_open, queue_tx_packets, queue_tx_bytes, queue_gate_waits, queue_sample_ft, queue_sample_depth, queue_sample_max_depth, queue_sample_head_age, queue_sample_sojourn_mean, queue_sample_sojourn_max, queue_sample_departures, policer_cir, policer_cbs, policer_pir, policer_pbs, policer_aware, policer_yellow_action, policer_red_action, policer_state, policer_die, policer_green, policer_yellow, policer_red, policer_dropped, sched_strict_mask, sched_class_weight, sched_sub_strict, sched_colour_split, sched_overhead, sched_pcp_map, sched_default_class, sched_port_rate, sched_port_burst, sched_gate_schedule, sched_sample_interval, policer_bind]
/-- Part of the entry table (spec file 08). -/
def table08_1 : List Ent := [gate_port, gate_alternate, gate_entries, gate_list, gate_cycle, gate_start, gate_switch_at, gate_stop, gate_state, gate_anchor, gate_entry, gate_switches, gate_switch_refused]
/-- Part of the entry table (spec file 09). -/
def table09_0 : List Ent := [collective_type, collective_operator, collective_segment_size, collective_threshold, collective_length, collective_in_format, collective_out_format, collective_mode, collective_window, collective_members, collective_root, collective_scale, collective_epilogue, collective_laggard_timeout, collective_widen, collective_widen_threshold, collective_barrier_scope, collective_overflow_pool, collective_peers, collective_position, collective_result_class, collective_layer_id, collective_op_id, collective_rows, collective_row_bytes, collective_topk, collective_capacity, collective_pair, collective_dispatch_map, collective_arm, collective_disarm, collective_state, collective_engine, collective_run, collective_path, collective_segments, collective_slot_bytes, collective_basin_bytes, collective_result_stride, collective_limit]
/-- Part of the entry table (spec file 09). -/
def table09_1 : List Ent := [collective_last_status, collective_member_lost, collective_laggard_position, collective_timeout_position, collective_skew_max, collective_skew_mean, collective_runs, collective_timeouts, collective_widened, collective_not_armed, collective_format_errors, collective_early, collective_late, collective_oversize, collective_over_credit, collective_not_owner, collective_duplicates, collective_rows_unassigned, confluence_basin_free, confluence_basin_peak, confluence_engine_handles, confluence_engine_bytes, confluence_proto_drops, confluence_epilogue_held, confluence_last_arrivals]
/-- Part of the entry table (spec file 10). -/
def table10_0 : List Ent := [collective_in_scale, collective_out_scale, collective_lse_dim, collective_saturated, collective_flushed, collective_nan_results, collective_truncated, collective_histogram, collective_histogram_run]
/-- Part of the entry table (spec file 11). -/
def table11_0 : List Ent := [format_name, format_element_bits, format_block, format_granule_elements, format_rate_class, format_flushed_in, format_flushed_out, format_saturated, format_nan_out, format_reserved_in]
/-- Part of the entry table (spec file 12). -/
def table12_0 : List Ent := [template_descriptor, template_state, template_holders, template_jobs, template_failed, mill_state, mill_logical, mill_busy_cycles, mill_shares, mill_ecc_corrected, mill_ecc_uncorrectable, mill_enabled_map, mill_enabled_count, mill_spare_count, mill_die_queue, mill_logical_count, mill_queue_limit, mill_queue_depth, mill_job_timeout, mill_jobs_accepted, mill_jobs_completed, mill_jobs_failed, mill_queue_full, mill_saturated, mill_flushed, mill_nan_out, mill_router_overflow]
/-- Part of the entry table (spec file 13). -/
def table13_0 : List Ent := [mem_t1_bytes, mem_t2_bytes, mem_mill_window, mem_outstanding_limit, mem_outstanding, mem_busy, t2cache_hits, t2cache_misses, t2cache_fills_discarded, window_base, window_size, window_rights, window_cached, window_open, window_state, window_tier, window_holders, window_reads, window_writes, window_read_bytes, window_write_bytes, window_errors, cxl_enable, cxl_timeout, cxl_resume, cxl_invalidate, cxl_state, cxl_width, cxl_capacity, cxl_device_id, cxl_flags, cxl_timeouts, cxl_poison, cxl_losses, cxl_read_bytes, cxl_write_bytes, hbm_state, hbm_ecc_corrected, hbm_ecc_uncorrectable, hbm_read_bytes]
/-- Part of the entry table (spec file 13). -/
def table13_1 : List Ent := [hbm_write_bytes]
/-- Part of the entry table (spec file 14). -/
def table14_0 : List Ent := [pool_buffer_size, pool_count, pool_buffer_base, pool_buffer_window, pool_ring_base, pool_ring_window, pool_low_water, pool_enable, pool_alloc, pool_free, pool_share, pool_state, pool_free_count, pool_ring_count, pool_head_cached, pool_tail_cached, pool_users, pool_flags, pool_allocs, pool_frees, pool_empty, pool_double_frees, pool_bad_addresses, pool_low_free, sequence_template, sequence_prefix_source, sequence_prefix_tokens, sequence_activate, sequence_reserve, sequence_length, sequence_state, sequence_capacity, sequence_pages, sequence_root, sequence_holders, sequence_jobs, sequence_pages_taken, seqtemplate_layers, seqtemplate_kv_heads, seqtemplate_head_dim]
/-- Part of the entry table (spec file 14). -/
def table14_1 : List Ent := [seqtemplate_kv_format, seqtemplate_page_pool, seqtemplate_table_pool, seqtemplate_page_bytes, seqtemplate_users, holdings_sequences, holdings_pages, holdings_tokens, holdings_copies, holdings_failed]
/-- Part of the entry table (spec file 15). -/
def table15_0 : List Ent := [weir_clock_mode, weir_clock_locked, weir_slots, weir_engines, weir_mills, weir_t1_share, weir_hold_limit, weir_start, weir_start_on_launch, weir_stop, weir_state, weir_anchor, weir_cycle, weir_ft_offset, weir_flags, weir_held, weir_no_slot, weir_hold_drops, weir_buffer_drops, weir_idle_slots, weir_t1_slips, weir_realigns, weir_partitions, weir_schedule, lockstep_peer_port, lockstep_window_cycles, lockstep_start, lockstep_start_on_launch, lockstep_stop, lockstep_stop_on_divergence, lockstep_state, lockstep_window, lockstep_first, lockstep_flags, lockstep_windows, lockstep_divergent, lockstep_missing, lockstep_foreign_frames, lockstep_ports]
/-- Part of the entry table (spec file 16). -/
def table16_0 : List Ent := [snap_at, snap_clear, snap_view, snap_seq, snap_ft, snap_pending, archive_budget, archive_sessions_open, archive_cells, archive_budget_drops, opcount_mill, opcount_confluence, attr_table, attr_used, attr_reset, trace_pool, trace_kinds, trace_partition, trace_layer, trace_operator, trace_ports, trace_packet_n, trace_full_action, trace_dest, trace_open_at, trace_close_at, trace_state, trace_next, trace_queued, trace_records, trace_bytes, trace_buffers, trace_lost]
/-- Part of the entry table (spec file 17). -/
def table17_0 : List Ent := [spring_header, spring_length, spring_payload, spring_word, spring_pool, spring_payload_addr, spring_payload_slots, spring_stamp, spring_burst, spring_spacing, spring_period, spring_count, spring_corrupt, spring_return_bundle, spring_start, spring_start_on_launch, spring_stop, spring_state, spring_next_seq, spring_stop_status, spring_sent, spring_bytes, spring_late, spring_held, gauge_tap, gauge_port, gauge_partition, gauge_kinds, gauge_stream, gauge_tests, gauge_pattern, gauge_word, gauge_bin_ns, gauge_enable, gauge_state, gauge_expected, gauge_missing, gauge_latency_min, gauge_latency_max, gauge_latency_sum]
/-- Part of the entry table (spec file 17). -/
def table17_1 : List Ent := [gauge_histogram, gauge_first, gauge_flags, gauge_received, gauge_out_of_order, gauge_duplicates, gauge_stale, gauge_payload_errors, gauge_bit_errors, gauge_negative, gauge_copy_lost, gauge_rule]
/-- Part of the entry table (spec file 18). -/
def table18_0 : List Ent := [lc_state, lc_advance, lc_pending, lc_confirm, fw_image, fw_verify, fw_verify_status, fw_activate, fw_activate_mode, fw_commit, fw_running, fw_min_security, fw_flags, curator_restarts, mctp_bus, mctp_smbus_addr, mctp_smbus_speed, mctp_eid, mctp_restart, mctp_flags, mctp_recoveries, comm_mgmt_mode, comm_ipv4, comm_ipv6, comm_mac, comm_dropped, comm_udp_replays, hring_base, hring_size, hring_pool, hring_enable, hring_irq_holdoff, hring_records, hring_no_buffer, hring_truncated, hring_dropped_bytes, hring_no_stage, host_aperture_base, host_aperture_window, host_aperture_partition]
/-- Part of the entry table (spec file 18). -/
def table18_1 : List Ent := [host_aperture_errors, sec_owner_key, sec_operator_key, sec_observer_key, sec_keys_set, sec_lockout, sec_open_failures, sec_tenant_keys, sec_open_counter]
/-- Part of the entry table (spec file 19). -/
def table19_0 : List Ent := [fault_severity, fault_reactions, fault_sets, fault_subscribe, fault_sticky, fault_pin_level, fault_pin_sampling, fault_pin_rearm, fault_last_reset_cause, fault_last_trap, fault_traps, fault_block_resets, fault_storm_refused, fault_chip_resets, fault_notify_lost, fault_inject]
/-- Part of the entry table (spec file 20). -/
def table20_0 : List Ent := [pwr_target, pwr_enter_at, pwr_state, pwr_phase, pwr_wake_state, pwr_wake_on_job, pwr_drain_limit, pwr_slew_budget, pwr_hold_window, pwr_hold_action, pwr_warn_level, pwr_shed_cap, pwr_refusals, pwr_aborts, pwr_sheds, pwr_wakes, pwr_slew_waits, pwr_wake_lanes, pwr_log, pwr_dom_name, pwr_dom_status, pwr_dom_request, pwr_dom_retry, pwr_dom_restore_ns, pwr_dom_ramp_ns, pwr_dom_cost, pwr_dom_offs, pwr_dom_ramp_failures]
/-- Part of the entry table (spec file 21). -/
def table21_0 : List Ent := [st_shutdown, st_clock, st_hbm_hard_repair, st_state, st_start_count, st_lane_retry_limit, st_last, st_repair_record, st_lane_repairs, st_row_repairs, st_withheld_bytes, st_lbist_states, st_scan_states, st_clear_secrets]
/-- Part of the entry table (spec file 22). -/
def table22_0 : List Ent := [coord_rack, coord_plane, coord_slot, coord_set, rack_reset_at, rack_reset_pending, recable_ports, recable_open_at, recable_close, recable_limit, recable_state, recable_opened, recable_drops, recable_windows, recable_expired, recable_refused]
/-- Part of the entry table (spec file 23). -/
def table23_0 : List Ent := [boot_stage, boot_cause, boot_fail, boot_code, boot_ready_ns, boot_stage_ns]
/-- Part of the entry table (spec file 24). -/
def table24_0 : List Ent := [therm_max, therm_throttle_c, therm_mill_clock, therm_state, therm_throttle_steps, therm_throttle_ns, therm_sensor, supply_vin_mv, supply_sd_mv, supply_mr_mv, supply_aon_mv, supply_io_mv, supply_core_mv, supply_vin_amps, supply_vin_lows]
/-- Part of the entry table (spec file 25). -/
def table25_0 : List Ent := [device_conditions]

/-- Every entry of the Catalogue (R61). The range 0x1200 to 0x12FF, which R64 assigns to views of sessions and transactions, holds
none: no chapter gives one. DESIGN CHOICE (log 173). -/
def all : List Ent :=
  table02_0 ++ table03_0 ++ table04_0 ++ table05_0 ++ table05_1 ++ table06_0 ++ table07_0 ++ table07_1 ++ table08_0 ++ table08_1 ++ table09_0 ++ table09_1 ++ table10_0 ++ table11_0 ++ table12_0 ++ table13_0 ++ table13_1 ++ table14_0 ++ table14_1 ++ table15_0 ++ table16_0 ++ table17_0 ++ table17_1 ++ table18_0 ++ table18_1 ++ table19_0 ++ table20_0 ++ table21_0 ++ table22_0 ++ table23_0 ++ table24_0 ++ table25_0

end Sys2Proof.Machine.E
end

