-- ==== Sys2Proof/Machine/State.lean ====
section
/-!
DEFINITION. The state of the block as plain data. Every Catalogue entry is a key of `cat` (R11, R31); beside it stand the
run-time objects that the spec gives the machine and that no entry holds.
-/

namespace Sys2Proof.Machine

/-- Why a step stops with a fault. DESIGN CHOICE (log 6). -/
inductive Fault where
  /-- Raised by no command: the block reports every error through statuses, counters and fault sources (R502). Safe. -/
  | none
deriving DecidableEq, Repr

/-- Why a step stops with a refusal. DESIGN CHOICE (log 6). -/
inductive Refusal where
  /-- The command has no meaning yet; raised by the dispatch only. Safe. -/
  | notModelled (mnemonic : String)
deriving DecidableEq, Repr

/-- One attribution record (R446, R447): its key and its counts. -/
structure AttrRec where
  part : Nat
  layer : Nat
  op : Nat
  packets : Nat
  bytes : Nat
  mill : Nat
  conf : Nat
  sat : Nat
  flush : Nat
  nan : Nat
deriving DecidableEq, Repr

/-- The core cycle and what happened on it, for the same-cycle rules (R38, R503, R506, R512): handle keys whose handle
state moved, sticky bits set, counter increments, whether the trap has gone, sources raised again while set, masks as they
stood before a write on this cycle, what events of this cycle added to attribution records (R448), and the host rings that take
entries as the cycle ends (R492), and whether a re-cabling window has reached its limit (R560).
DESIGN CHOICE (log 156). -/
structure Cyc where
  n : Nat
  touched : List Nat
  sticky : NMap Nat
  incs : NMap Nat
  trapped : Bool
  again : List Nat
  old : NMap Nat
  attrs : List AttrRec
  rings : List Nat
  limit : Bool
deriving DecidableEq, Repr

/-- What the FN7 tracks of one upstream port (R70 to R72): the last phase error in 1/25 ns, whether a valid mark has
come since lock, marks within and outside the bounds in a row, and whether a mark has come since the two ports' errors were last
held against each other. -/
structure Upstream where
  err : Int
  valid : Bool
  inRow : Nat
  outRow : Nat
  fresh : Bool
deriving DecidableEq, Repr

/-- The FT counter and its correction (R65 to R73). `acc` is the edge accumulator in 1/25 ns, `edges` counts
forwarded-clock edges, `slew` is what is still to correct in edges (positive: FT is ahead), `loadAt` the value that
`ft.local_set` loads on the next tick (R74). -/
structure TimeSt where
  ft : Nat
  step : Nat
  acc : Nat
  edges : Nat
  tickNo : Nat
  slew : Int
  up : List Upstream
  disagree : Nat
  loadNext : Bool
  holdStart : Nat
  loadAt : Option Nat
deriving DecidableEq, Repr

/-- A launch record (R105): `armed` after its confirm. -/
structure LaunchRec where
  seq : Nat
  target : Nat
  armed : Bool
deriving DecidableEq, Repr

/-- A missed notice still to be sent (R106): its payload, how many times it has gone, and the FT of the first. -/
structure MissedNote where
  payload : List Byte
  sent : Nat
  at_ : Nat
deriving DecidableEq, Repr

/-- The run-time state of one Millrace port (R91 to R103, R106, R110). `txRd` and `rxRd` are the running disparities of lanes 0
and 1 as the transmitter and the receiver have them (true: positive), `txFree` the edge from which the transmitter is free,
`held` the frames held off for a time mark (R94), `lineNs` the ns that the transmitter's line pattern has lasted (R97, R102). -/
structure MrPort where
  bubble : Bool
  stageAt : Nat
  lastProbe : Nat
  mismatch : Bool
  accepted : Bool
  probes : List (Nat × Nat)
  echoes : Nat
  echoSum : Nat
  wakeAt : Nat
  noticeWake : Bool
  notes : List MissedNote
  sleepAt : Option Nat
  rxLocked : Bool
  txRd : Bool × Bool
  rxRd : Bool × Bool
  txFree : Nat
  held : List MrFrame
  lineNs : Nat
deriving DecidableEq, Repr

/-- What a scheduled action does when it fires (R77, R80). -/
inductive ActKind where
  | snap
  | commit (tx : Nat)
  | launch
  | weirStart
  | gateStart (h : Nat)
  | gateSwitch (h : Nat)
  | springStart (h : Nat)
  | lockstep
  | recable
  | traceOpen (h : Nat)
  | traceClose (h : Nat)
  | pwrEnter (target : Nat)
  | shutdown
  | fwActivate (mode : Nat)
  | rackReset
deriving DecidableEq, Repr

/-- A pending scheduled action: its FT and its order of receipt. -/
structure Act where
  ft : Nat
  seq : Nat
  kind : ActKind
deriving DecidableEq, Repr

/-- A live handle (R12, R42): generation and partition. -/
structure HRec where
  gen : Nat
  part : Nat
deriving DecidableEq, Repr

/-- Handles (R42 to R46). Keys are type * 2^20 + index. `gens` holds generations other than 0x01, `quar` the release FT
of quarantined indices, `held` indices reserved by open transactions. -/
structure HandleSt where
  live : NMap HRec
  gens : NMap Nat
  quar : NMap Nat
  held : NMap Nat
  openAt : Nat
deriving DecidableEq, Repr

/-- An open session (R37, R484, R510, R511, R451). -/
structure Session where
  id : Nat
  via : Transport
  src : Nat
  role : Nat
  part : Nat
  key : List Byte
  masks : NMap Nat
  subVia : Nat
  queued : Nat
  noteCount : Nat
  snapView : Bool
  hiTag : Nat
  kept : List (Nat × Output)
deriving DecidableEq, Repr

/-- One staged item of a transaction (R49). `op` is the opcode; `dirty` says that a request outside wrote the entry or
that a handle-state field moved since (R50). -/
structure Staged where
  op : Nat
  item : Item
  made : Nat
  dirty : Bool
deriving DecidableEq, Repr

/-- A transaction (R49 to R53). State: 0 open, 1 scheduled, 2 committed, 3 failed. `bad` is 256 * index + subindex of the item at
which a commit failed, 0 where none did. -/
structure Tx where
  id : Nat
  owner : Nat
  role : Nat
  part : Nat
  state : Nat
  status : Nat
  items : List Staged
  active : Nat
  ended : Nat
  bad : Nat
deriving DecidableEq, Repr

/-- How a response goes back: as a response of the request's transport, in an MCTP message, in a tagged datagram, in the
mailbox's response window, or by the return route of a Rill control packet (R58, R59). DESIGN CHOICE (log 8). -/
inductive Carry where
  | plain | mctp | udp | mailbox
  | rill (h : Rill)
deriving DecidableEq, Repr

/-- A request whose response waits: for its turn at the buffer pool manager (R393), a pool's refill or a stack (R392, R527), a
domain (R526), a copy (R409) or a window's Closing (R360): the request, its opcode, how its response goes back, its items still
to run, the answers so far, and the core cycle since which it waits. DEDUCED (log 36). -/
structure Parked where
  req : Req
  op : Nat
  carry : Carry
  items : List Item
  done : List RItem
  since : Nat
deriving DecidableEq, Repr

/-- A right of one role on a run of indices (R34), first match wins: 0 none, 1 read, 2 read and write. PRESUMED (log 21). -/
structure RightRec where
  role : Nat
  lo : Nat
  hi : Nat
  right : Nat
deriving DecidableEq, Repr

/-- A request taken from an MCTP endpoint (R58): its endpoint and tag, and its response once it is ready, which leaves when
those of the requests before it from the same endpoint have left. -/
structure MctpSlot where
  eid : Nat
  tag : Nat
  resp : Option (List Byte)
deriving DecidableEq, Repr

/-- The Curator's service (R37, R49, R58, R59, R475 to R489). `restarting` holds from a restart of the general cores until
they are ready, `fwWatch` the FT of an activation and the slot before it, `identity` that the identity key exists, `spdm`
how far the SPDM negotiation went, `dgAt` and `dgCount` the second and its datagrams, `views` the ports whose implicit
session is in view mode (R451, R601), `overruns` the doorbells that came while busy (R59), `late` scheduled commits whose FT came in
the middle of a request (R52), `mctpOut` the requests of MCTP endpoints that are not answered yet (R58), `noteTag` the message
tag of the next NOTIFY over MCTP (R60). -/
structure MgmtSt where
  sessions : List Session
  nextSession : Nat
  txs : List Tx
  nextTx : Nat
  endSeq : Nat
  rights : List RightRec
  failures : List Nat
  lockAt : Option Nat
  reqWindow : List Byte
  respWindow : List Byte
  busy : Bool
  overrun : Bool
  respLen : Nat
  stuckAt : Option Nat
  recoverAt : Nat
  sbFailed : Bool
  parked : List Parked
  restarting : Bool
  fwWatch : Option (Nat × Nat)
  identity : Bool
  spdm : Nat
  dgAt : Nat
  dgCount : Nat
  views : List Nat
  overruns : Nat
  late : List Nat
  mctpOut : List MctpSlot
  noteTag : Nat
deriving DecidableEq, Repr

/-- A record staged for a host ring (R493): its buffer and pool, type, port, for a NOTIFY its session and items, and its
bytes. -/
structure RingRec where
  buf : Nat
  pool : Nat
  typ : Nat
  port : Nat
  sess : Nat
  cnt : Nat
  bytes : List Byte
deriving DecidableEq, Repr

/-- A host ring (R492 to R497): tail, head and flags of BAR0, posted entries not yet taken, staged records, the FT of the
first write-back not signalled, and on ring 3 the descriptors (index, entry) and bytes of the frame in progress. -/
structure RingRt where
  tail : Nat
  head : Nat
  flags : Nat
  stopped : Bool
  posted : List (List Byte)
  staged : List RingRec
  irqAt : Option Nat
  acc : List (Nat × List Byte)
  accBytes : List Byte
deriving DecidableEq, Repr

/-- The fault collector (R503 to R512): a pending chip reset with its source, the reset history of each unit, resets in
progress, the external level of FAULT_N with its times, the sources injected for the next core cycle (R513), and whether the FN7
drives FAULT_N low on this core cycle (R507). -/
structure FaultSt where
  pendingReset : Option (Nat × Nat)
  history : List (Nat × Nat)
  resetting : List Nat
  extLow : Bool
  lowSince : Option Nat
  samplingSince : Nat
  injected : List Nat
  drive : Bool
deriving DecidableEq, Repr

/-- A Tier 2 line that a read asked the expander for (R370, R372): the line number, the data at its serialisation point,
whether the fill is to be discarded, and whether it has returned. -/
structure Fill where
  line : Nat
  data : List Byte
  drop : Bool
  done : Bool
deriving DecidableEq, Repr

/-- An access that the window logic has accepted and not completed (R361, R362). `due` is the FT at which a Weir access
completes (R430), 0 for others; `reach` says that it reaches its serialisation points on this core cycle (R367), and what its code
shows. -/
structure MemAcc where
  id : Nat
  inp : Nat
  h : Rill
  payload : List Byte
  win : Nat
  at_ : Nat
  fills : List Fill
  due : Nat
  fail : Bool
  bad : Bool
  reach : Option EccCheck
deriving DecidableEq, Repr

/-- A host aperture access held for a stack in retention (R527). -/
structure ApAcc where
  write : Bool
  off : Nat
  len : Nat
  data : List Byte
deriving DecidableEq, Repr

/-- The window logic (R358 to R381): accepted accesses, the read cache's lines per set (most recent first), timeouts in a
row per CXL port, windows whose forced destruction waits out Closing, ports being disabled, and held aperture accesses. -/
structure MemSt where
  nextId : Nat
  accs : List MemAcc
  lines : NMap (List Nat)
  toRow : NMap Nat
  dying : List Nat
  disabling : List Nat
  apHeld : List ApAcc
deriving DecidableEq, Repr

/-- One pool's caches and their ring pointers (R392): head and tail cache, head and tail pointer, and whether a refill is
under way. `filled` says that the pool has been Active. -/
structure PoolRt where
  head : List Nat
  tail : List Nat
  headPtr : Nat
  tailPtr : Nat
  refill : Bool
  filled : Bool
deriving DecidableEq, Repr

/-- A Mill job (R320 to R327): its request header (for a packet job), its template, descriptor words, inline bytes, the
epilogue's collective, segment and FP32 values, and while it runs the windows, the token range and the Mills it holds.
State: 0 queued, 1 running; `free` is how many Mills were free when it started (R342). -/
structure Job where
  id : Nat
  h : Rill
  epi : Option (Nat × Nat)
  vals : List Nat
  tmpl : Option Nat
  desc : List Nat
  inline : List Byte
  part : Nat
  cls : Nat
  layer : Nat
  op : Nat
  at_ : Nat
  state : Nat
  wins : List Nat
  seq : Option Nat
  tok : Nat × Nat
  mills : List Nat
  pinned : Bool
  free : Nat
deriving DecidableEq, Repr

/-- A segment on its way to the Mills, or its result on its way back (R249): the job's number, the collective and the segment,
the bytes of the segment's values, those that have crossed, and the bytes of the result that have. -/
structure EpiRun where
  id : Nat
  coll : Nat
  seg : Nat
  want : Nat
  got : List Byte
  back : List Byte
deriving DecidableEq, Repr

/-- The job dispatcher (R327), with the segments that cross to the Mills and back (R249). -/
structure MillSt where
  nextId : Nat
  jobs : List Job
  runs : List EpiRun
deriving DecidableEq, Repr

/-- What an epilogue job returns to its engine: the result bytes and its counts (R249, R288). -/
structure EpiOut where
  bytes : List Byte
  sat : Nat
  flush : Nat
  nan : Nat
deriving DecidableEq, Repr

/-- A partial of one head (R278): output vector, maximum and sum, in FP32. An empty partial has l = 0 and m = −∞. -/
structure Part1 where
  o : List Nat
  m : Nat
  l : Nat
deriving DecidableEq, Repr

/-- Contribution bytes that landed and wait in their slot (R244): contributor, offset in the segment, bytes. -/
structure Landed where
  who : Nat
  off : Nat
  bytes : List Byte
deriving DecidableEq, Repr

/-- A begun segment (R239 to R258): FT of its first granule, the laggard timeout in force, how often each granule of each
contributor landed (key contributor * 2^32 + granule), granules per contributor, FT of each contributor's last granule,
staged bytes in landing order, FP32 accumulators, merge heads, elements accepted, events so far, and the epilogue's
return. Stage: 0 collecting, 1 epilogue running, 2 epilogue held, 3 awaiting the owner or a release, 4 epilogue returned. -/
structure Seg where
  idx : Nat
  first : Nat
  timeout : Nat
  got : NMap Nat
  n : NMap Nat
  last : NMap Nat
  staged : List Landed
  acc : NMap Nat
  heads : NMap Part1
  ops : Nat
  sat : Nat
  flush : Nat
  nan : Nat
  stage : Nat
  ret : Option (Nat × EpiOut)
  rows : NMap Nat
deriving DecidableEq, Repr

/-- An entry of an inverse map (R255): destination position and row, source position and row, gate weight. -/
structure InvEnt where
  dpos : Nat
  drow : Nat
  spos : Nat
  srow : Nat
  weight : Nat
deriving DecidableEq, Repr

/-- The run-time state of a collective (R229 to R261): begun segments, ended segments with their statuses, skew sums,
per-position last arrivals, histogram, granules held, overflow buffers (pool, address), limits held for peers, rows
delivered, and for a combine the inverse map of the last completed dispatch run and of the run in progress. -/
structure CollRt where
  segs : List Seg
  ended : NMap Nat
  skewMax : Nat
  skewSum : Nat
  skewN : Nat
  lastCnt : NMap Nat
  hist : NMap Nat
  gran : Nat
  overBufs : List (Nat × Nat)
  peerLim : NMap Nat
  delivered : NMap Nat
  inv : List InvEnt
  invNew : List InvEnt
deriving DecidableEq, Repr

/-- Work that a command leaves for the settling of the same command: effects on units other than its own. -/
inductive Todo where
  | blockReset (unit : Nat)
  | memberLost (port : Nat)
  | ftLoaded (old new : Nat)
  | syncLeft
  | launch
  | record (kind part layer op handle port : Nat) (body : List Byte)
  | wakeEvent (src : Nat)
  | scanOpens
  | arrive (port : Nat) (bytes : List Byte) (crc : Nat) (words : List (Nat × List Nat)) (idle startFt : Nat)
  | arriveEth (port : Nat) (bytes : List Byte) (fcs : Nat) (words : List (Nat × List Nat)) (startFt : Nat)
  | crossed (out : Nat) (what : Inner) (bytes : List Byte)
  | millFault (mill : Nat)
  | deliver (port : Nat) (h : Rill) (payload : List Byte) (startFt : Nat)
  | barrierRelease (h : Nat)
  | mrDigest (port : Nat) (payload : List Byte)
  | poolFailed (h : Nat)
  | controlClose (port : Nat)
  | hostRecord (ring typ port sess cnt : Nat) (bytes : List Byte)
  | archiveRing
  | datagram (src : Nat) (bytes : List Byte)
  | chipReset (cause : Nat)
  | forceDestroy (t i : Nat)
  | gaugeTx (port : Nat) (b : Body) (stomped : Bool)
  | digest (port : Nat) (b : Body) (weir : Bool)
  | arriveTunnel (port : Nat) (bytes : List Byte) (outer : Nat) (stomp : Bool) (startFt : Nat)
  | cxlLost (c : Nat)
  | stackFailed (h : Nat)
  | seqFailed (h : Nat)
  | upkeep
  | routerMap (coll : Nat) (bytes : List Byte)
  | ringTake (ring : Nat)
  | recableLimit
deriving DecidableEq, Repr

/-- A grant on its way: the plane, the packet, and the core cycle on which the cell crosses (R179). -/
structure Grant where
  plane : Nat
  pkt : Nat
  due : Nat
deriving DecidableEq, Repr

/-- An Ethernet frame that the MAC has accepted and that is not placed yet (R121, R174, R208): its port, VLAN, PCP, DEI and class,
the FT of its start, the core cycle on which its first cell landed, and whether it ended bad after its head had left. -/
structure EthIn where
  port : Nat
  bytes : List Byte
  vlan : Nat
  pcp : Nat
  dei : Nat
  cls : Nat
  startFt : Nat
  cyc : Nat
  stomp : Bool
deriving DecidableEq, Repr

/-- What is tested for placement when the core cycle ends (R185, R211): a Rill packet that passed checks 1 to 6, with the bytes
that its frame had and whether its frame ended bad after the header had left; an Ethernet frame; a packet that left the Eddy or
the queue of a port that left service. -/
inductive TryKind where
  | rill (n bundle : Nat) (h : Rill) (payload : List Byte) (len : Nat) (stomp : Bool) (startFt : Nat)
  | eth (f : EthIn)
  | again (p : Pkt)
deriving DecidableEq, Repr

/-- A placement to test, with its place in the order of R185: the ingress port below 1,024, or 16 times the crossbar input. -/
structure Try where
  key : Nat
  kind : TryKind
deriving DecidableEq, Repr

/-- The switch core beside its entries (R173 to R181): packets in queues, the Eddy, in-flight grants, round-robin
pointers per plane, internal accounts as (minimum used, shared used), packets that wait at internal sources in their order
(`held`, R186), placements of this core cycle (`tries`, R185), frames on the landing reserve (`landing`, R174, R208), and the
shared cells of each queue that yellow and red, and red, packets hold (`hued`, R184). `factor` and `delaySum` are kept per
port. -/
structure SwSt where
  nextPkt : Nat
  pkts : List Pkt
  eddy : List EddyPkt
  grants : List Grant
  outPtr : NMap Nat
  inPtr : NMap Nat
  portPtr : NMap Nat
  intUsed : NMap (Nat × Nat)
  held : List Pkt
  lfsr : NMap Nat
  wrr : NMap Int
  factor : NMap Nat
  adaptAt : NMap Nat
  delaySum : NMap (Nat × Nat)
  ceSeen : NMap Nat
  faultCnt : NMap Nat
  faultWin : NMap Nat
  avgAt : NMap Nat
  tries : List Try
  landing : List EthIn
  hued : NMap (Nat × Nat)
deriving DecidableEq, Repr

/-- One egress queue's scheduling state (R203 to R206, R213): shaper credit in 1/65,536 byte with its remainder and the
FT up to which it is counted, the deficit of round robin, and what the interval has seen. -/
structure QueueRt where
  credit : Int
  rem : Nat
  at_ : Nat
  mode : Nat
  deficit : Nat
  maxDepth : Nat
  sojSum : Nat
  sojMax : Nat
  departs : Nat
  waited : Bool
deriving DecidableEq, Repr

/-- One port's transmitter (R204 to R207): the named queue, the packet in transmission with its start and end (in
1/1,000 ns) and what it still had to send at an FT (`left`, in 1/65,536 byte, at `leftAt`), port credit, class deficits, and
round-robin visit marks. -/
structure PortTx where
  named : Option Nat
  txPkt : Option Nat
  startAt : Nat
  endAt : Nat
  left : Nat
  leftAt : Nat
  credit : Int
  rem : Nat
  at_ : Nat
  clsDef : NMap Nat
  clsTurn : Nat
  subTurn : NMap Nat
deriving DecidableEq, Repr

/-- A policer's buckets in 1/65,536 byte with remainders (R209). -/
structure PolicerRt where
  tc : Nat
  tp : Nat
  rc : Nat
  rp : Nat
  last : Nat
deriving DecidableEq, Repr

/-- A running gate schedule (R215, R218, R219): the alternate of a pending switch with the entry that ends the segment in which the
request landed, the FT at which the present entry ends, and the list and core cycle of the switch that started it. -/
structure GateRt where
  pend : Option Nat
  last : Nat
  boundary : Nat
  came : Option (Nat × Nat)
deriving DecidableEq, Repr

/-- A sampler (R191): packets until the next sample, its generator, its record count. -/
structure SamplerRt where
  count : Nat
  gen : Nat
  seq : Nat
deriving DecidableEq, Repr

structure QueueSt where
  q : NMap QueueRt
  tx : NMap PortTx
  pol : NMap PolicerRt
  gate : NMap GateRt
  samp : NMap SamplerRt
  sampleAt : Nat
deriving DecidableEq, Repr

/-- One configured port's link state (R113, R119, R130 to R135). Maps have bit k for lane k of the port: `good` own
receive-good, `partner` the partner's last rx_good, `txMap` lanes transmitted on, `rxMap` the partner's last tx_map.
`holdAt` is the FT since which every lane of the port has been good, `markAt` the FT of the next marker in 1/10 ns; `noted` the
width of the last degraded notice, `restoring` that an Ethernet-mode port retrains by `port.restore` (R134). -/
structure PortRt where
  good : Nat
  partner : Nat
  partnerFlag : Bool
  txMap : Nat
  rxMap : Nat
  ready : Bool
  holdAt : Option Nat
  trainAt : Nat
  partialAt : Option Nat
  loopLocked : Bool
  markSeq : Nat
  markAt : Nat
  noted : Nat
  restoring : Bool
deriving DecidableEq, Repr

/-- The running Weir schedule (R421 to R433): the core cycle at which the current cycle began, its slots and table (key 96 *
slot + input), the cycle awaited after a load of FT, whether a stop waits for the cycle's end, the link pointer of each bundle,
the round-robin pointer of each (input, output), the FT at which each engine's last Weir segment ended, and a core cycle on
which the committed tables changed with the slots and the table before it (R422). -/
structure WeirSt where
  base : Nat
  s : Nat
  table : NMap Nat
  realign : Option Nat
  stopping : Bool
  rr : NMap Nat
  voq : NMap Nat
  engEnd : NMap Nat
  prior : Option (Nat × Nat × NMap Nat)
deriving DecidableEq, Repr

/-- Lock-step (R437 to R441): the Weir cycle at which window 0 began, the window after which it stops, windows closed, the
window below which every one is compared or skipped and the later ones (`done`) that are, the CRC registers of open and waiting
windows, and the digests that arrived (keys 1024 * window + port). -/
structure LockSt where
  w0 : Option Nat
  stopAfter : Option Nat
  closed : Nat
  compared : Nat
  reg : NMap Nat
  remote : NMap Nat
  done : List Nat
deriving DecidableEq, Repr

/-- A trace session (R455 to R459): the buffer being filled, bytes used in it, FT of its first and last record, its
records, records lost since the previous buffer, buffers begun, records emitted, published buffers, packets seen per port; records
on their way to the Archive, writes on their way to each buffer, full buffers that are not published yet, and the FT of a close that
waits for records on their way. -/
structure TraceRt where
  buf : Option Nat
  used : Nat
  first : Nat
  last : Nat
  count : Nat
  lost : Nat
  bufSeq : Nat
  recSeq : Nat
  queue : List Nat
  seen : NMap Nat
  flying : Nat
  writes : NMap Nat
  full : List Nat
  closing : Option Nat
deriving DecidableEq, Repr

/-- Snapshots (R449 to R452): what a firing captured and the shadows do not show yet, the shadows (store keys), the
attribution table with them, the handles that were live, and the FT of the last snapshot. -/
structure SnapSt where
  cap : Option (NMap Nat)
  capAttr : NMap AttrRec
  capLive : List Nat
  capFt : Nat
  shadow : NMap Nat
  attr : NMap AttrRec
  live : List Nat
  taken : Bool
  lastFt : Option Nat
deriving DecidableEq, Repr

/-- The Archive (R459): the sessions, and the crossbar cells taken, by core cycle. -/
structure ArcSt where
  tr : NMap TraceRt
  used : List (Nat × Nat)
deriving DecidableEq, Repr

/-- A Running Spring stream (R465 to R467): its anchor, packets created, and whether it shares its payload buffer. -/
structure SpringRt where
  anchor : Nat
  made : Nat
  share : Bool
deriving DecidableEq, Repr

/-- A packet that Spring created and has not placed (R466): its stream, the core cycle of creation, the packet. -/
structure SpringPkt where
  slot : Nat
  cyc : Nat
  pkt : Pkt
deriving DecidableEq, Repr

/-- Spring and Gauge (R463 to R472): the streams, packets not placed yet, the core cycle and due FT of the last creation,
and per check the 64-bit map of sequences seen. -/
structure SpringSt where
  rt : NMap SpringRt
  wait : List SpringPkt
  lastCyc : Option Nat
  lastDue : Nat
  seen : NMap Nat
deriving DecidableEq, Repr

/-- An entry in progress (R522): its target (0xFF for a domain request), the domains to go, the FT at which the drain
began, and the accesses to Tier 1 that it waits for. -/
structure PwrEntry where
  target : Nat
  doms : List Nat
  at_ : Nat
  accs : List Nat
deriving DecidableEq, Repr

/-- A domain under restore (R528, R529): its admission FT, its restore delay, and whether its rail is good. -/
structure Ramp where
  dom : Nat
  at_ : Nat
  delay : Nat
  good : Bool
deriving DecidableEq, Repr

/-- What a domain's regulator, body bias and SRAM assist are set to (R519): the rail and the bias in mV, forward bias positive.
A rail of 0 mV is off. -/
structure DomSet where
  rail : Nat
  bias : Int
  writeAssist : Bool
  readAssist : Bool
deriving DecidableEq, Repr

/-- The power manager (R520 to R536): the entry in progress, the state an exit leads to, domains waiting for admission,
domains under restore, whether shedding is in force with the groups it took and the FT of its assertion, whether the hold
action has been taken, the core cycle of the last wake event, and CXL ports restored from P3 whose next
device becomes Active (R529), whether the FN7 has tripped (R594), whether VDD_SD is below its range, the FT since which
an I/O die waits for it (R584), and the settings of each domain that R519 gives any. -/
structure PwrSt where
  entry : Option PwrEntry
  exit_ : Option Nat
  waiting : List Nat
  ramps : List Ramp
  shed : Bool
  shedAt : Nat
  held : Bool
  wakeCyc : Option Nat
  fresh : List Nat
  trip : Bool
  sdLow : Bool
  sdWait : Option Nat
  sets : NMap DomSet
deriving DecidableEq, Repr

/-- Self-test and repair beside the entries (R541 to R549): partitions still to test, FT of the test's start, lowest rail,
partitions tested, partitions that mismatched, whether a wake event waits, repair lanes used per UCIe module (key 64 * join +
module; joins 0 to 3 to the I/O dies, 4 to 7 to the Mill dies), retired modules, bytes of the repair record written, the FTs of
the corrected errors of a row within the last hour, the rows that the record holds as pending, and the 64 KiB blocks of the
Reservoir that are withheld (R549). -/
structure StSt where
  parts : List Nat
  start : Nat
  rail : Nat
  tested : Nat
  failed : List Nat
  woken : Bool
  lanes : NMap Nat
  retired : List Nat
  recLen : Nat
  errs : NMap (List Nat)
  pend : List Nat
  rsvOut : Nat
deriving DecidableEq, Repr

/-- The start (R564 to R572, R583): ns since the release of reset and since the stage began, whether a low supply holds the
FN7 in reset, whether AON is without power, and whether the boot ROM has gone over to the other slot in stage 2. -/
structure BootSt where
  ns : Nat
  stageNs : Nat
  hold : Bool
  off : Bool
  swapped : Bool
deriving DecidableEq, Repr

/-- Throttling (R593): FT since which `therm.max` is at or above the throttle point, FT since which it is 3 °C or more below
it, and the FT up to which `therm.throttle_ns` is counted. -/
structure ThermSt where
  hotAt : Option Nat
  coolAt : Option Nat
  at_ : Nat
deriving DecidableEq, Repr

/-- The whole state of the block: the queue of waiting commands (log 1), the outputs so far (log 157), work left within a command
(log 3), the counter of free values (log 16), the variant (log 12), and the units' states. -/
structure State where
  pending : List Instr
  out : List Output
  todo : List Todo
  freeCtr : Nat
  part : Part
  cyc : Cyc
  cat : NMap Nat
  mem : List Host.Cell
  sched : List Act
  schedSeq : Nat
  time : TimeSt
  hs : HandleSt
  mgmt : MgmtSt
  flt : FaultSt
  launches : List LaunchRec
  aborted : List (Nat × Nat)
  mr : List MrPort
  sw : SwSt
  qs : QueueSt
  ports : NMap PortRt
  refLost : List Nat
  groupsOut : List Nat
  macSeen : NMap Nat
  macWritten : List (Nat × Nat)
  macLearnt : List Nat
  ms : MemSt
  pools : NMap PoolRt
  copying : NMap (Nat × Nat)
  attr : NMap AttrRec
  mill : MillSt
  coll : NMap CollRt
  epiHeld : List (Nat × Nat × List Nat)
  weir : WeirSt
  lock : LockSt
  arc : ArcSt
  snap : SnapSt
  spring : SpringSt
  rings : NMap RingRt
  pwr : PwrSt
  st : StSt
  boot : BootSt
  therm : ThermSt
deriving DecidableEq, Repr

/-- A Millrace port at power-up: in Detect (R89). -/
def MrPort.reset : MrPort :=
  ⟨false, 0, 0, false, false, [], 0, 0, 0, false, [], none, false, (false, false), (false, false), 0, [], 0⟩

/-- The block right after power-up (R564): every entry at its default, FT 0 and unsynchronised, Millrace in Detect, no
handle, no session, memory with nothing listed, and the start in stage 1. DESIGN CHOICE (log 10, 14, 19). -/
def State.reset : State where
  pending := []
  out := []
  todo := []
  freeCtr := 0
  part := .fn84
  cyc := ⟨0, [], [], [], false, [], [], [], [], false⟩
  cat := []
  mem := []
  sched := []
  schedSeq := 0
  time := ⟨0, 0, 0, 0, 0, 0, [⟨0, false, 0, 0, false⟩, ⟨0, false, 0, 0, false⟩], 0, false, 0, none⟩
  hs := ⟨[], [], [], [], 4195240⟩
  mgmt := ⟨[], 1, [], 1, 0, [], [], none, [], [], false, false, 0, none, 0, false, [], false, none, true, 0, 0, 0, [], 0, [], [], 0⟩
  flt := ⟨none, [], [], false, none, 0, [], false⟩
  launches := []
  aborted := []
  mr := List.replicate 8 MrPort.reset
  sw := ⟨1, [], [], [], [], [], [], [], [], [], [], [], [], [], [], [], [], [], [], [], []⟩
  qs := ⟨[], [], [], [], [], 0⟩
  ports := []
  refLost := []
  groupsOut := []
  macSeen := []
  macWritten := []
  macLearnt := []
  ms := ⟨0, [], [], [], [], [], []⟩
  pools := []
  copying := []
  attr := []
  mill := ⟨1, [], []⟩
  coll := []
  epiHeld := []
  weir := ⟨0, 0, [], none, false, [], [], [], none⟩
  lock := ⟨none, none, 0, 0, [], [], []⟩
  arc := ⟨[], []⟩
  snap := ⟨none, [], [], 0, [], [], [], false, none⟩
  spring := ⟨[], [], none, 0, []⟩
  rings := []
  pwr := ⟨none, none, [], [], false, 0, false, none, [], false, false, none, [(1, ⟨750, 0, false, false⟩)]⟩
  st := ⟨[], 0, 0, 0, [], false, [], [], 0, [], [], 0⟩
  boot := ⟨0, 0, false, false, false⟩
  therm := ⟨none, none, 0⟩

end Sys2Proof.Machine
end

