-- ==== Sys2Proof/Machine/Ops.lean ====
section
/-!
DEFINITION. The named operations on the Catalogue store, on handles, on the list of what leaves the block, on scheduled
actions and on free values. Every read and write of an entry by a command goes through these.
-/

namespace Sys2Proof.Machine

/-- Is HBM stack h fitted (R6)? DESIGN CHOICE (log 12). -/
def hbmFitted (p : Part) (h : Nat) : Bool :=
  match p with
  | .fn44 => h < 8 && h % 2 == 0
  | _ => h < 8

/-- How many I/O dies are fitted (R5). DESIGN CHOICE (log 12). -/
def iodCount : Part → Nat
  | .fn84 => 4
  | .fn83 => 3
  | .fn82 => 2
  | .fn44 => 4

/-- Is the lane fitted (R5). -/
def laneFitted (p : Part) (l : Nat) : Bool := l < 256 * iodCount p

/-- The default severity of a fault source (R502); reserved sources read 0. -/
def sevDefault (src : Nat) : Nat :=
  if src = 0 then 3 else if src = 1 then 1 else if src = 2 then 2
  else if 64 ≤ src ∧ src ≤ 71 then [0, 2, 1, 0, 1, 1, 2, 2].getD (src - 64) 0
  else if 128 ≤ src ∧ src ≤ 136 then [1, 1, 2, 2, 2, 2, 1, 1, 0].getD (src - 128) 0
  else if 192 ≤ src ∧ src ≤ 195 then 1
  else if 256 ≤ src ∧ src ≤ 258 then 2
  else if 320 ≤ src ∧ src ≤ 327 then 1
  else if 384 ≤ src ∧ src ≤ 387 then 2
  else if 448 ≤ src ∧ src ≤ 455 then 2
  else if 456 ≤ src ∧ src ≤ 460 then [1, 1, 2, 1, 0].getD (src - 456) 0
  else if 461 ≤ src ∧ src ≤ 468 then 2
  else if 469 ≤ src ∧ src ≤ 472 then [0, 1, 1, 2].getD (src - 469) 0
  else if src = 473 then 2
  else if 512 ≤ src ∧ src ≤ 519 then [2, 1, 1, 2, 2, 1, 1, 2].getD (src - 512) 0
  else if src = 520 then 2 else if src = 521 then 1
  else if 522 ≤ src ∧ src ≤ 524 then [1, 2, 1].getD (src - 522) 0
  else if 576 ≤ src ∧ src ≤ 632 then 2
  else if src = 637 then 1 else if src = 638 then 3 else if src = 639 then 1
  else if 640 ≤ src ∧ src ≤ 642 then 2 else if src = 643 then 0
  else if 704 ≤ src ∧ src ≤ 711 then 2
  else if src = 712 then 3 else if src = 713 then 2
  else if src = 768 then 0 else if src = 832 then 1
  else if src = 896 then 2 else if src = 897 then 1 else if src = 898 then 1
  else 0

/-- Does the source table name the source (R501, R502)? -/
def sourceKnown (src : Nat) : Bool :=
  src ≤ 2 || (64 ≤ src && src ≤ 71) || (128 ≤ src && src ≤ 136) || (192 ≤ src && src ≤ 195) ||
  (256 ≤ src && src ≤ 258) || (320 ≤ src && src ≤ 327) || (384 ≤ src && src ≤ 387) || (448 ≤ src && src ≤ 473) ||
  (512 ≤ src && src ≤ 524) || (576 ≤ src && src ≤ 632) || (637 ≤ src && src ≤ 643) || (704 ≤ src && src ≤ 713) ||
  src == 768 || src == 832 || (896 ≤ src && src ≤ 898) || (960 ≤ src && src ≤ 1023)

/-- The default reaction mask of a severity (R504). -/
def maskDefault (sev : Nat) : Nat := [0x00, 0x01, 0x03, 0x13].getD sev 0

/-- A string of ASCII codes as a number, first character least significant. -/
def asciiLe (l : List Nat) : Nat := l.foldr (fun b n => b + 256 * n) 0

/-- The name of power domain k, as a number (R516, R538). -/
def domName (k : Nat) : Nat :=
  let dig := fun n => 48 + n
  if k = 0 then asciiLe [65, 79, 78]
  else if k = 1 then asciiLe [77, 71, 77, 84]
  else if k = 2 then asciiLe [77, 82, 65, 67, 69]
  else if k = 3 then asciiLe [67, 79, 82, 69]
  else if k = 4 then asciiLe [72, 79, 83, 84]
  else if k ≤ 8 then asciiLe [82, 83, 86, dig (k - 5)]
  else if k ≤ 16 then asciiLe [67, 70, 76, dig (k - 9)]
  else if k ≤ 20 then asciiLe [73, 79, 68, dig (k - 17)]
  else if k ≤ 40 then asciiLe [77, 73, 76, 76, dig ((k - 21) / 5), 71, dig ((k - 21) % 5)]
  else if k ≤ 48 then asciiLe [72, 66, 77, dig (k - 41)]
  else if k ≤ 56 then asciiLe [67, 88, 76, dig (k - 49)]
  else 0

/-- Restore delay, ramp window and cost of power domain k (R516), HBMh from retention. -/
def domFigures (k : Nat) : Nat × Nat × Nat :=
  if k < 3 then (0, 0, 0)
  else if k = 3 then (40000, 4000, 60)
  else if k = 4 then (20000, 1000, 5)
  else if k ≤ 8 then (8000, 2000, 20)
  else if k ≤ 16 then (4000, 1000, 10)
  else if k ≤ 20 then (20000, 4000, 40)
  else if k ≤ 40 then (if (k - 21) % 5 = 0 then (6000, 1000, 15) else (10000, 2000, 30))
  else if k ≤ 48 then (15000, 2000, 12)
  else (5000, 1000, 6)

/-- Is power domain k fitted (R5, R6)? -/
def domFitted (p : Part) (k : Nat) : Bool :=
  if 17 ≤ k ∧ k ≤ 20 then k - 17 < iodCount p
  else if 41 ≤ k ∧ k ≤ 48 then hbmFitted p (k - 41)
  else k ≤ 56

/-- Element bits, block, elements per granule and rate class of format f (R293, R315). -/
def fmtRow (f : Nat) : Nat × Nat × Nat × Nat :=
  [(32, 1, 64, 3), (16, 1, 128, 2), (16, 1, 128, 2), (8, 1, 256, 1), (8, 1, 256, 1), (8, 1, 256, 1),
   (4, 32, 480, 0), (4, 32, 448, 0), (4, 32, 448, 0), (2, 64, 896, 0)].getD f (0, 0, 0, 0)

/-- The name of format f in ASCII (R293). -/
def fmtName (f : Nat) : Nat :=
  asciiLe ([[70, 80, 51, 50], [66, 70, 49, 54], [70, 80, 49, 54], [69, 52, 77, 51], [69, 53, 77, 50], [73, 78, 84, 56],
    [77, 88, 70, 80, 52], [84, 66, 52], [73, 78, 84, 52], [84, 50]].getD f [])

/-- The value that an entry reads while nothing has written it: repeat n, subindex offset k, handle slot inst, byte
offset off of a DOMAIN entry. Entries that differ by variant and not by instance are computed where they are read.
DESIGN CHOICE (log 10, 13). -/
def Ent.dfltAt (e : Ent) (n k inst off : Nat) : Nat :=
  match e.dflt with
  | .v x => x
  | .mrRole => if n < 2 then 1 else 0
  | .queueWeight => if inst % 2 = 0 then 4 else 1
  | .sevTable => sevDefault n
  | .maskTable => maskDefault (sevDefault n)
  | .fmtName => fmtName n
  | .fmtBits => (fmtRow n).1
  | .fmtBlock => (fmtRow n).2.1
  | .fmtGranule => (fmtRow n).2.2.1
  | .fmtRate => (fmtRow n).2.2.2
  | .portMac => Config.portMac n
  | .commMac => Config.commMac
  | .partitionSets => if off % 512 = 0 then 1 else 0
  | .gateList => [0x40, 0x42, 0x0F, 0x00, 0xFF, 0xFF, 0x01, 0x00].getD off 0
  | .shedCap => 0
  | .t1Bytes => 0
  | .domName => domName n
  | .domRestore => (domFigures n).1
  | .domRamp => (domFigures n).2.1
  | .domCost => (domFigures n).2.2
  | .domStatus => if n < 3 then 0 else 1
  | .millState => if n % 68 < 64 then 1 else 0
  | .millLogical => if n % 68 < 64 then 4 * (n % 68) + n / 68 else 0xFFFF
  | .millMap => 2 ^ 64 - 1
  | .laneState => 0
  | .hbmState => 1
  | .thermSensor => 0

/-- The store key of an index, subindex, handle slot and byte offset. -/
def catKey (idx sub inst off : Nat) : Nat := ((idx * 256 + sub) * 2 ^ 20 + inst) * 2 ^ 32 + off

/-- Does an entry's record hold an index and a subindex? -/
def Ent.holds (e : Ent) (idx sub : Nat) : Bool :=
  decide (e.idx ≤ idx) && decide (idx < e.idx + e.rep) && decide (e.sub ≤ sub) &&
  (sub - e.sub) % max 1 e.subStep == 0 && decide ((sub - e.sub) / max 1 e.subStep < e.subN)

/-- The entry at an index and subindex. -/
def entOf (idx sub : Nat) : Option Ent := E.all.find? fun e => e.holds idx sub

/-- The place of an entry: repeat n, subindex offset k, handle slot inst, byte offset off. -/
def Ent.loc (e : Ent) (n k inst off : Nat) : Loc :=
  ⟨catKey (e.idx + n) (e.sub + k * e.subStep) inst off, e.dfltAt n k inst off⟩

/-- A static entry. -/
abbrev Ent.s (e : Ent) : Loc := e.loc 0 0 0 0
/-- Repeat n of a static entry. -/
abbrev Ent.n (e : Ent) (n : Nat) : Loc := e.loc n 0 0 0
/-- Subindex offset k of a static entry. -/
abbrev Ent.k (e : Ent) (k : Nat) : Loc := e.loc 0 k 0 0
/-- Repeat n, subindex offset k. -/
abbrev Ent.nk (e : Ent) (n k : Nat) : Loc := e.loc n k 0 0
/-- The field of handle slot i. -/
abbrev Ent.h (e : Ent) (i : Nat) : Loc := e.loc 0 0 i 0
/-- Subindex offset k of the field of handle slot i. -/
abbrev Ent.hk (e : Ent) (i k : Nat) : Loc := e.loc 0 k i 0

/-- The value of a place. -/
def State.get (s : State) (l : Loc) : Nat := mgetD s.cat l.key l.dflt

/-- The state with a place at v. -/
def State.set (s : State) (l : Loc) (v : Nat) : State := { s with cat := mput s.cat l.key v }

/-- The value of a place as a truth value. -/
def State.getB (s : State) (l : Loc) : Bool := s.get l != 0

/-- A counter advanced by n, modulo 2^64 (R444), and the increment noted for the same-cycle rule (R38). -/
def State.inc (s : State) (l : Loc) (n : Nat) : State :=
  if n = 0 then s else
  let s := s.set l ((s.get l + n) % 2 ^ 64)
  { s with cyc := { s.cyc with incs := mmod s.cyc.incs l.key 0 (· + n) } }

/-- A status value raised by n and not noted (a count that hardware alone writes). -/
def State.add (s : State) (l : Loc) (n : Nat) : State := s.set l (s.get l + n)

/-- A status value lowered by n. -/
def State.sub (s : State) (l : Loc) (n : Nat) : State := s.set l (s.get l - n)

/-- A sticky bit set by hardware, noted for the same-cycle rule (R38). -/
def State.stick (s : State) (l : Loc) (i : Nat) : State :=
  let s := s.set l (setBitAt (s.get l) i)
  { s with cyc := { s.cyc with sticky := mmod s.cyc.sticky l.key 0 (fun m => setBitAt m i) } }

/-- The key of a handle in the handle maps: type and index (R12). -/
def hKey (h : Nat) : Nat := (h / 2 ^ 28 % 16) * 2 ^ 20 + h % 2 ^ 20
/-- Handle type (R12). -/
def hType (h : Nat) : Nat := h / 2 ^ 28 % 16
/-- Handle generation (R12). -/
def hGen (h : Nat) : Nat := h / 2 ^ 20 % 256
/-- Handle index (R12). -/
def hIdx (h : Nat) : Nat := h % 2 ^ 20
/-- The handle word of a type, generation and index (R12). -/
def mkHandle (t g i : Nat) : Nat := t * 2 ^ 28 + g % 256 * 2 ^ 20 + i % 2 ^ 20

/-- A handle-state field moved by hardware (R38, R50): the handle is marked for this cycle, and items staged on it are
marked for their commit. DEDUCED (log 31). -/
def State.hset (s : State) (l : Loc) (t i v : Nat) : State :=
  let s := s.set l v
  let key := t * 2 ^ 20 + i
  let mark := fun (x : Tx) =>
    if x.state ≤ 1 then
      { x with items := x.items.map fun g =>
          if g.item.handle ≠ 0 ∧ hKey g.item.handle = key ∧ (g.op = 2 ∨ g.op = 4 ∨ g.op = 0x11) then
            { g with dirty := true } else g }
    else x
  { s with
    cyc := { s.cyc with touched := key :: s.cyc.touched }
    mgmt := { s.mgmt with txs := s.mgmt.txs.map mark } }

/-- Something leaves the block. DESIGN CHOICE (log 157). -/
def State.emit (s : State) (o : Output) : State := { s with out := s.out ++ [o] }

/-- Work left for the settling of the command. -/
def State.later (s : State) (t : Todo) : State := { s with todo := s.todo ++ [t] }

/-- A write notes the value that a reader of the same core cycle still takes (R407, R512). DEDUCED (log 152). -/
def State.noteOld (s : State) (l : Loc) : State :=
  match mget? s.cyc.old l.key with
  | some _ => s
  | none => { s with cyc := { s.cyc with old := mput s.cyc.old l.key (s.get l) } }

/-- A fresh free value below m (m > 0), and the state with the counter advanced. DESIGN CHOICE (log 16). -/
def State.fresh (s : State) (m : Nat) : Nat × State :=
  (Config.free s.freeCtr % m, { s with freeCtr := s.freeCtr + 1 })

/-- FT now. -/
abbrev State.ft (s : State) : Nat := s.time.ft

/-- The generation that index i of type t now carries (R44): 0x01 until a first destroy. -/
def State.genOf (s : State) (t i : Nat) : Nat := mgetD s.hs.gens (t * 2 ^ 20 + i) 1

/-- The largest index of a handle type, plus one (R40). -/
def handleLimit (t : Nat) : Nat :=
  [0, 16384, 65536, 256, 32768, 16384, 16384, 64, 16384, 4096, 4096].getD t 0

/-- The template index of a handle type (R40). -/
def templateIdx (t : Nat) : Nat :=
  [0, 0x5210, 0x7400, 0x7300, 0x4100, 0xD100, 0xD400, 0xC800, 0x7100, 0x4800, 0x6100].getD t 0

/-- The handle type of a template index, 0 for a static index (R40). -/
def typeOfTemplate (idx : Nat) : Nat :=
  if idx = 0x5210 then 1 else if idx = 0x7400 then 2 else if idx = 0x7300 then 3 else if idx = 0x4100 then 4
  else if idx = 0xD100 then 5 else if idx = 0xD400 then 6 else if idx = 0xC800 then 7 else if idx = 0x7100 then 8
  else if idx = 0x4800 then 9 else if idx = 0x6100 then 10 else 0

/-- Does lane n start a configured port (R129, R137)? -/
def State.isPort (s : State) (n : Nat) : Bool := n < 1024 && s.get (E.port_width.n n) != 0

/-- The live record of type t, index i. Egress-queue flow handles exist while their port is configured, at generation
0x01 and in no partition (R41). -/
def State.liveAt (s : State) (t i : Nat) : Option HRec :=
  if t = 4 ∧ i < 16384 then
    if s.isPort (i / 16) ∧ laneFitted s.part (i / 16) then some ⟨1, 4096⟩ else none
  else mget? s.hs.live (t * 2 ^ 20 + i)

/-- The live record of a handle of type t whose generation is current. -/
def State.liveH (s : State) (t h : Nat) : Option HRec :=
  if hType h = t then
    match s.liveAt t (hIdx h) with
    | some r => if r.gen = hGen h then some r else none
    | none => none
  else none

/-- The handle word of the live index i of type t. -/
def State.wordOf (s : State) (t i : Nat) : Nat := mkHandle t (s.genOf t i) i

/-- The indices of live handles of type t, rising. -/
def State.liveIdx (s : State) (t : Nat) : List Nat :=
  (s.hs.live.filter (fun p => p.1 / 2 ^ 20 = t)).map (fun p => p.1 % 2 ^ 20)

/-- The quiet interval of R44. -/
def quietNs : Nat := 4195240

/-- Order of an action on its firing cycle (R80). Row 4 is split by its own order. -/
def ActKind.rank : ActKind → Nat
  | .snap => 10
  | .commit _ => 20
  | .launch => 30
  | .weirStart => 40
  | .gateStart _ => 41
  | .gateSwitch _ => 41
  | .springStart _ => 42
  | .lockstep => 43
  | .recable => 44
  | .traceOpen _ => 50
  | .traceClose _ => 50
  | .pwrEnter _ => 60
  | .shutdown => 60
  | .fwActivate m => if m = 0 then 70 else 71
  | .rackReset => 71

/-- Does action a fire before action b (R78, R80)? -/
def Act.before (a b : Act) : Bool :=
  a.ft < b.ft || (a.ft == b.ft && (a.kind.rank < b.kind.rank || (a.kind.rank == b.kind.rank && a.seq < b.seq)))

/-- How many scheduled actions are pending (`ft.pending`). -/
def State.pendingActs (s : State) : Nat := s.sched.length

/-- Put an action in the list of pending ones, in firing order. -/
def State.schedule (s : State) (ft : Nat) (k : ActKind) : State :=
  { s with sched := insertBy Act.before ⟨ft, s.schedSeq, k⟩ s.sched, schedSeq := s.schedSeq + 1 }

/-- Drop the pending actions of a kind. -/
def State.unschedule (s : State) (k : ActKind) : State := { s with sched := s.sched.filter (fun a => a.kind ≠ k) }

/-- The FT of the pending action of a kind, if any. -/
def State.schedFt (s : State) (k : ActKind) : Option Nat := (s.sched.find? (fun a => a.kind = k)).map (·.ft)

/-- Armed Millrace launches as actions, so that they take their place in the order of R80. -/
def State.acts (s : State) : List Act :=
  (s.launches.filter (·.armed)).foldl (fun l r => insertBy Act.before ⟨r.target, 0, .launch⟩ l) s.sched

/-- The action that fires next, when its FT has come (R78, R80). -/
def State.dueAct (s : State) : Option Act :=
  match s.acts with
  | a :: _ => if a.ft ≤ s.ft then some a else none
  | [] => none

/-- Is an action of this kind the next one due? -/
def State.isDue (s : State) (k : ActKind) : Bool :=
  match s.dueAct with
  | some a => a.kind = k
  | none => false

/-- The tests of R77 on a named FT, in order: passed, too near, limit of pending actions. -/
def State.ftTest (s : State) (ft : Nat) : Nat :=
  if ft ≤ s.ft then 0x0A
  else if ft < s.ft + 10000 then 0x06
  else if s.pendingActs ≥ 1024 then 0x02
  else 0

/-- The tests of a request that names an FT and needs a state (R55, R77): a passed or near FT is judged with the value (step 7),
the state next (step 8), the limit of pending actions last. DEDUCED (log 20). -/
def State.ftTestIn (s : State) (ft : Nat) (wrong : Bool) : Nat :=
  let r := s.ftTest ft
  if r = 0x0A ∨ r = 0x06 then r else if wrong then 0x0C else r

end Sys2Proof.Machine
end

