-- ==== Sys2Proof/Machine/FaultCore.lean ====
section
/-!
DEFINITION. Raising fault sources and the reactions to a setting (R502 to R512), shared by every family.
-/

namespace Sys2Proof.Machine

/-- The sticky bit of a source (R503). -/
def State.srcSet (s : State) (src : Nat) : Bool := bitAt (s.get (E.fault_sticky.n (src / 64))) (src % 64)

/-- The reaction mask that a setting on this cycle runs: a mask write on the same cycle applies from the next (R512).
DEDUCED (log 152). -/
def State.maskOf (s : State) (src : Nat) : Nat :=
  let l := E.fault_reactions.n src
  mgetD s.cyc.old l.key (s.get l)

/-- The severity that a setting on this cycle reports (R512). -/
def State.sevOf (s : State) (src : Nat) : Nat :=
  let l := E.fault_severity.n src
  mgetD s.cyc.old l.key (s.get l)

/-- The block reset unit of a source (R502): IODn 0 to 3, engines 4 to 11, Mill dies 12 to 15, CXL ports 16 to 23,
stacks 24 to 31. -/
def unitOf (src : Nat) : Option Nat :=
  if 192 ≤ src ∧ src ≤ 195 then some (src - 192)
  else if 320 ≤ src ∧ src ≤ 327 then some (src - 320 + 4)
  else if 384 ≤ src ∧ src ≤ 387 then some (src - 384 + 12)
  else if 448 ≤ src ∧ src ≤ 455 then some (src - 448 + 16)
  else if 461 ≤ src ∧ src ≤ 468 then some (src - 461 + 24)
  else none

/-- The condition under which the FN7 drives FAULT_N low, from the next core cycle (R506, R507): some source has its sticky bit
set and bit 4 in its mask. -/
def State.faultDriven (s : State) : Bool :=
  (List.range 16).any fun b =>
    let w := s.get (E.fault_sticky.n b)
    w != 0 && (bitList 64 w).any (fun k => bitAt (s.get (E.fault_reactions.n (64 * b + k))) 4)

/-- Is the host endpoint enabled: its domain HOST is on (R490, R516). -/
def State.hostOn (s : State) : Bool := s.get (E.pwr_dom_status.n 4) == 0

/-- One session's share of a notification (R510, R511): items of the sources it subscribes, as far as it has room; the
rest are lost. Answers the session, what it sends, and the number of items lost. DEDUCED (log 141). -/
def notifyOne (s : State) (srcs : List Nat) (x : Session) : Session × List (Nat × Nat) × Nat :=
  let want := srcs.filter (fun src => bitAt (mgetD x.masks (src / 64) 0) (src % 64))
  let room := 64 - x.queued
  let fits := want.take room
  let lost := (want.drop room).filter (fun src => src ≠ 643)
  ({ x with noteCount := if fits = [] then x.noteCount else (x.noteCount + 1) % 65536
            queued := match x.via with
              | .mailbox => x.queued + fits.length
              | _ => x.queued },
   fits.map (fun src => (src, s.sevOf src)), lost.length)

/-- The MCTP message type and the enterprise number before a PDU (R58). -/
def mctpPrefix : List Byte := [0x7F, 0x00, 0x01, 0xD4, 0xC3]

/-- A NOTIFY PDU over MCTP (R60): on I3C an in-band interrupt goes before it; the message tag is the FN7's own.
DESIGN CHOICE (log 165). -/
def State.notifyMctp (s : State) (eid : Nat) (pdu : List Byte) : State :=
  let s := if s.get E.mctp_bus.s = 1 then s.emit .inBandIrq else s
  let s := s.emit (.mctpNotify eid s.mgmt.noteTag (mctpPrefix ++ pdu))
  { s with mgmt := { s.mgmt with noteTag := (s.mgmt.noteTag + 1) % 8 } }

/-- A NOTIFY PDU (R54, R57, R60): tag, session, and one item per event. -/
def notifyPdu (tag session : Nat) (items : List (Nat × Nat)) : List Byte :=
  leBytes 1 1 ++ leBytes 1 0x40 ++ leBytes 2 tag ++ leBytes 4 session ++ leBytes 4 0 ++ leBytes 2 items.length ++
  leBytes 2 0 ++ (items.map fun p => leBytes 2 p.1 ++ leBytes 1 p.2 ++ leBytes 9 0).flatten

/-- The notifications of a setting cycle (R506 order 2, R510, R511): one PDU per subscribed session. Answers the state
and whether an item was lost. -/
def State.notify (s : State) (srcs : List Nat) : State × Bool :=
  let step := fun (acc : State × List Session × Nat) (x : Session) =>
    let (x', items, lost) := notifyOne s srcs x
    let st := if items = [] then acc.1 else
      match x.via with
      | .mailbox => acc.1.later (.hostRecord 0 2 0xFFFF x.id items.length (notifyPdu 0 x.id items))
      | .udp =>
        let pdu := notifyPdu x'.noteCount x.id items
        acc.1.emit (.udp x.subVia (pdu ++ (hmac x.key pdu).take 16))
      | .mctp => acc.1.notifyMctp x.subVia (notifyPdu 0 x.id items)
      | .control _ => acc.1
    (st, acc.2.1 ++ [x'], acc.2.2 + lost)
  let (st, sess, lost) := s.mgmt.sessions.foldl step (s, [], 0)
  let st := { st with mgmt := { st.mgmt with sessions := sess } }
  (st.inc E.fault_notify_lost.s lost, lost != 0)

/-- The reactions of a setting (R506), for the sources that set on one cycle, rising. -/
def State.react (s : State) (settings : List Nat) : State × Bool :=
  let masked := fun b => settings.filter (fun src => bitAt (s.maskOf src) b)
  let nots := masked 0
  let (s, lost) := if nots = [] then (s, false) else s.notify nots
  let s := if nots ≠ [] ∧ s.hostOn then s.emit (.irq 5) else s
  let s :=
    match masked 1 with
    | [] => s
    | src :: _ =>
      if s.cyc.trapped then
        let old := s.get E.fault_last_trap.s
        if src < old % 65536 then s.set E.fault_last_trap.s (src + s.ft * 2 ^ 64) else s
      else
        let s := s.set E.fault_last_trap.s (src + s.ft * 2 ^ 64)
        let s := s.inc E.fault_traps.s 1
        { s with cyc := { s.cyc with trapped := true } }
  let s :=
    match masked 3 with
    | [] => s
    | src :: _ =>
      match s.flt.pendingReset with
      | some _ => s
      | none => { s with flt := { s.flt with pendingReset := some (src, s.ft + 10000) } }
  let s := (if masked 3 = [] then masked 2 else []).foldl (fun st src => match unitOf src with
    | some u => st.later (.blockReset u)
    | none => st) s
  let s := settings.foldl (fun st src => st.later (.record 7 0xFFFF 0 0 0 0xFFFF
    (leBytes 2 src ++ leBytes 1 (st.sevOf src) ++ leBytes 13 0))) s
  (s, lost)

/-- Sources raised on one cycle (R502, R503): sticky bits set, settings counted, their reactions run. -/
def State.raiseSet (s : State) (srcs : List Nat) : State × Bool :=
  let srcs := sortBy (fun a b => decide (a < b)) (dedup srcs)
  let settings := srcs.filter (fun src => !s.srcSet src)
  let already := srcs.filter (fun src => s.srcSet src)
  let s := srcs.foldl (fun st src => st.stick (E.fault_sticky.n (src / 64)) (src % 64)) s
  let s := { s with cyc := { s.cyc with again := already ++ s.cyc.again } }
  let s := settings.foldl (fun st src => st.inc (E.fault_sets.n src) 1) s
  if settings = [] then (s, false) else s.react settings

/-- Sources raised on one cycle; a lost notification raises source 643, which feeds no loss of its own (R511).
DEDUCED (log 145). -/
def State.raiseAll (s : State) (srcs : List Nat) : State :=
  let (s, lost) := s.raiseSet srcs
  if lost then (s.raiseSet [643]).1 else s

/-- One source raised. -/
def State.raise (s : State) (src : Nat) : State := s.raiseAll [src]

/-- A flag of `ft.flags` set with its source (R76, R502). -/
def State.ftFlag (s : State) (b : Nat) : State := (s.stick E.ft_flags.s b).raise (512 + b)

/-- A flag of `millrace.flags` of port p set with its source (R111, R502). -/
def State.mrFlag (s : State) (p b : Nat) : State := (s.stick (E.millrace_flags.n p) b).raise (128 + b)

end Sys2Proof.Machine
end

