-- ==== Sys2Proof/Machine/Crc.lean ====
section
/-!
DEFINITION. The checks and pattern generators that the spec names by polynomial: CRC-16 (R92, R140), CRC-8 (R119), CRC-32
(R118), CRC-64, PRBS-31 (R467) and the 32-bit generator of early drop (R188).
-/

namespace Sys2Proof.Machine

/-- One bit into a left-shifting check register of width w. -/
def crcBit (w poly reg : Nat) (b : Bool) : Nat :=
  let top := bitAt reg (w - 1)
  let sh := reg * 2 % 2 ^ w
  if top != b then sh ^^^ poly else sh

/-- One byte, most significant bit first. -/
def crcByte (w poly reg : Nat) (x : Byte) : Nat :=
  [7, 6, 5, 4, 3, 2, 1, 0].foldl (fun r i => crcBit w poly r (bitAt x.toNat i)) reg

/-- CRC-16, polynomial 0x1021, initial value 0xFFFF, no reflection and no final XOR (R92). -/
def crc16 (bs : List Byte) : Nat := bs.foldl (crcByte 16 0x1021) 0xFFFF

/-- CRC-8, polynomial 0x07, initial value 0x00 (R119). -/
def crc8 (bs : List Byte) : Nat := bs.foldl (crcByte 8 0x07) 0

/-- One byte into a right-shifting check register, least significant bit first. -/
def crcByteR (poly reg : Nat) (x : Byte) : Nat :=
  [0, 1, 2, 3, 4, 5, 6, 7].foldl (fun r _ => if r % 2 = 1 then r / 2 ^^^ poly else r / 2) (reg ^^^ x.toNat)

/-- CRC-32 with the IEEE 802.3 FCS polynomial (R118). -/
def crc32 (bs : List Byte) : Nat := bs.foldl (crcByteR 0xEDB88320) 0xFFFFFFFF ^^^ 0xFFFFFFFF

/-- The CRC-64 register of R439 carried over more bytes; it starts at all ones and is inverted at the end. -/
def crc64Run (reg : Nat) (bs : List Byte) : Nat := bs.foldl (crcByteR 0xC96C5795D7870F42) reg

/-- CRC-32C, reflected, initial value and final XOR all ones. -/
def crc32c (bs : List Byte) : Nat := bs.foldl (crcByteR 0x82F63B78) 0xFFFFFFFF ^^^ 0xFFFFFFFF

/-- One step of a 31-bit register for x^31 + x^28 + 1: the output bit is fed back (R467). -/
def prbsStep (r : Nat) : Bool × Nat :=
  let b := bitAt r 30 != bitAt r 27
  (b, (r * 2 + (if b then 1 else 0)) % 2 ^ 31)

/-- The next eight bits of the sequence, the first as the least significant (R467). -/
def prbsByte (r : Nat) : Byte × Nat :=
  let (n, r) := [0, 1, 2, 3, 4, 5, 6, 7].foldl (fun (acc : Nat × Nat) i =>
    let (b, r) := prbsStep acc.2
    (if b then setBitAt acc.1 i else acc.1, r)) (0, r)
  (BitVec.ofNat 8 n, r)

/-- `len` bytes of PRBS-31 from a seed. -/
def prbsBytes : Nat → Nat → List Byte
  | 0, _ => []
  | len + 1, r => (prbsByte r).1 :: prbsBytes len (prbsByte r).2

/-- One step of the 32-bit generator, polynomial x^32 + x^22 + x^2 + x + 1 (R188). -/
def lfsrStep (r : Nat) : Nat :=
  let b := (bitAt r 31 != bitAt r 21) != (bitAt r 1 != bitAt r 0)
  (r * 2 + (if b then 1 else 0)) % 2 ^ 32

/-- The register that a seed loads: 0 loads 1 (R188). DEDUCED (log 77). -/
def lfsrSeed (seed : Nat) : Nat := if seed = 0 then 1 else seed

end Sys2Proof.Machine
end

