-- ==== Sys2Proof/Machine/MrCode.lean ====
section
/-!
DEFINITION. The symbols and frames of Millrace (spec/04_millrace_links.md, R91 to R95, R97, R104): the 8b/10b code, its running
disparity on each lane, the pairs of a frame, and what a receiver reads from the symbols it gets.
-/

namespace Sys2Proof.Machine

/-! ### The line code -/

/-- A symbol before coding: a data byte, or the special symbol K28.y (R91). -/
inductive MrSym where
  | d (b : Nat)
  | k (y : Nat)
deriving DecidableEq, Repr

/-- The comma: it starts an idle pair or an ordinary frame (R91). -/
def symComma : MrSym := .k 5
/-- The symbol that starts a time mark (R91). -/
def symMark : MrSym := .k 1
/-- The symbol that starts a wake frame (R91). -/
def symWake : MrSym := .k 3
/-- Data symbol Dx.y: byte 32 y + x. -/
def symD (x y : Nat) : MrSym := .d (32 * y + x)

/-- The six bits of D0 to D31 at negative running disparity. PRESUMED (log 175): the 8b/10b code that R91 names. -/
def code6 : List Nat :=
  [0b100111, 0b011101, 0b101101, 0b110001, 0b110101, 0b101001, 0b011001, 0b111000,
   0b111001, 0b100101, 0b010101, 0b110100, 0b001101, 0b101100, 0b011100, 0b010111,
   0b011011, 0b100011, 0b010011, 0b110010, 0b001011, 0b101010, 0b011010, 0b111010,
   0b110011, 0b100110, 0b010110, 0b110110, 0b001110, 0b101110, 0b011110, 0b101011]

/-- The four bits of Dx.0 to Dx.7 at negative running disparity. PRESUMED (log 175). -/
def code4 : List Nat := [0b1011, 0b1001, 0b0101, 0b1100, 0b1101, 0b1010, 0b0110, 0b1110]

/-- The ten bits of K28.0 to K28.7 at negative running disparity. PRESUMED (log 175). -/
def codeK : List Nat :=
  [0b0011110100, 0b0011111001, 0b0011110101, 0b0011110011, 0b0011110010, 0b0011111010, 0b0011110110, 0b0011111000]

/-- The six bits of Dx at a running disparity, and the disparity after them. -/
def enc6 (rd : Bool) (x : Nat) : Nat × Bool :=
  let c := code6.getD x 0
  let even := popCount 6 c == 3
  (if rd && (!even || x == 7) then 63 - c else c, if even then rd else !rd)

/-- The four bits of Dx.y at a running disparity, and the disparity after them; y = 7 has an alternate form where five equal bits
would meet. -/
def enc4 (rd : Bool) (x y : Nat) : Nat × Bool :=
  let alt := y == 7 && (if rd then x == 11 || x == 13 || x == 14 else x == 17 || x == 18 || x == 20)
  let c := if alt then 0b0111 else code4.getD y 0
  let even := popCount 4 c == 2
  (if rd && (!even || y == 3) then 15 - c else c, if even then rd else !rd)

/-- A symbol coded at a running disparity: ten bits, the first sent on the left, and the disparity after it (R91). -/
def enc10 (rd : Bool) (a : MrSym) : Nat × Bool :=
  match a with
  | .d b =>
    let h := enc6 rd (b % 32)
    let l := enc4 h.2 (b % 32) (b / 32 % 8)
    (64 / 4 * h.1 + l.1, l.2)
  | .k y =>
    let c := codeK.getD y 0
    (if rd then 1023 - c else c, if popCount 10 c == 5 then rd else !rd)

/-- The symbol that ten bits spell at a running disparity, and the disparity after it; none for an invalid symbol or a disparity
error (R96). -/
def dec10 (rd : Bool) (w : Nat) : Option (MrSym × Bool) :=
  match (List.range 8).find? (fun y => (enc10 rd (.k y)).1 == w) with
  | some y => some (.k y, (enc10 rd (.k y)).2)
  | none =>
    match (List.range 32).find? (fun x => (enc6 rd x).1 == w / 16) with
    | none => none
    | some x =>
      let r := (enc6 rd x).2
      match (List.range 8).find? (fun y => (enc4 r x y).1 == w % 16) with
      | none => none
      | some y => some (symD x y, (enc4 r x y).2)

/-- The pairs of both lanes coded in order, each lane with its own running disparity (R91). -/
def encPairs : Bool × Bool → List (MrSym × MrSym) → List (Nat × Nat) × (Bool × Bool)
  | rd, [] => ([], rd)
  | rd, a :: l =>
    let x := enc10 rd.1 a.1
    let y := enc10 rd.2 a.2
    let r := encPairs (x.2, y.2) l
    ((x.1, y.1) :: r.1, r.2)

/-- The pairs that received symbols spell; none where a symbol is invalid or has the wrong disparity (R96). -/
def decPairs : Bool × Bool → List (Nat × Nat) → Option (List (MrSym × MrSym) × (Bool × Bool))
  | rd, [] => some ([], rd)
  | rd, a :: l =>
    match dec10 rd.1 a.1, dec10 rd.2 a.2 with
    | some x, some y =>
      match decPairs (x.2, y.2) l with
      | some r => some ((x.1, y.1) :: r.1, r.2)
      | none => none
    | _, _ => none

/-! ### Frames -/

/-- The idle pair, the frame of type 0xC5 (R92). -/
def idlePair : MrSym × MrSym := (symComma, symD 5 6)

/-- The two pairs that training repeats (R97): status D21.5, or D10.5 once the own receiver is symbol-locked. -/
def trainingPairs (locked : Bool) : List (MrSym × MrSym) :=
  let st := if locked then symD 10 5 else symD 21 5
  [(symComma, symComma), (st, st)]

/-- The special symbol that starts a frame, as its y (R93). -/
def frameStart : MrFrame → Nat
  | .mark _ => 1
  | .wake => 3
  | _ => 5

/-- The type byte of a frame (R93). -/
def frameType : MrFrame → Nat
  | .mark _ => 0x00
  | .wake => 0x00
  | .capability _ => 0x01
  | .probe _ => 0x02
  | .echo _ _ => 0x03
  | .arm _ _ => 0x10
  | .confirm _ => 0x11
  | .abort _ => 0x12
  | .missed _ => 0x13
  | .arrive _ => 0x18
  | .release _ => 0x19
  | .digest _ => 0x20
  | .sleep => 0x30

/-- The payload of a frame (R93, R104). -/
def framePayload : MrFrame → List Byte
  | .mark ft => leBytes 8 ft
  | .wake => []
  | .capability b => b
  | .probe n => leBytes 2 n ++ leBytes 2 0
  | .echo n t => leBytes 2 n ++ leBytes 2 t
  | .arm q t => leBytes 4 q ++ leBytes 8 t
  | .confirm q => leBytes 4 q
  | .abort q => leBytes 4 q
  | .missed b => b
  | .arrive h => leBytes 4 h
  | .release h => leBytes 4 h
  | .digest b => b
  | .sleep => []

/-- Bytes striped over the lanes: even bytes on lane 0, odd bytes on lane 1 (R91). -/
def stripe : List Byte → List (MrSym × MrSym)
  | a :: b :: l => (.d a.toNat, .d b.toNat) :: stripe l
  | [a] => [(.d a.toNat, .d 0)]
  | [] => []

/-- The check of a frame: CRC-16 over the type byte and the payload (R92). -/
def frameCheck (typ : Nat) (b : List Byte) : Nat := crc16 (BitVec.ofNat 8 typ :: b)

/-- The pairs of a frame (R92, R93): start, payload, check with its low byte on lane 0; a wake frame is four pairs. -/
def framePairs (f : MrFrame) : List (MrSym × MrSym) :=
  if f = .wake then List.replicate 4 (symWake, .d 0)
  else (.k (frameStart f), .d (frameType f)) :: stripe (framePayload f ++ leBytes 2 (frameCheck (frameType f) (framePayload f)))

/-- The bytes of pairs that hold no special symbol; none where one does. -/
def unstripe : List (MrSym × MrSym) → Option (List Byte)
  | [] => some []
  | (.d a, .d b) :: l => (unstripe l).map fun r => BitVec.ofNat 8 a :: BitVec.ofNat 8 b :: r
  | _ :: _ => none

/-- The frame of a start symbol K28.y, a type and a payload; none for an unknown type, a length that is not the type's, and K28.7
(R93, R95). -/
def frameOf (y typ : Nat) (b : List Byte) : Option MrFrame :=
  if y = 1 then (if typ = 0x00 ∧ b.length = 8 then some (.mark (ofLe b)) else none)
  else if y ≠ 5 then none
  else if typ = 0x01 ∧ b.length = 12 then some (.capability b)
  else if typ = 0x02 ∧ b.length = 4 then some (.probe (leAt b 0 2))
  else if typ = 0x03 ∧ b.length = 4 then some (.echo (leAt b 0 2) (leAt b 2 2))
  else if typ = 0x10 ∧ b.length = 12 then some (.arm (leAt b 0 4) (leAt b 4 8))
  else if typ = 0x11 ∧ b.length = 4 then some (.confirm (ofLe b))
  else if typ = 0x12 ∧ b.length = 4 then some (.abort (ofLe b))
  else if typ = 0x13 ∧ b.length = 20 then some (.missed b)
  else if typ = 0x18 ∧ b.length = 4 then some (.arrive (ofLe b))
  else if typ = 0x19 ∧ b.length = 4 then some (.release (ofLe b))
  else if typ = 0x20 ∧ 1 ≤ leAt b 10 1 ∧ leAt b 10 1 ≤ 32 ∧ b.length = 12 + 8 * leAt b 10 1 then some (.digest b)
  else if typ = 0x30 ∧ b = [] then some .sleep
  else none

/-- The frame that pairs spell: the check holds and the type is known (R92, R95); two K28.3 pairs in a row are a wake frame
(R102). -/
def readPairs (l : List (MrSym × MrSym)) : Option MrFrame :=
  match l with
  | (.k y, .d t) :: rest =>
    if y = 3 then (if t = 0 ∧ rest.head? = some (symWake, .d 0) then some .wake else none)
    else
      match unstripe rest with
      | none => none
      | some b =>
        let n := b.length - 2
        if 2 ≤ b.length ∧ leAt b n 2 = frameCheck t (b.take n) then frameOf y t (b.take n) else none
  | _ => none

/-- What a receiver takes from the symbols of a frame: a bubble begins (R96), the frame is dropped (R95), or the frame; the last two
with the running disparities after it. -/
inductive MrGot where
  | bubble
  | bad (rd : Bool × Bool)
  | frame (f : MrFrame) (rd : Bool × Bool)
deriving DecidableEq, Repr

/-- The symbols of a frame read at the receiver's running disparities. Each idle pair before it inverts that of lane 0, whose
K28.5 is not balanced, and leaves that of lane 1. -/
def rxGot (x : MrRx) (rd : Bool × Bool) : MrGot :=
  match decPairs ((if x.idles % 2 = 1 then !rd.1 else rd.1), rd.2) x.pairs with
  | none => .bubble
  | some (l, r) =>
    match readPairs l with
    | none => .bad r
    | some f => .frame f r

/-- What a partner sends for a frame: its symbols at the given running disparities. -/
def frameSent (f : MrFrame) (rd : Bool × Bool) : MrRx := ⟨0, (encPairs rd (framePairs f)).1, 0⟩

end Sys2Proof.Machine
end

