-- ==== Sys2Proof/Machine/Time.lean ====
section
/-!
DEFINITION. Fabric time (spec/03_fabric_time.md, R65 to R87): the counter, its correction by time marks, failover and
holdover, and local launches.
-/

namespace Sys2Proof.Machine

/-- How many forwarded-clock edges the next tick lasts without correction: 8 ticks for every 25 edges (R65), and never less than
0.64 ns (R66), which after a load between two ticks is two edges. -/
def tickEdges (acc : Nat) : Nat := max 2 (ceilDiv (25 - acc) 8)

/-- FT now in 1/25 ns. -/
def TimeSt.now25 (t : TimeSt) : Nat := 25 * t.ft + t.acc

/-- One tick of FT (R65, R71): the edges that it lasts, while Acquiring or Locked with one tick in every 1,000 lengthened or
shortened by one edge while a correction is left. DEDUCED (log 46); DESIGN CHOICE (log 176). -/
def tickTime (sync : Nat) (t : TimeSt) : TimeSt :=
  let t := { t with ft := (t.ft + 1) % 2 ^ 64, tickNo := t.tickNo + 1 }
  let k := tickEdges t.acc
  let corr : Int :=
    if (sync ≠ 1 ∧ sync ≠ 2) ∨ t.slew = 0 ∨ t.tickNo % 1000 ≠ 0 then 0 else if 0 < t.slew then 1 else -1
  { t with acc := t.acc + 8 * k - 25, edges := t.edges + (((k : Nat) : Int) + corr).toNat, slew := t.slew - corr }

/-! ### Sending on Millrace -/

/-- The record of Millrace port p. -/
def mrOf (s : State) (p : Nat) : MrPort := s.mr.getD p MrPort.reset

/-- The record of Millrace port p changed. -/
def mrMod (s : State) (p : Nat) (f : MrPort → MrPort) : State := { s with mr := setAt s.mr p (f (mrOf s p)) }

/-- Does Millrace port p carry frames: Active, not in loopback and not with its test pattern (R100)? -/
def mrCarries (s : State) (p : Nat) : Bool :=
  s.get (E.millrace_state.n p) == 5 && s.get (E.millrace_loopback.n p) == 0 && s.get (E.millrace_prbs.n p) == 0

/-- Does port p return what it receives, at its far end (R100)? -/
def mrFarEnd (s : State) (p : Nat) : Bool :=
  s.get (E.millrace_state.n p) == 6 && s.get (E.millrace_loopback.n p) == 3

/-- Does port p return its own symbols (R100)? -/
def mrNearEnd (s : State) (p : Nat) : Bool :=
  s.get (E.millrace_state.n p) == 6 && (s.get (E.millrace_loopback.n p) == 1 || s.get (E.millrace_loopback.n p) == 2)

/-- May port p send frames of its own: its transmit direction is active, no test pattern replaces them, and no far-end loopback
takes the lanes (R100, R101)? -/
def mrSends (s : State) (p : Nat) : Bool :=
  s.get (E.millrace_tx_state.n p) == 1 && s.get (E.millrace_prbs.n p) == 0 && !mrFarEnd s p

/-- What the transmitter of port p sends from now on while it sends no frame (R97, R100 to R102). -/
def mrSetLine (s : State) (p : Nat) (l : MrLine) : State := (mrMod s p fun m => { m with lineNs := 0 }).emit (.mrLine p l)

/-- A frame of the own transmitter that a near-end loopback returns (R100): a sleep or a wake frame, the only ones that a port in
loopback sends (R101, R102). -/
def mrSelf (s : State) (p : Nat) (f : MrFrame) : State :=
  if f = .sleep then s.set (E.millrace_rx_state.n p) 2
  else if f = .wake ∧ s.get (E.millrace_rx_state.n p) = 1 then
    let s := (s.inc (E.millrace_wakes.n p) 1).mrFlag p 8
    if s.getB (E.millrace_rx_wake_enable.n p) then s.later (.wakeEvent 0) else s
  else s

/-- A frame starts on port p at an edge, and one idle pair follows it (R94): its symbols leave, coded at the running disparity of
each lane (R91); in near-end loopback they return to the own receiver, and drive the pins in mode 2 only (R100). -/
def mrPut (s : State) (p : Nat) (f : MrFrame) (start : Nat) : State :=
  let r := encPairs (mrOf s p).txRd (framePairs f ++ [idlePair])
  let s := mrMod s p fun m => { m with txRd := r.2, txFree := start + 10 * r.1.length }
  if mrNearEnd s p then
    mrSelf (if s.get (E.millrace_loopback.n p) = 1 then s else s.emit (.millrace p f start r.1)) p f
  else s.emit (.millrace p f start r.1)

/-- The FT of the next time mark (R94). -/
def nextMark (s : State) : Nat := (s.ft / 1048576 + 1) * 1048576

/-- Would a frame that starts at an edge still be in progress at the timing point of the next time mark of port p (R94)? -/
def mrCrossesMark (s : State) (p : Nat) (f : MrFrame) (start : Nat) : Bool :=
  s.get (E.millrace_role.n p) == 2 && s.get E.ft_sync_state.s == 2 && mrCarries s p &&
  decide (s.time.edges + (25 * nextMark s - s.time.now25) / 8 < start + 10 * ((framePairs f).length + 1))

/-- A frame to send on port p, not before `lag` edges from now: at once, after the frame in progress, or after the time mark that it
would meet (R94). -/
def mrSend (s : State) (p lag : Nat) (f : MrFrame) : State :=
  if !mrSends s p then s
  else
    let start := max (s.time.edges + lag) (mrOf s p).txFree
    if !(mrOf s p).held.isEmpty || mrCrossesMark s p f start then mrMod s p fun m => { m with held := m.held ++ [f] }
    else mrPut s p f start

/-- A frame sent, `lag` edges from now, on every Active port of a role whose transmit direction is awake. -/
def mrSendRole (s : State) (role lag : Nat) (f : MrFrame) : State :=
  (List.range 8).foldl (fun st p =>
    if st.get (E.millrace_role.n p) = role ∧ mrCarries st p ∧ st.get (E.millrace_tx_state.n p) = 1 then mrSend st p lag f
    else st) s

/-- The mark of this FT on port p, and after it the frames that were held off (R94). A downstream port sends its mark while FT is
Locked. -/
def mrMark (s : State) (p : Nat) : State :=
  let s := if s.get (E.millrace_role.n p) = 2 ∧ mrCarries s p ∧ s.get (E.millrace_tx_state.n p) = 1 ∧
      s.get E.ft_sync_state.s = 2 then mrPut s p (.mark s.ft) s.time.edges else s
  let l := (mrOf s p).held
  let s := if l.isEmpty then s else mrMod s p fun m => { m with held := [] }
  if mrCarries s p && s.get (E.millrace_tx_state.n p) == 1 then
    l.foldl (fun st f => mrPut st p f (max st.time.edges (mrOf st p).txFree)) s
  else s

/-- The capability payload of port p (R98). -/
def capPayload (s : State) (p : Nat) : List Byte :=
  leBytes 1 1 ++ leBytes 1 (s.get (E.millrace_role.n p)) ++ leBytes 1 p ++
  leBytes 1 (if s.get E.ft_sync_state.s = 2 then 1 else 0) ++ leBytes 2 (s.get E.coord_rack.s) ++
  leBytes 1 (s.get E.coord_plane.s) ++ leBytes 1 (s.get E.coord_slot.s) ++ leBytes 4 0

/-- One ns on port p: D10.2 gives way to training pairs after 20,000 ns of Train (R97) or 2,000 ns of a transmit wake (R102), and
in Capability a capability frame goes out every 1,000 ns (R97) unless the roles mismatch (R98). -/
def mrTick (s : State) (p : Nat) : State :=
  let st := s.get (E.millrace_state.n p)
  let tx := s.get (E.millrace_tx_state.n p)
  if st = 2 ∨ st = 4 ∨ tx = 3 then
    let s := mrMod s p fun m => { m with lineNs := m.lineNs + 1 }
    let n := (mrOf s p).lineNs
    if st = 2 ∧ n = 20000 then s.emit (.mrLine p (.training false))
    else if tx = 3 ∧ n = 2000 then s.emit (.mrLine p (.training true))
    else if st = 4 ∧ n % 1000 = 0 ∧ (mrOf s p).mismatch = false then mrSend s p 0 (.capability (capPayload s p))
    else s
  else s

/-- FT loaded with a value (R71, R73, R74): pending actions that the load passes are late (R79), and running gate lists
and the Weir schedule realign. -/
def loadFt (s : State) (v acc : Nat) (flag : Bool) : State :=
  let old := s.ft
  let late := (s.acts.filter (fun a => old < a.ft && decide (a.ft < v))).length
  let s := { s with
    time := { s.time with ft := v % 2 ^ 64, acc := acc, slew := 0, tickNo := 0 }
    qs := { s.qs with sampleAt := min s.qs.sampleAt (v % 2 ^ 64 - 1) } }
  let s := s.inc E.ft_corrections.s 1
  let s := if flag then s.ftFlag 1 else s
  let s := s.inc E.ft_late_actions.s late
  let s := if late = 0 then s else s.ftFlag 6
  s.later (.ftLoaded old (v % 2 ^ 64))

/-- FT_TICK (R65, R74): FT advances by one, or takes the value written to `ft.local_set`; at multiples of 2^20 ns the time marks
leave (R94). -/
def ftTick (s : State) : State :=
  let s := { s with boot := if s.boot.hold || s.get E.boot_stage.s == 0 then s.boot
                      else { s.boot with ns := s.boot.ns + 1, stageNs := s.boot.stageNs + 1 } }
  let s := match s.time.loadAt with
    | some v => loadFt { s with time := { s.time with loadAt := none } } v 0 true
    | none => { s with time := tickTime (s.get E.ft_sync_state.s) s.time }
  let s := if s.ft % 1048576 = 0 then (List.range 8).foldl mrMark s else s
  (List.range 8).foldl mrTick s

/-- The synchronisation state moves (R69); leaving Locked sets `lock_lost` (R76) and is told to the Weir schedule. -/
def setSync (s : State) (v : Nat) : State :=
  let was := s.get E.ft_sync_state.s
  let s := s.set E.ft_sync_state.s v
  if was = 2 ∧ v ≠ 2 then (s.ftFlag 0).later .syncLeft else s

/-- The upstream delay of a port in 1/25 ns (R70). -/
def upDelay25 (s : State) (p : Nat) : Nat :=
  if s.get E.ft_delay_mode.s = 1 then 25 * s.get (E.ft_delay_fixed.k p) else 8 * s.get (E.ft_delay_measured.k p)

/-- The record of upstream port p. -/
def upOf (s : State) (p : Nat) : Upstream := s.time.up.getD p ⟨0, false, 0, 0, false⟩

/-- The record of upstream port p replaced. -/
def setUp (s : State) (p : Nat) (u : Upstream) : State :=
  { s with time := { s.time with up := setAt s.time.up p u } }

/-- The phase error in units of 0.32 ns from 1/25 ns, rounded to nearest, ties to even (R1, R76);
ft.phase_error reads its low 32 bits. DEDUCED (log 45). -/
def err32 (e : Int) : Int :=
  let q := e.fdiv 8
  let r := e.fmod 8
  if 4 < r ∨ (r = 4 ∧ q % 2 = 1) then q + 1 else q

/-- A correction by slewing (R71): what is left to correct is the error just measured. DEDUCED (log 46). -/
def slewBy (s : State) (e : Int) : State :=
  if err32 e = 0 then { s with time := { s.time with slew := 0 } }
  else ({ s with time := { s.time with slew := err32 e } }).inc E.ft_corrections.s 1

/-- FT enters Acquiring on a port with a load from its mark, at the edge on which it arrived (R70, R71, R73). DEDUCED (log 48). -/
def acquire (s : State) (p value : Nat) (flag : Bool) : State :=
  let at25 := 25 * value + upDelay25 s p
  let s := setSync s 1
  let s := s.set E.ft_source_port.s p
  let s := { s with time := { s.time with loadNext := false, loadAt := none } }
  let s := loadFt s (at25 / 25) (at25 % 25) flag
  setUp s p ⟨0, true, 0, 0, true⟩

/-- A time mark on the source port corrects FT (R71). DEDUCED (log 47); DESIGN CHOICE (log 178): a single mark outside ±64 ns
counts in `millrace.marks` and, here, towards the second in a row. -/
def markOnSource (s : State) (p value : Nat) (e : Int) : State :=
  let u := upOf s p
  let near := decide (-50 ≤ e ∧ e ≤ 50)
  let inside := decide (-1600 ≤ e ∧ e ≤ 1600)
  if s.get E.ft_sync_state.s = 2 then
    if inside then setUp (slewBy s e) p ⟨e, true, u.inRow + 1, 0, true⟩
    else if u.outRow + 1 < 2 then setUp s p ⟨e, true, 0, u.outRow + 1, true⟩
    else
      let s := setUp s p ⟨e, true, 0, 0, true⟩
      let s := { s with time := { s.time with loadNext := true } }
      setSync s 1
  else if s.time.loadNext then acquire s p value true
  else if near then
    let s := setUp s p ⟨e, true, u.inRow + 1, 0, true⟩
    if u.inRow + 1 ≥ 2 then setSync s 2 else s
  else setUp (slewBy s e) p ⟨e, true, 0, 0, true⟩

/-- Disagreement of the two ports' phase errors on two consecutive marks (R72): the errors are compared once both ports have
delivered a mark since they were last compared. DEDUCED (log 47). -/
def markDisagree (s : State) : State :=
  let a := upOf s 0
  let b := upOf s 1
  if !(a.valid && b.valid && a.fresh && b.fresh) then s
  else
    let s := setUp (setUp s 0 { a with fresh := false }) 1 { b with fresh := false }
    if 1600 < a.err - b.err ∨ 1600 < b.err - a.err then
      let s := { s with time := { s.time with disagree := s.time.disagree + 1 } }
      if s.time.disagree = 2 then s.ftFlag 5 else s
    else { s with time := { s.time with disagree := 0 } }

/-- Is the other upstream port symbol-locked and Active, so that it can take over (R72)? -/
def otherUp (s : State) (p : Nat) : Bool :=
  s.get (E.millrace_role.n (1 - p)) == 1 && mrCarries s (1 - p) && s.get (E.millrace_rx_state.n (1 - p)) == 1

/-- May FT take port p as its source while it has none (R72)? The primary port may; the other one where the primary cannot deliver
marks. DESIGN CHOICE (log 177). -/
def maySource (s : State) (p : Nat) : Bool := p == s.get E.ft_primary_port.s || !otherUp s p

/-- A valid time mark on upstream port p that arrived `edge` edges after the last tick (R70 to R73). DEDUCED (log 47); DESIGN CHOICE
(log 177, 178): without a source FT takes the primary port, and a mark within ±64 ns in Holdover makes it Locked at once. -/
def takeMark (s : State) (p value edge : Nat) : State :=
  let e : Int := ((s.time.now25 + 8 * edge : Nat) : Int) - ((25 * value + upDelay25 s p : Nat) : Int)
  let s := s.inc (E.millrace_marks.n p) 1
  let src := s.get E.ft_source_port.s
  let sync := s.get E.ft_sync_state.s
  let report := fun (st : State) => st.set E.ft_phase_error.s (unsignedOf 32 (err32 e))
  let track := fun (st : State) => setUp st p ⟨e, true, (upOf st p).inRow + 1, 0, true⟩
  if sync = 0 then (if maySource s p then acquire (report s) p value false else track s)
  else if sync = 3 then
    if !maySource s p then track s else
    let s := report s
    if -1600 ≤ e ∧ e ≤ 1600 then
      let s := (setSync s 2).set E.ft_source_port.s p
      setUp (slewBy s e) p ⟨e, true, 1, 0, true⟩
    else acquire s p value true
  else if src = p then markDisagree (markOnSource (report s) p value e)
  else markDisagree (track s)

/-- The source port fails: failover to the other port when it is locked with its last error within ±2 ns, holdover
otherwise (R72). `otherOk` says that the other port is Active and carries marks. DEDUCED (log 48). -/
def sourceLost (s : State) (otherOk : Bool) : State :=
  let p := s.get E.ft_source_port.s
  let o := 1 - p
  let u := upOf s o
  let s := setUp s p ⟨0, false, 0, 0, false⟩
  if otherOk && u.valid && decide (-50 ≤ u.err ∧ u.err ≤ 50) then
    let s := s.set E.ft_source_port.s o
    let s := { s with time := { s.time with slew := 0, loadNext := false } }
    s.ftFlag 2
  else
    let s := setSync s 3
    let s := s.set E.ft_source_port.s 0xFF
    let s := { s with time := { s.time with holdStart := s.ft, slew := 0, loadNext := false, disagree := 0 } }
    s.ftFlag 3

/-- HOLDOVER_EXPIRE (R73): the state becomes Unsynchronised when holdover has lasted its limit. DESIGN CHOICE (log 4). -/
def holdoverExpire (s : State) : State :=
  if s.get E.ft_sync_state.s = 3 ∧ s.time.holdStart + s.get E.ft_holdover_limit.s ≤ s.ft then
    (setSync s 0).ftFlag 4
  else s

/-- The effect of writing `ft.local_set` (R74): FT is loaded on the next tick in the Unsynchronised state, refused with 0x0C
otherwise. -/
def localSet (s : State) (v : Nat) : Nat × State :=
  if s.get E.ft_sync_state.s = 0 then (0, { s with time := { s.time with loadAt := some v } }) else (0x0C, s)

/-- The pending local launch whose firing cycle has not come (R86). -/
def State.nextLaunch (s : State) : Option Nat :=
  (s.sched.find? fun a => decide (a.kind = .launch ∧ s.ft < a.ft)).map (·.ft)

/-- Without that launch. -/
def State.dropLaunch (s : State) : State := { s with sched := s.sched.filter fun a => decide (¬ (a.kind = .launch ∧ s.ft < a.ft)) }

/-- The effect of writing `ft.launch_at` (R86): the tests of R77, and 0x0C where a Millrace record names the target; it replaces the
pending local launch whose firing cycle has not come. DEDUCED (log 20, 51). -/
def launchAt (s : State) (v : Nat) : Nat × State :=
  let st := s.dropLaunch.ftTestIn v (s.launches.any (fun r => r.target = v))
  if st ≠ 0 then (st, s) else (0, (s.dropLaunch.schedule v .launch).set E.ft_launch_pending.s v)

/-- The effect of writing `ft.launch_cancel` (R86): a pending local launch whose firing cycle has not come is dropped. -/
def launchCancel (s : State) : State :=
  if s.nextLaunch.isSome then s.dropLaunch.set E.ft_launch_pending.s 0 else s

end Sys2Proof.Machine
end

