-- ==== Sys2Proof/Machine/Millrace.lean ====
section
/-!
DEFINITION. Millrace links (spec/04_millrace_links.md, R88 to R111): bring-up, bubbles, loss of lock, sleep and wake,
launch records and their missed notices, and the relay of frames.
-/

namespace Sys2Proof.Machine

/-- Port p enters a bring-up stage (R97). DEDUCED (log 56). -/
def mrStage (s : State) (p st : Nat) : State :=
  let s := if s.get (E.millrace_state.n p) = 5 then s.later .upkeep else s
  let s := s.set (E.millrace_state.n p) st
  let s := mrMod s p fun m => { m with
    stageAt := s.ft, bubble := false, mismatch := false, lastProbe := if st = 1 then 0 else m.lastProbe }
  let dir := if st = 4 ∨ st = 5 then 1 else 0
  let s := mrSetLine s p
    (if st ≤ 1 then .off else if st = 2 then .d10 else if st = 3 then .training false else .idle)
  if st ≤ 4 then
    let s := s.set (E.millrace_tx_state.n p) dir
    let s := s.set (E.millrace_rx_state.n p) dir
    mrMod s p fun m => { m with noticeWake := false, notes := if st ≤ 3 then [] else m.notes, sleepAt := none,
                                accepted := false, echoes := 0, echoSum := 0, probes := [], held := [],
                                txRd := (false, false), rxRd := (false, false) }
  else s

/-- What the loss of symbol lock or clock of port p does to FT (R72, R103). -/
def mrSourceLost (s : State) (p : Nat) : State :=
  if s.get E.ft_source_port.s = p ∧ p < 2 ∧ s.get E.ft_sync_state.s ≠ 0 then sourceLost s (otherUp s p)
  else if p < 2 then setUp s p ⟨0, false, 0, 0, false⟩ else s

/-- The partner role that a role requires (R90). -/
def partnerRole (r : Nat) : Nat := if r = 1 then 2 else if r = 2 then 1 else 3

/-- DETECT_PROBE (R97): a receiver-detect probe every 1,000,000 ns in Detect; termination found leads to Train. -/
def detectProbe (s : State) (p : Nat) (found : Bool) : State :=
  if s.get (E.millrace_state.n p) = 1 ∧ ((mrOf s p).lastProbe = 0 ∨ (mrOf s p).lastProbe + 1000000 ≤ s.ft + 1) then
    let s := (mrMod s p fun m => { m with lastProbe := s.ft + 1 }).emit (.mrLine p .detect)
    if found then mrStage s p 2 else s
  else s

/-- TRAIN_PHASE_ALIGNED (R97). -/
def trainAligned (s : State) (p : Nat) : State :=
  if s.get (E.millrace_state.n p) = 2 then mrStage s p 3 else s

/-- A delay probe is sent, stamped at the edge of its start symbol (R99). -/
def sendProbe (s : State) (p n : Nat) : State :=
  let s := mrMod s p fun m => { m with probes := m.probes ++ [(n, max s.time.edges m.txFree)] }
  mrSend s p 0 (.probe n)

/-- SYMBOL_LOCK_ACHIEVED (R97): the training pairs have reported D10.5, and Capability is entered; the first capability frame and 16
delay probes go out. -/
def symbolLock (s : State) (p : Nat) : State :=
  if s.get (E.millrace_state.n p) = 3 then
    let s := mrStage (s.emit (.mrLine p (.training true))) p 4
    (List.range 16).foldl (fun st i => sendProbe st p i) (mrSend s p 0 (.capability (capPayload s p)))
  else s

/-- The time limit of a bring-up stage (R97), none where it has none. -/
def mrStageLimit (st : Nat) : Option Nat :=
  if st = 2 then some 200000 else if st = 3 then some 100000 else if st = 4 then some 1000000 else none

/-- BRINGUP_TIMEOUT (R97, R98): the port returns to Detect; a role mismatch keeps it in Capability. -/
def bringupTimeout (s : State) (p : Nat) : State :=
  match mrStageLimit (s.get (E.millrace_state.n p)) with
  | some t =>
    if (mrOf s p).stageAt + t ≤ s.ft ∧ ¬ (mrOf s p).mismatch then
      ((mrStage s p 1).inc (E.millrace_retrains.n p) 1).mrFlag p 1
    else s
  | none => s

/-- Half of the mean of 16 round trips, to the nearest edge, ties to even (R1, R99). -/
def halfMean (sum : Nat) : Nat :=
  if 16 < sum % 32 ∨ (sum % 32 = 16 ∧ sum / 32 % 2 = 1) then sum / 32 + 1 else sum / 32

/-- Both conditions of the Capability stage met: the link is Active (R97), or in far-end loopback (R100). -/
def mrTryActive (s : State) (p : Nat) : State :=
  let m := mrOf s p
  if s.get (E.millrace_state.n p) = 4 ∧ m.accepted ∧ m.echoes ≥ 16 then
    let s := if p < 2 ∧ s.get (E.millrace_role.n p) = 1 then
      s.set (E.ft_delay_measured.k p) (halfMean m.echoSum) else s
    let s := mrStage s p 5
    if s.get (E.millrace_loopback.n p) = 3 then s.set (E.millrace_state.n p) 6 else s
  else s

/-- CODE_ERROR (R96, R100): a bubble begins; with the test pattern running the error counts there. -/
def codeError (s : State) (p : Nat) : State :=
  if s.get (E.millrace_prbs.n p) = 1 then s.inc (E.millrace_prbs_errors.n p) 1
  else if s.get (E.millrace_state.n p) < 3 then s
  else
    let s := s.inc (E.millrace_code_errors.n p) 1
    if (mrOf s p).bubble then s
    else (mrMod s p fun m => { m with bubble := true }).inc (E.millrace_bubbles.n p) 1

/-- What the receiver of port p takes from the symbols of a frame (R91, R92, R95, R96). -/
def mrHear (s : State) (p : Nat) (x : MrRx) : MrGot := rxGot x (mrOf s p).rxRd

/-- The receiver's running disparities after a frame (R91). -/
def mrRd (s : State) (p : Nat) (rd : Bool × Bool) : State := mrMod s p fun m => { m with rxRd := rd }

/-- Is f a frame of bring-up, taken in Capability as well as in Active (R97 to R99)? -/
def bringsUp (f : MrFrame) : Bool :=
  match f with
  | .capability _ => true
  | .probe _ => true
  | .echo _ _ => true
  | _ => false

/-- Does port p take a frame f whose symbols are x now (R95, R96, R100)? A wrong symbol begins a bubble; a frame that fails its
check, is of no known type, is not f, or comes from the wrong direction is dropped and counted. In far-end loopback the symbols
return as they came. DEDUCED (log 58); DESIGN CHOICE (log 174). -/
def mrGate (s : State) (p : Nat) (x : MrRx) (f : MrFrame) (dirOk : Bool) : Bool × State :=
  if mrFarEnd s p then (false, s.emit (.mrReturn p x.pairs))
  else
    let st := s.get (E.millrace_state.n p)
    if (st ≠ 4 ∧ st ≠ 5) ∨ s.get (E.millrace_loopback.n p) ≠ 0 ∨ s.get (E.millrace_prbs.n p) ≠ 0 ∨ (mrOf s p).bubble ∨
        s.get (E.millrace_rx_state.n p) ≠ 1 then (false, s)
    else
      match mrHear s p x with
      | .bubble => (false, codeError s p)
      | .bad rd => (false, (mrRd s p rd).inc (E.millrace_frame_drops.n p) 1)
      | .frame g rd =>
        if g = f ∧ dirOk then (st = 5 ∨ bringsUp f, mrRd s p rd)
        else (false, (mrRd s p rd).inc (E.millrace_frame_drops.n p) 1)

/-- CAPABILITY (R98): accepted when the partner's role is the one required, else held back as a mismatch; the exchange is tried
again 1,000,000 ns after the first mismatch or the last try. -/
def capability (s : State) (p : Nat) (x : MrRx) (payload : List Byte) : State :=
  match mrGate s p x (.capability payload) true with
  | (true, s) =>
    if s.get (E.millrace_state.n p) = 5 then s
    else if leAt payload 1 1 = partnerRole (s.get (E.millrace_role.n p)) then
      let s := s.set (E.millrace_partner.n p) (ofLe (payload.take 12))
      mrTryActive (mrMod s p fun m => { m with accepted := true, mismatch := false }) p
    else
      let s := mrMod s p fun m => { m with
        mismatch := true, accepted := false, stageAt := if m.mismatch then m.stageAt else s.ft }
      s.mrFlag p 0
  | (false, s) => s

/-- ROLE_MISMATCH_RETRY (R98): the exchange is tried again every 1,000,000 ns. -/
def mismatchRetry (s : State) (p : Nat) : State :=
  if s.get (E.millrace_state.n p) = 4 ∧ (mrOf s p).mismatch ∧ (mrOf s p).stageAt + 1000000 ≤ s.ft then
    mrSend (mrMod s p fun m => { m with stageAt := s.ft }) p 0 (.capability (capPayload s p))
  else s

/-- DELAY_PROBE (R99): a received probe is echoed with its turnaround, in 0.32 ns. -/
def delayProbe (s : State) (p : Nat) (x : MrRx) (n turn : Nat) : State :=
  match mrGate s p x (.probe n) true with
  | (true, s) => mrSend s p 0 (.echo n turn)
  | (false, s) => s

/-- DELAY_ECHO (R99): the echo of probe n arrives at edge `at_`; the round trip is that edge less the probe's send edge and the
turnaround, and after 16 echoes the delay is half the mean. -/
def delayEcho (s : State) (p : Nat) (x : MrRx) (n turn at_ : Nat) : State :=
  match mrGate s p x (.echo n turn) true with
  | (true, s) =>
    if s.get (E.millrace_state.n p) ≠ 4 then s
    else
      match (mrOf s p).probes.find? (fun q => q.1 = n) with
      | some q => mrTryActive (mrMod s p fun m => { m with
          probes := m.probes.filter (fun y => y.1 ≠ n), echoes := m.echoes + 1
          echoSum := m.echoSum + (at_ - q.2 - turn) }) p
      | none => s
  | (false, s) => s

/-- BUBBLE_END (R96): a valid idle pair ends the bubble after that many pair times; a long one sets its flag. The receiver's running
disparities go on from that pair. DESIGN CHOICE (log 174). -/
def bubbleEnd (s : State) (p pairs : Nat) : State :=
  if (mrOf s p).bubble ∧ pairs < 1024 then
    let s := mrMod s p fun m => { m with bubble := false, rxRd := (true, false) }
    if 136 < pairs then s.mrFlag p 6 else s
  else s

/-- MILLRACE_LOCK_LOSS (R103): a bubble of 1,024 pair times loses symbol lock; the port returns to Train. -/
def mrLockLoss (s : State) (p : Nat) (stuck0 stuck1 : Bool) : State :=
  if (mrOf s p).bubble then
    let s := s.mrFlag p 6
    let s := s.mrFlag p 2
    let s := if stuck0 then s.mrFlag p 4 else s
    let s := if stuck1 then s.mrFlag p 5 else s
    mrSourceLost (mrStage s p 2) p
  else s

/-- CLOCK_LOST (R103): no forwarded-clock edge for 16 ns; the port returns to Detect. A sleeping receiver expects none. -/
def clockLost (s : State) (p : Nat) : State :=
  let st := s.get (E.millrace_state.n p)
  if 2 ≤ st ∧ s.get (E.millrace_rx_state.n p) ≠ 2 then
    mrSourceLost (mrStage (s.mrFlag p 3) p 1) p
  else s

/-- The effect of writing `millrace.role` (R90): status, and bring-up restarted from Detect on a change. -/
def roleWrite (s : State) (p v : Nat) : Nat × State :=
  if v = 1 ∧ 2 ≤ p then (0x06, s)
  else if s.get E.ft_source_port.s = p then (0x0C, s)
  else
    let was := s.get (E.millrace_role.n p)
    let s := s.set (E.millrace_role.n p) v
    if was = v then (0, s)
    else if v = 0 then (0, mrStage s p 0)
    else (0, mrStage s p 1)

/-- Is port p the peer of a running lock-step pairing (R100, R443)? -/
def lockstepOn (s : State) (p : Nat) : Bool :=
  s.get E.lockstep_peer_port.s == p && s.get E.lockstep_state.s == 3

/-- The effect of writing `millrace.loopback` (R100). DEDUCED (log 55). -/
def loopbackWrite (s : State) (p v : Nat) : Nat × State :=
  if v ≠ 0 ∧ (s.get E.ft_source_port.s = p ∨ lockstepOn s p) then (0x0C, s)
  else
    let s := s.set (E.millrace_loopback.n p) v
    let st := s.get (E.millrace_state.n p)
    if v = 0 then (0, if st = 6 then mrStage s p (if s.get (E.millrace_role.n p) = 0 then 0 else 1) else s)
    else if v = 3 then (0, if st = 5 then s.set (E.millrace_state.n p) 6 else s)
    else
      let s := s.set (E.millrace_state.n p) 6
      (0, if v = 1 then mrSetLine s p .off else s)

/-- The effect of writing `millrace.prbs` (R100). -/
def mrPrbsWrite (s : State) (p v : Nat) : Nat × State :=
  if v ≠ 0 ∧ (s.get E.ft_source_port.s = p ∨ lockstepOn s p) then (0x0C, s)
  else if v = s.get (E.millrace_prbs.n p) then (0, s)
  else (0, mrSetLine (s.set (E.millrace_prbs.n p) v) p (if v = 1 then .prbs else .idle))

/-- The transmit direction of port p goes to sleep (R101): two sleep frames, then electrical idle. -/
def txFallAsleep (s : State) (p : Nat) : State :=
  mrSetLine ((mrSend (mrSend s p 0 .sleep) p 0 .sleep).set (E.millrace_tx_state.n p) 2) p .off

/-- The transmit direction of port p begins to wake (R102): the clock and D10.2 on both data lanes, training pairs after 2,000 ns.
`note`: it wakes for missed notices (R106). -/
def txWake (s : State) (p : Nat) (note : Bool) : State :=
  mrMod (mrSetLine (s.set (E.millrace_tx_state.n p) 3) p .d10) p fun m => { m with wakeAt := s.ft, noticeWake := note }

/-- The effect of writing `millrace.tx_sleep` (R101, R102): sleep, or a transmit wake. A direction that is waking when 1 is written
sleeps once it is active. DEDUCED (log 179). -/
def txSleepWrite (s : State) (p v : Nat) : State :=
  let s := s.set (E.millrace_tx_sleep.n p) v
  let tx := s.get (E.millrace_tx_state.n p)
  if v = 1 then (if tx = 1 then txFallAsleep s p else s)
  else if tx = 2 then txWake s p false
  else mrMod s p fun m => { m with noticeWake := false, sleepAt := none }

/-- The effect of writing `millrace.send_wake` 1 (R102): refused with 0x0C unless the transmit direction is active. With the test
pattern running, PRBS-31 replaces the frame (R100). -/
def sendWake (s : State) (p : Nat) : Nat × State :=
  if s.get (E.millrace_tx_state.n p) = 1 then (0, mrSend s p 0 .wake)
  else (0x0C, s)

/-- SLEEP (R101): the receiver powers down its data lanes. -/
def sleepFrame (s : State) (p : Nat) (x : MrRx) : State :=
  match mrGate s p x .sleep true with
  | (true, s) => s.set (E.millrace_rx_state.n p) 2
  | (false, s) => s

/-- RECEIVE_WAKE (R102): a sleeping receiver detects clock activity and relocks. -/
def receiveWake (s : State) (p : Nat) : State :=
  if s.get (E.millrace_rx_state.n p) = 2 then s.set (E.millrace_rx_state.n p) 1 else s

/-- WAKE (R102): two consecutive K28.3 pairs are a wake frame: it is counted, and passed to the power manager when enabled. -/
def wakeFrame (s : State) (p : Nat) : State :=
  if mrCarries s p && !(mrOf s p).bubble && s.get (E.millrace_rx_state.n p) == 1 then
    let s := (s.inc (E.millrace_wakes.n p) 1).mrFlag p 8
    if s.getB (E.millrace_rx_wake_enable.n p) then s.later (.wakeEvent 0) else s
  else s

/-- TX_WAKE_TIMEOUT (R102, R106): not active within 200,000 ns, bring-up restarts and waiting notices are not sent. -/
def txWakeTimeout (s : State) (p : Nat) : State :=
  if s.get (E.millrace_tx_state.n p) = 3 ∧ (mrOf s p).wakeAt + 200000 ≤ s.ft then
    mrSourceLost (mrStage s p 1) p
  else s

/-- Send the first copy of every notice that waits on port p (R106). -/
def sendNotes (s : State) (p : Nat) : State :=
  let fresh := (mrOf s p).notes.filter (fun n => n.sent = 0)
  let s := fresh.foldl (fun st n => mrSend st p 0 (.missed n.payload)) s
  mrMod s p fun m => { m with notes := m.notes.map fun n => if n.sent = 0 then { n with sent := 1, at_ := s.ft } else n }

/-- TRANSMIT_WAKE_DONE (R102, R106): the direction is active; waiting notices go out. -/
def txWakeDone (s : State) (p : Nat) : State :=
  if s.get (E.millrace_tx_state.n p) = 3 then
    let s := sendNotes (mrSetLine (s.set (E.millrace_tx_state.n p) 1) p .idle) p
    if s.getB (E.millrace_tx_sleep.n p) && !(mrOf s p).noticeWake then txFallAsleep s p else s
  else s

/-- MISSED_NOTICE_REPEAT (R106): the second copy, 1,000 ns after the first. DEDUCED (log 57). -/
def noteRepeat (s : State) (p : Nat) : State :=
  let due := (mrOf s p).notes.filter (fun n => n.sent = 1 ∧ n.at_ + 1000 ≤ s.ft)
  if due = [] ∨ s.get (E.millrace_tx_state.n p) ≠ 1 then s
  else
    let s := due.foldl (fun st n => mrSend st p 0 (.missed n.payload)) s
    mrMod s p fun m => { m with
      notes := m.notes.filter (fun n => ¬ (n.sent = 1 ∧ n.at_ + 1000 ≤ s.ft))
      sleepAt := if m.noticeWake then some (s.ft + 10000) else m.sleepAt }

/-- MISSED_NOTICE_SLEEP_AGAIN (R106): a direction woken for notices sleeps again, while `millrace.tx_sleep` reads 1.
DEDUCED (log 57). -/
def noteSleepAgain (s : State) (p : Nat) : State :=
  match (mrOf s p).sleepAt with
  | some t =>
    if t ≤ s.ft ∧ (mrOf s p).notes = [] then
      let s := mrMod s p fun m => { m with sleepAt := none, noticeWake := false }
      if s.getB (E.millrace_tx_sleep.n p) ∧ s.get (E.millrace_tx_state.n p) = 1 then txFallAsleep s p else s
    else s
  | none => s

/-- The payload of a missed notice (R104). -/
def missPayload (s : State) (seq reason : Nat) : List Byte :=
  leBytes 4 seq ++ leBytes 1 reason ++ leBytes 1 (s.get E.coord_plane.s) ++ leBytes 1 (s.get E.coord_slot.s) ++
  leBytes 1 0 ++ leBytes 2 (s.get E.coord_rack.s) ++ leBytes 2 0 ++ leBytes 8 s.ft

/-- One upstream port takes a notice (R106): sent at once, or after a transmit wake. -/
def queueNote (s : State) (payload : List Byte) (p : Nat) : State :=
  if s.get (E.millrace_role.n p) = 1 ∧ mrCarries s p then
    let s := mrMod s p fun m => { m with notes := m.notes ++ [⟨payload, 0, s.ft⟩] }
    let tx := s.get (E.millrace_tx_state.n p)
    if tx = 1 then sendNotes s p
    else if tx = 2 then txWake s p true
    else s
  else s

/-- A launch is missed (R85, R106): `launch_missed`, `millrace.last_missed`, and a notice on every Active upstream
port. -/
def reportMiss (s : State) (seq reason : Nat) : State :=
  let s := s.ftFlag 7
  let s := s.set E.millrace_last_missed.s (seq % 2 ^ 32 + reason * 2 ^ 32 + s.ft * 2 ^ 64)
  (List.range 8).foldl (fun st p => queueNote st (missPayload s seq reason) p) s

/-- Was the sequence aborted within the last 1,000,000 ns (R105)? -/
def abortedRecently (s : State) (seq : Nat) : Bool :=
  s.aborted.any (fun a => a.1 == seq && decide (s.ft ≤ a.2 + 1000000))

/-- A launch frame counted as ignored (R105). -/
def launchIgnored (s : State) (p : Nat) : State := s.inc (E.millrace_launch_ignored.n p) 1

/-- A launch frame arrives on port p (R105, R107): gate, source port test, relay to downstream ports. DEDUCED (log 58). -/
def launchFrame (s : State) (p : Nat) (x : MrRx) (f : MrFrame) (act : State → State) : State :=
  match mrGate s p x f (s.get (E.millrace_role.n p) == 1) with
  | (true, s) =>
    if s.get E.ft_source_port.s = p then act (mrSendRole s 2 80 f) else launchIgnored s p
  | (false, s) => s

/-- The rows of R105 for an arm, in order. -/
def armRows (p seq target : Nat) (s : State) : State :=
  let held := s.launches.find? (fun r => r.seq = seq)
  if s.get E.ft_sync_state.s ≠ 2 then reportMiss s seq 9
  else if target ≤ s.ft + 5000 then reportMiss s seq 1
  else if s.ft + 1000000000 < target then reportMiss s seq 2
  else
    match held with
    | some r =>
      if r.target = target then launchIgnored s p
      else reportMiss { s with launches := s.launches.filter (fun r => r.seq ≠ seq) } seq 3
    | none =>
      if abortedRecently s seq then launchIgnored s p
      else if s.launches.any (fun r => r.target = target) ∨ s.nextLaunch = some target then reportMiss s seq 4
      else if s.launches.length ≥ 8 then reportMiss s seq 5
      else { s with launches := s.launches ++ [⟨seq, target, false⟩] }

/-- ARM (R105). -/
def armFrame (s : State) (p : Nat) (x : MrRx) (seq target : Nat) : State :=
  launchFrame s p x (.arm seq target) (armRows p seq target)

/-- CONFIRM_DEADLINE (R105): a record that still awaits confirm at target − 5,000 ns is cleared and missed.
DESIGN CHOICE (log 4). -/
def confirmDeadline (s : State) (seq : Nat) : State :=
  match s.launches.find? (fun r => r.seq = seq) with
  | some r =>
    if !r.armed && decide (r.target - 5000 ≤ s.ft) then
      reportMiss { s with launches := s.launches.filter (fun r => r.seq ≠ seq) } seq 7
    else s
  | none => s

/-- The rows of R105 for a confirm, in order. -/
def confirmRows (p seq : Nat) (s : State) : State :=
  match s.launches.find? (fun r => r.seq = seq) with
  | some r =>
    if !r.armed && decide (s.ft < r.target - 5000) then
      { s with launches := s.launches.map fun x => if x.seq = seq then { x with armed := true } else x }
    else if abortedRecently s seq || r.armed then launchIgnored s p
    else reportMiss (confirmDeadline s seq) seq 6
  | none => if abortedRecently s seq then launchIgnored s p else reportMiss s seq 6

/-- CONFIRM (R105). -/
def confirmFrame (s : State) (p : Nat) (x : MrRx) (seq : Nat) : State :=
  launchFrame s p x (.confirm seq) (confirmRows p seq)

/-- The rows of R105 for an abort: a held record is cleared before its firing cycle; otherwise it is remembered. -/
def abortRows (p seq : Nat) (s : State) : State :=
  match s.launches.find? (fun r => r.seq = seq) with
  | some r => if s.ft < r.target then { s with launches := s.launches.filter (fun r => r.seq ≠ seq) } else s
  | none =>
    let s := launchIgnored s p
    { s with aborted := (seq, s.ft) :: s.aborted.filter (fun a => a.1 ≠ seq) }

/-- ABORT (R105). -/
def abortFrame (s : State) (p : Nat) (x : MrRx) (seq : Nat) : State :=
  launchFrame s p x (.abort seq) (abortRows p seq)

/-- ABORTED_SEQUENCE_EXPIRE (R105): an aborted sequence is forgotten after 1,000,000 ns. -/
def abortedExpire (s : State) (seq : Nat) : State :=
  { s with aborted := s.aborted.filter (fun a => !(a.1 == seq && decide (a.2 + 1000000 < s.ft + 1))) }

/-- Frames of downstream ports relayed to every Active upstream port (R107). -/
def relayUp (s : State) (p : Nat) (x : MrRx) (f : MrFrame) : State :=
  match mrGate s p x f (s.get (E.millrace_role.n p) == 2) with
  | (true, s) => mrSendRole s 1 80 f
  | (false, s) => s

/-- MISSED_NOTICE (R107). DEDUCED (log 58). -/
def missedNotice (s : State) (p : Nat) (x : MrRx) (payload : List Byte) : State := relayUp s p x (.missed payload)

/-- BARRIER_ARRIVE (R107). -/
def barrierArrive (s : State) (p : Nat) (x : MrRx) (h : Nat) : State := relayUp s p x (.arrive h)

/-- BARRIER_RELEASE (R107, R108): relayed, then acted on where the handle is a live barrier of Millrace scope. -/
def barrierReleaseFrame (s : State) (p : Nat) (x : MrRx) (h : Nat) : State :=
  match mrGate s p x (.release h) (s.get (E.millrace_role.n p) == 1) with
  | (true, s) =>
    if s.get E.ft_source_port.s = p then
      let s := mrSendRole s 2 80 (.release h)
      match s.liveH 1 h with
      | some _ => s.later (.barrierRelease h)
      | none => s.inc (E.millrace_frame_drops.n p) 1
    else s
  | (false, s) => s

/-- TIME_MARK (R70 to R73, R95): taken on an upstream port. -/
def timeMark (s : State) (p : Nat) (x : MrRx) (value : Nat) : State :=
  match mrGate s p x (.mark value) (s.get (E.millrace_role.n p) == 1) with
  | (true, s) => takeMark s p value x.edge
  | (false, s) => s

/-- MISSED_TIME_MARKS (R72): two consecutive marks of the source port missed. -/
def missedMarks (s : State) (p : Nat) : State :=
  if s.get E.ft_source_port.s = p ∧ p < 2 ∧ s.get E.ft_sync_state.s ≠ 0 then sourceLost s (otherUp s p)
  else if p < 2 then setUp s p ⟨0, false, 0, 0, false⟩ else s

/-- LOCK_STEP_DIGEST (R95, R110): a digest frame on a peer port goes to the lock-step comparison. -/
def digestFrame (s : State) (p : Nat) (x : MrRx) (payload : List Byte) : State :=
  match mrGate s p x (.digest payload) (s.get (E.millrace_role.n p) == 3) with
  | (true, s) => s.later (.mrDigest p payload)
  | (false, s) => s

/-- What chip reset does to launch records (R105, R89): records cleared, a miss for each, nothing else. -/
def launchReset (s : State) : State :=
  s.launches.foldl (fun st r => reportMiss st r.seq 8) { s with launches := [] }

/-- LAUNCH_FIRE (R80, R84, R86): the launch that is next due fires; the step counter advances and bound objects start. -/
def launchFire (s : State) : State :=
  if s.isDue .launch then
    let isMr := s.launches.find? (fun r => r.armed && decide (some r.target = s.dueAct.map (·.ft)))
    let s :=
      match isMr with
      | some r => { s with launches := s.launches.filter (fun x => x.seq ≠ r.seq) }
      | none =>
        let t := s.schedFt .launch
        let s := { s with sched := s.sched.filter (fun a => !(a.kind == ActKind.launch && decide (some a.ft = t))) }
        s.set E.ft_launch_pending.s ((s.schedFt .launch).getD 0)
    let s := { s with time := { s.time with step := (s.time.step + 1) % 2 ^ 32 } }
    s.later .launch
  else s

end Sys2Proof.Machine
end

