-- ==== Sys2Proof/Machine/Attr.lean ====
section
/-!
DEFINITION. Operation counts and attribution to layers and operators (spec/16_counters_histograms_archive.md, R445 to R448).
-/

namespace Sys2Proof.Machine

/-- An attribution record with no counts. -/
def attrBlank (part layer op : Nat) : AttrRec := ⟨part, layer, op, 0, 0, 0, 0, 0, 0, 0⟩

/-- The record that an event of a triple counts in (R446): record 0 for layer and operator 0, its own record, the lowest
free one, or record 4,095. -/
def attrSlot (m : NMap AttrRec) (part layer op : Nat) : Nat :=
  if layer = 0 ∧ op = 0 then 0
  else
    match m.find? (fun p => decide (0 < p.1 ∧ p.1 < 4095) && p.2.part == part && p.2.layer == layer && p.2.op == op) with
    | some p => p.1
    | none => (((List.range 4095).drop 1).find? (fun i => (mget? m i).isNone)).getD 4095

/-- What one record counted, added to another, each count modulo 2^64 (R444). -/
def AttrRec.plus (r d : AttrRec) : AttrRec :=
  let add := fun (a b : Nat) => (a + b) % 2 ^ 64
  { r with packets := add r.packets d.packets, bytes := add r.bytes d.bytes, mill := add r.mill d.mill
           conf := add r.conf d.conf, sat := add r.sat d.sat, flush := add r.flush d.flush, nan := add r.nan d.nan }

/-- What one record counted, taken out of another, each count modulo 2^64 (R444). -/
def AttrRec.minus (r d : AttrRec) : AttrRec :=
  let sub := fun (a b : Nat) => (a + 2 ^ 64 - b) % 2 ^ 64
  { r with packets := sub r.packets d.packets, bytes := sub r.bytes d.bytes, mill := sub r.mill d.mill
           conf := sub r.conf d.conf, sat := sub r.sat d.sat, flush := sub r.flush d.flush, nan := sub r.nan d.nan }

/-- Counts `d` added to the record of its triple (R446, R447). -/
def State.attrCount (s : State) (d : AttrRec) : State :=
  let i := attrSlot s.attr d.part d.layer d.op
  let blank := if i = 0 ∨ i = 4095 then attrBlank 0 0 0 else attrBlank d.part d.layer d.op
  let s := { s with attr := mput s.attr i ((mgetD s.attr i blank).plus d) }
  s.set E.attr_used.s (1 + (s.attr.filter (fun p => p.1 != 0)).length)

/-- An event's counts, noted for the same-cycle rule of a reset (R447, R448). DEDUCED (log 154). -/
def State.attrAdd (s : State) (d : AttrRec) : State :=
  let s := s.attrCount d
  { s with cyc := { s.cyc with attrs := s.cyc.attrs ++ [d] } }

/-- A Rill packet that passed its arrival checks (R447). -/
def State.attrPacket (s : State) (h : Rill) : State :=
  s.attrAdd { attrBlank h.partition h.layer h.operator with packets := 1, bytes := 48 + h.length }

/-- The end of a Mill job (R445, R447): operations under its operator and format where it completed. -/
def State.attrMill (s : State) (j : Job) (k fmt ops sat flush nan : Nat) : State :=
  let s := s.inc (E.opcount_mill.nk k fmt) ops
  s.attrAdd { attrBlank j.part j.layer j.op with mill := ops, sat := sat, flush := flush, nan := nan }

/-- The end of a collective segment (R445, R447). -/
def State.attrConf (s : State) (part layer op ty fmt ops sat flush nan : Nat) : State :=
  let s := s.inc (E.opcount_confluence.nk ty fmt) ops
  s.attrAdd { attrBlank part layer op with conf := ops, sat := sat, flush := flush, nan := nan }

/-- ATTR_RESET (R448): every record cleared, records 1 to 4,094 freed; events of this cycle count in the new table.
DEDUCED (log 154). -/
def attrReset (s : State) (v : Nat) : State :=
  if v = 0 then s else s.cyc.attrs.foldl State.attrCount ({ s with attr := [] }.set E.attr_used.s 1)

/-- The bytes of record i of the attribution table (R447). -/
def attrBytes (m : NMap AttrRec) (i : Nat) : List Byte :=
  match mget? m i with
  | some r => leBytes 2 r.part ++ leBytes 2 r.layer ++ leBytes 2 r.op ++ [1, 0] ++ leBytes 8 r.packets ++
      leBytes 8 r.bytes ++ leBytes 8 r.mill ++ leBytes 8 r.conf ++ leBytes 8 r.sat ++ leBytes 8 r.flush ++ leBytes 8 r.nan
  | none => if i = 0 then [0, 0, 0, 0, 0, 0, 1] ++ List.replicate 57 0 else List.replicate 64 0

end Sys2Proof.Machine
end

