-- ==== Sys2Proof/Machine/Formats.lean ====
section
/-!
DEFINITION. Number formats and the arithmetic on them (spec/11_number_formats.md R293 to R316, spec/10_reduction_arithmetic.md
R265 to R284): exact decoding, rounding, block scales, granules, the exact window and the FP32 operations.
-/

namespace Sys2Proof.Machine

/-- An exact value: NaN, an infinity, or sign, integer significand and exponent (R265). Significand 0 is a signed zero. -/
inductive Val where
  | nan
  | inf (neg : Bool)
  | fin (neg : Bool) (m : Nat) (k : Int)
deriving DecidableEq, Repr

/-- A zero of a sign. -/
def Val.zero (neg : Bool) : Val := .fin neg 0 0

/-- Is the value a NaN? -/
def Val.isNan : Val → Bool
  | .nan => true
  | _ => false

/-- Is the value an infinity? -/
def Val.isInf : Val → Bool
  | .inf _ => true
  | _ => false

/-- Is the value finite and not zero? -/
def Val.live : Val → Bool
  | .fin _ m _ => m != 0
  | _ => false

/-- The exponent of the leading 1 of a finite nonzero value. -/
def Val.exp : Val → Int
  | .fin _ m k => (Nat.log2 m : Int) + k
  | _ => 0

/-- Is the sign set? -/
def Val.neg : Val → Bool
  | .inf n => n
  | .fin n _ _ => n
  | .nan => false

/-- The value with its sign flipped. -/
def Val.flip : Val → Val
  | .nan => .nan
  | .inf n => .inf !n
  | .fin n m k => .fin (!n) m k

/-- m times 2^d, exactly for d ≥ 0, dropping low bits otherwise. -/
def shl (m : Nat) (d : Int) : Nat := if 0 ≤ d then m * 2 ^ d.toNat else m / 2 ^ (-d).toNat

/-- a × 2^i ≤ b × 2^j. -/
def leScaled (a : Nat) (i : Int) (b : Nat) (j : Int) : Bool :=
  if i ≤ j then decide (a ≤ b * 2 ^ (j - i).toNat) else decide (a * 2 ^ (i - j).toNat ≤ b)

/-- The exact sum of two values (R276): opposite infinities give NaN; a sum of zeros is −0 only where both are. -/
def Val.add : Val → Val → Val
  | .nan, _ => .nan
  | _, .nan => .nan
  | .inf a, .inf b => if a = b then .inf a else .nan
  | .inf a, _ => .inf a
  | _, .inf b => .inf b
  | .fin a m i, .fin b n j =>
    if m = 0 ∧ n = 0 then .fin (a && b) 0 0
    else if m = 0 then .fin b n j
    else if n = 0 then .fin a m i
    else
      let k := min i j
      let x : Int := (if a then -1 else 1) * ((shl m (i - k) : Nat) : Int)
      let y : Int := (if b then -1 else 1) * ((shl n (j - k) : Nat) : Int)
      let t := x + y
      if t = 0 then .fin false 0 0 else .fin (decide (t < 0)) t.natAbs k

/-- The exact product of two values; 0 times an infinity is NaN. -/
def Val.mul : Val → Val → Val
  | .nan, _ => .nan
  | _, .nan => .nan
  | .inf a, .inf b => .inf (a != b)
  | .inf a, .fin b n _ => if n = 0 then .nan else .inf (a != b)
  | .fin a m _, .inf b => if m = 0 then .nan else .inf (a != b)
  | .fin a m i, .fin b n j => .fin (a != b) (m * n) (i + j)

/-- The quotient of two values to at least 128 significant bits, with a sticky bit for what is left. -/
def Val.div : Val → Val → Val × Bool
  | .nan, _ => (.nan, false)
  | _, .nan => (.nan, false)
  | .inf _, .inf _ => (.nan, false)
  | .inf a, .fin b _ _ => (.inf (a != b), false)
  | .fin a _ _, .inf b => (.zero (a != b), false)
  | .fin a m i, .fin b n j =>
    if n = 0 then (if m = 0 then .nan else .inf (a != b), false)
    else if m = 0 then (.zero (a != b), false)
    else
      let sh := 130 + Nat.log2 n
      let num := m * 2 ^ sh
      (.fin (a != b) (num / n) (i - j - (sh : Int)), num % n != 0)

/-- Does a come below b in the order of max and min (R277)? −0 is below +0. -/
def Val.lt (a b : Val) : Bool :=
  let key : Val → Int × Nat × Int := fun v =>
    match v with
    | .nan => (0, 0, 0)
    | .inf n => (if n then -2 else 2, 0, 0)
    | .fin n m k => (if n then -1 else 1, m, k)
  let (s, m, i) := key a
  let (t, n, j) := key b
  if s ≠ t then decide (s < t)
  else if s = 1 then !leScaled n j m i
  else if s = -1 then !leScaled m i n j
  else false

/-- The rule of max (R276, R277). -/
def Val.maxV (a b : Val) : Val := if a.isNan || b.isNan then .nan else if a.lt b then b else a
/-- The rule of min (R276, R277). -/
def Val.minV (a b : Val) : Val := if a.isNan || b.isNan then .nan else if b.lt a then b else a

/-- The layout and rounding parameters of a floating-point element (R273, R298): width, precision, bias, least exponent,
subnormals, whether infinity lies beyond the largest finite value, and that value as significand and exponent. -/
structure FpParam where
  w : Nat
  p : Nat
  bias : Int
  emin : Int
  sub : Bool
  infs : Bool
  maxM : Nat
  maxK : Int

/-- FP32 (R273, R298). -/
def fp32 : FpParam := ⟨32, 24, 127, -126, false, true, 16777215, 104⟩
/-- BF16. -/
def bf16 : FpParam := ⟨16, 8, 127, -126, false, true, 255, 120⟩
/-- FP16. -/
def fp16 : FpParam := ⟨16, 11, 15, -14, true, true, 2047, 5⟩
/-- E4M3. -/
def e4m3 : FpParam := ⟨8, 4, 7, -6, true, false, 14, 5⟩
/-- E5M2. -/
def e5m2 : FpParam := ⟨8, 3, 15, -14, true, true, 7, 13⟩
/-- E2M1 elements of block formats. -/
def e2m1 : FpParam := ⟨4, 2, 1, 0, true, false, 3, 1⟩

/-- The floating-point layout of a format code, FP32 where it has none. -/
def fpOf (f : Nat) : FpParam := [fp32, bf16, fp16, e4m3, e5m2].getD f fp32

/-- What one element became on its way into a format: its code, what was counted, and the exponent of its leading 1 before
the rounding, if any (R290). -/
structure Rnd where
  code : Nat
  sat : Bool
  flush : Bool
  nan : Bool
  e : Option Int
deriving DecidableEq, Repr

/-- The canonical NaN of a floating-point layout (R276). -/
def fpNan (f : FpParam) : Nat :=
  if f.w = 32 then 0x7FC00000
  else if f.w = 16 then (if f.p = 8 then 0x7FC0 else 0x7E00)
  else if f.p = 4 then 0x7F else 0x7E

/-- The largest finite code of a layout, positive. -/
def fpMaxCode (f : FpParam) : Nat :=
  if f.w = 32 then 0x7F7FFFFF
  else if f.w = 16 then (if f.p = 8 then 0x7F7F else 0x7BFF)
  else if f.p = 4 then 0x7E
  else if f.p = 3 then 0x7B else 0x7

/-- The infinity of a layout, positive; its largest finite code where it has none. -/
def fpInf (f : FpParam) : Nat := if f.infs then fpMaxCode f + 1 else fpMaxCode f

/-- The code of r × 2^low, a value of the layout (R298). -/
def fpEncode (f : FpParam) (r : Nat) (low : Int) : Nat :=
  if r = 0 then 0
  else
    let e := (Nat.log2 r : Int) + low
    if e < f.emin then shl r (low - (f.emin - ((f.p : Int) - 1)))
    else
      let frac := shl r (((f.p : Int) - 1) - (Nat.log2 r : Int)) - 2 ^ (f.p - 1)
      (e + f.bias).toNat * 2 ^ (f.p - 1) + frac

/-- The rounding of R274: m × 2^k with a sticky bit into a layout, ties to even. -/
def rndFin (f : FpParam) (neg : Bool) (m : Nat) (k : Int) (st : Bool) : Rnd :=
  let sgn := if neg then 2 ^ (f.w - 1) else 0
  if m = 0 then ⟨sgn, false, false, false, none⟩
  else
    let e := (Nat.log2 m : Int) + k
    let low := (if f.sub then max e f.emin else e) - ((f.p : Int) - 1)
    let r :=
      if low ≤ k then shl m (k - low)
      else
        let d := (low - k).toNat
        let q := m / 2 ^ d
        let half := m / 2 ^ (d - 1) % 2 == 1
        let rest := m % 2 ^ (d - 1) != 0 || st
        if half && (rest || q % 2 == 1) then q + 1 else q
    if !f.sub && r != 0 && !leScaled 1 f.emin r low then ⟨sgn, false, true, false, some e⟩
    else if !leScaled r low f.maxM f.maxK then ⟨sgn + fpInf f, true, false, false, some e⟩
    else ⟨sgn + fpEncode f r low, false, false, false, some e⟩

/-- A value rounded into a floating-point layout, specials by R276. -/
def rndVal (f : FpParam) (v : Val) (st : Bool) : Rnd :=
  match v with
  | .nan => ⟨fpNan f, false, false, true, none⟩
  | .inf n => ⟨(if n then 2 ^ (f.w - 1) else 0) + fpInf f, !f.infs, false, false, none⟩
  | .fin n m k => rndFin f n m k st

/-- The value of a code of a layout, subnormals exact (R298, R299). -/
def fpExact (f : FpParam) (c : Nat) : Val :=
  let neg := bitAt c (f.w - 1)
  let e := c / 2 ^ (f.p - 1) % 2 ^ (f.w - f.p)
  let fr := c % 2 ^ (f.p - 1)
  let top := 2 ^ (f.w - f.p) - 1
  if f.p = 2 then
    if e = 0 then .fin neg fr (f.emin - 1) else .fin neg (2 + fr) ((e : Int) - f.bias - 1)
  else if f.p = 4 then
    if e = top ∧ fr = 7 then .nan
    else if e = 0 then .fin neg fr (f.emin - 3) else .fin neg (8 + fr) ((e : Int) - f.bias - 3)
  else if e = top then (if fr = 0 then .inf neg else .nan)
  else if e = 0 then .fin neg fr (f.emin - ((f.p : Int) - 1))
  else .fin neg (2 ^ (f.p - 1) + fr) ((e : Int) - f.bias - ((f.p : Int) - 1))

/-- A decoded element: its value and whether a subnormal was flushed (R266, R313). -/
def fpDecode (f : FpParam) (c : Nat) : Val × Bool :=
  let v := fpExact f c
  match v with
  | .fin n m _ =>
    if !f.sub && m != 0 && c / 2 ^ (f.p - 1) % 2 ^ (f.w - f.p) == 0 then (.zero n, true) else (v, false)
  | _ => (v, false)

/-- FP32 bits as an exact value (no flush). -/
def f32 (c : Nat) : Val := fpExact fp32 c

/-- Half of 2 × num / den rounded to an integer, ties to even, with a sticky bit below num (R275). -/
def roundDiv (num den : Nat) (st : Bool) : Nat :=
  let q := num / den
  let r := 2 * (num % den)
  if den < r ∨ (r = den ∧ (st ∨ q % 2 = 1)) then q + 1 else q

/-- |v / c| rounded to an integer, ties to even, for finite v and finite nonzero c. -/
def roundQuot (v c : Val) (st : Bool) : Nat :=
  match v, c with
  | .fin _ m i, .fin _ n j =>
    let d := i - j
    if 0 ≤ d then roundDiv (m * 2 ^ d.toNat) n st else roundDiv m (n * 2 ^ (-d).toNat) st
  | _, _ => 0

/-- Rounding into INT8 with a scale (R275, R276): never −128. -/
def rndInt8 (scale v : Val) (st : Bool) : Rnd :=
  match v with
  | .nan => ⟨0, false, false, true, none⟩
  | .inf n => ⟨if n != scale.neg then 0x81 else 0x7F, true, false, false, none⟩
  | .fin n m k =>
    let neg := n != scale.neg
    let q := roundQuot v scale st
    let e := if m = 0 then none else some ((Nat.log2 m : Int) + k)
    let c := fun (x : Nat) => if neg then (256 - x) % 256 else x
    if 127 < q then ⟨c 127, true, false, false, e⟩ else ⟨c q, false, false, false, e⟩

/-- The largest magnitude among finite values, as a positive value; zero where there is none. -/
def amaxOf (vs : List Val) : Val :=
  vs.foldl (fun a v => match v with
    | .fin _ m k => if a.lt (.fin false m k) then .fin false m k else a
    | _ => a) (.zero false)

/-- The block exponent of R282. -/
def blockExp (vs : List Val) : Int :=
  match amaxOf vs with
  | .fin _ m k =>
    if m = 0 then -127
    else
      let x := (Nat.log2 m : Int) + k - 2
      let x := if leScaled 7 x m k then x + 1 else x
      if 127 < x then 127 else if x < -127 then -127 else x
  | _ => -127

/-- An element divided by 2^x and rounded to E2M1 (R282, R283). -/
def rndE2m1 (v : Val) (x : Int) (st : Bool) : Rnd :=
  match v with
  | .fin n m k =>
    let r := rndFin e2m1 n m (k - x) st
    { r with flush := false, e := if m = 0 then none else some ((Nat.log2 m : Int) + k) }
  | _ => ⟨0, false, false, true, none⟩

/-- The elements of a NaN block (R276, R311): zero codes, infinite elements counted saturated, one NaN for the block. -/
def nanBlock (vs : List Val) : List Rnd :=
  vs.map fun v => ⟨0, v.isInf, false, true, none⟩

/-- Pairs of a list of nibbles packed into bytes, low nibble first (R296). -/
def packNibbles : List Nat → List Byte
  | a :: b :: r => BitVec.ofNat 8 (a % 16 + b % 16 * 16) :: packNibbles r
  | [a] => [BitVec.ofNat 8 (a % 16)]
  | [] => []

/-- Quadruples of two-bit codes packed into bytes (R296). -/
def packPairs : List Nat → List Byte
  | a :: b :: c :: d :: r => BitVec.ofNat 8 (a % 4 + b % 4 * 4 + c % 4 * 16 + d % 4 * 64) :: packPairs r
  | _ => []

/-- A block written in a block format: element bytes, scale bytes, shift bytes, what became of each element, flushes and
NaNs counted for the block. -/
structure BlockOut where
  elems : List Byte
  scale : List Byte
  shift : List Byte
  rs : List Rnd
  sat : Nat
  flush : Nat
  nan : Nat
deriving DecidableEq, Repr

/-- Saturated elements of a list. -/
def satCount (rs : List Rnd) : Nat := (rs.filter (·.sat)).length

/-- An MXFP4 block of up to 32 values with sticky bits (R282). -/
def mxBlock (vs : List (Val × Bool)) : BlockOut :=
  let v := vs.map (·.1)
  if v.any (fun x => x.isNan || x.isInf) then
    let rs := nanBlock v
    ⟨packNibbles (rs.map (·.code)), [0xFF], [], rs, satCount rs, 0, 1⟩
  else
    let x := blockExp v
    let rs := vs.map fun p => rndE2m1 p.1 x p.2
    ⟨packNibbles (rs.map (·.code)), leBytes 1 (x + 127).toNat, [], rs, satCount rs, 0, 0⟩

/-- The shift of a sub-block (R283). -/
def tbShift (x : Int) (sub : List Val) : Nat :=
  if sub.all (fun v => !v.live) then 0 else (min 3 (x - blockExp sub)).toNat

/-- A TB4 block of up to 32 values (R283). -/
def tbBlock (vs : List (Val × Bool)) : BlockOut :=
  let v := vs.map (·.1)
  if v.any (fun x => x.isNan || x.isInf) then
    let rs := nanBlock v
    ⟨packNibbles (rs.map (·.code)), [0xFF], [0], rs, satCount rs, 0, 1⟩
  else
    let x := blockExp v
    let sh := (List.range 4).map fun k => tbShift x (slice v (8 * k) 8)
    let rs := (List.range 4).flatMap fun k =>
      (slice vs (8 * k) 8).map fun p => rndE2m1 p.1 (x - (sh.getD k 0 : Nat)) p.2
    let b := (List.range 4).foldl (fun a k => a + sh.getD k 0 * 4 ^ k) 0
    ⟨packNibbles (rs.map (·.code)), leBytes 1 (x + 127).toNat, leBytes 1 b, rs, satCount rs, 0, 0⟩

/-- An INT4 block of up to 32 values (R309, R311). -/
def int4Block (vs : List (Val × Bool)) : BlockOut :=
  let v := vs.map (·.1)
  if v.any (fun x => x.isNan || x.isInf) then
    let rs := nanBlock v
    ⟨packNibbles (rs.map (·.code)), leBytes 2 0x7E00, [], rs, satCount rs, 0, 1⟩
  else
    let am := amaxOf v
    let zeros := v.map fun x => (⟨0, false, false, false, if x.live then some x.exp else none⟩ : Rnd)
    if !am.live then ⟨packNibbles (zeros.map (·.code)), leBytes 2 0, [], zeros, 0, 0, 0⟩
    else
      let (q, st) := am.div (.fin false 7 0)
      let c := rndVal fp16 q st
      if c.code = 0 then ⟨packNibbles (zeros.map (·.code)), leBytes 2 0, [], zeros, 0, 1, 0⟩
      else
        let code := if c.sat then 0x7BFF else c.code
        let cv := fpExact fp16 code
        let rs := v.map fun x =>
          let i := roundQuot x cv false
          let neg := x.neg
          let put := fun (n : Nat) => if neg then (16 - n) % 16 else n
          (⟨if 7 < i then put 7 else put i, decide (7 < i), false, false, if x.live then some x.exp else none⟩ : Rnd)
        ⟨packNibbles (rs.map (·.code)), leBytes 2 code, [], rs, satCount rs + (if c.sat then 1 else 0), 0, 0⟩

/-- A T2 block of up to 64 values (R310, R311). -/
def t2Block (vs : List (Val × Bool)) : BlockOut :=
  let v := vs.map (·.1)
  if v.any (fun x => x.isNan || x.isInf) then
    let rs := nanBlock v
    ⟨packPairs (rs.map (·.code)), leBytes 2 0x7FC0, [], rs, satCount rs, 0, 1⟩
  else
    let sum := v.foldl (fun (a : Val) x => match x with | .fin _ m k => a.add (.fin false m k) | _ => a) (Val.zero false)
    let mean := sum.mul (.fin false 1 (-6))
    let zeros := v.map fun x => (⟨0, false, false, false, if x.live then some x.exp else none⟩ : Rnd)
    let c := rndVal bf16 mean false
    if !mean.live ∨ c.code = 0 then
      ⟨packPairs (zeros.map (·.code)), leBytes 2 0, [], zeros, 0, if c.flush then 1 else 0, 0⟩
    else
      let cv := fpExact bf16 c.code
      let rs := v.map fun x =>
        let i := if cv.isInf then 0 else roundQuot x cv false
        (⟨if i = 0 then 0 else if x.neg then 3 else 1, false, false, false, if x.live then some x.exp else none⟩ : Rnd)
      ⟨packPairs (rs.map (·.code)), leBytes 2 c.code, [], rs, if c.sat then 1 else 0, 0, 0⟩

/-- Cut a list into pieces of n elements (the fuel bounds the number of pieces). -/
def chunks {α : Type} (n : Nat) : Nat → List α → List (List α)
  | 0, _ => []
  | fuel + 1, l => if l.isEmpty then [] else l.take n :: chunks n fuel (l.drop n)

/-- Elements per granule of a format (R293). -/
def granElems (f : Nat) : Nat := (fmtRow f).2.2.1

/-- The granules that n elements take in a format. -/
def granules (f n : Nat) : Nat := ceilDiv n (granElems f)

/-- A list of bytes padded with zeros to n. DEDUCED (log 98). -/
def padTo (n : Nat) (b : List Byte) : List Byte := b ++ List.replicate (n - b.length) 0

/-- Elements written in a format (R294 to R297): bytes of whole granules, what became of each element, and the counts. -/
structure EncOut where
  bytes : List Byte
  rs : List Rnd
  sat : Nat
  flush : Nat
  nan : Nat
deriving DecidableEq, Repr

/-- One granule of blocks: `scaleAt` and `shiftAt` are the offsets of R295. -/
def blockGranule (blocks : List BlockOut) (elemBytes scaleBytes : Nat) : List Byte :=
  let e := padTo elemBytes (blocks.flatMap fun b => padTo 16 b.elems)
  let sc := padTo scaleBytes (blocks.flatMap (·.scale))
  padTo 256 (e ++ sc ++ blocks.flatMap (·.shift))

/-- Values with sticky bits encoded in format f, INT8 with a scale (R307). -/
def encodeVals (f : Nat) (scale : Val) (vs : List (Val × Bool)) : EncOut :=
  if f ≤ 5 then
    let rs := vs.map fun p => if f = 5 then rndInt8 scale p.1 p.2 else rndVal (fpOf f) p.1 p.2
    let w := (fmtRow f).1 / 8
    let b := rs.flatMap fun r => leBytes w r.code
    ⟨padTo (256 * granules f vs.length) b, rs, satCount rs, (rs.filter (·.flush)).length, (rs.filter (·.nan)).length⟩
  else
    let n := (fmtRow f).2.1
    let mk := if f = 6 then mxBlock else if f = 7 then tbBlock else if f = 8 then int4Block else t2Block
    let grans := (chunks (granElems f) (vs.length + 1) vs).map fun g => (chunks n (g.length + 1) g).map mk
    let eb := if f = 6 then 240 else 224
    let sb := if f = 6 then 15 else if f = 7 then 14 else 28
    let blocks := grans.flatMap id
    ⟨grans.flatMap (fun bs => blockGranule bs eb sb), blocks.flatMap (·.rs), sumBy (·.sat) blocks, sumBy (·.flush) blocks,
      sumBy (·.nan) blocks⟩

/-- Decoded elements: values, scale and element flushes, reserved codes (R265, R266, R305, R313). -/
structure DecOut where
  vs : List Val
  flushed : Nat
  reserved : Nat
deriving DecidableEq, Repr

/-- Nibble e of a byte string. -/
def nibbleAt (b : List Byte) (e : Nat) : Nat := leAt b (e / 2) 1 / 16 ^ (e % 2) % 16

/-- The two's complement integer of w bits as a value. -/
def intVal (w n : Nat) : Val :=
  let i := signedOf w n
  .fin (decide (i < 0)) i.natAbs 0

/-- Decode one granule of format f (R294 to R305). -/
def decodeGranule (f : Nat) (scale : Val) (g : List Byte) : DecOut :=
  if f = 5 then ⟨(List.range 256).map fun i => (intVal 8 (leAt g i 1)).mul scale, 0, 0⟩
  else if f < 5 then
    let w := (fmtRow f).1 / 8
    let ds := (List.range (256 / w)).map fun i => fpDecode (fpOf f) (leAt g (w * i) w)
    ⟨ds.map (·.1), (ds.filter (·.2)).length, 0⟩
  else if f = 6 ∨ f = 7 then
    let nb := if f = 6 then 15 else 14
    let vs := (List.range nb).flatMap fun j =>
      let sc := leAt g ((if f = 6 then 240 else 224) + j) 1
      let sh := if f = 6 then 0 else leAt g (238 + j) 1
      (List.range 32).map fun e =>
        if sc = 255 then Val.nan
        else (fpExact e2m1 (nibbleAt (slice g (16 * j) 16) e)).mul
          (.fin false 1 ((sc : Int) - 127 - (sh / 4 ^ (e / 8) % 4 : Nat)))
    ⟨vs, 0, 0⟩
  else if f = 8 then
    let vs := (List.range 14).flatMap fun j =>
      let c := fpExact fp16 (leAt g (224 + 2 * j) 2)
      (List.range 32).map fun e =>
        if c.isNan || c.isInf then Val.nan else (intVal 4 (nibbleAt (slice g (16 * j) 16) e)).mul c
    ⟨vs, 0, 0⟩
  else
    let bl := (List.range 14).map fun j =>
      let (c, fl) := fpDecode bf16 (leAt g (224 + 2 * j) 2)
      let codes := (List.range 64).map fun e => leAt g (16 * j + e / 4) 1 / 4 ^ (e % 4) % 4
      let vs := codes.map fun t =>
        if c.isNan || c.isInf then Val.nan
        else (if t = 1 then Val.fin false 1 0 else if t = 3 then .fin true 1 0 else .zero false).mul c
      (⟨vs, if fl then 1 else 0, (codes.filter (· == 2)).length⟩ : DecOut)
    ⟨bl.flatMap (·.vs), sumBy (·.flushed) bl, sumBy (·.reserved) bl⟩

/-- Decode a string of granules. -/
def decodeBytes (f : Nat) (scale : Val) (b : List Byte) : DecOut :=
  let ds := (chunks 256 (b.length + 1) b).map (decodeGranule f scale)
  ⟨ds.flatMap (·.vs), sumBy (·.flushed) ds, sumBy (·.reserved) ds⟩

/-- The counts of an encoding into a format, in the format's entries (R307, R316). DEDUCED (log 109). -/
def State.fmtOut (s : State) (f sat flush nan : Nat) : State :=
  ((s.inc (E.format_saturated.n f) sat).inc (E.format_flushed_out.n f) flush).inc (E.format_nan_out.n f) nan

/-- The counts of a decoding of a format (R305, R313, R316). -/
def State.fmtIn (s : State) (f flushed reserved : Nat) : State :=
  (s.inc (E.format_flushed_in.n f) flushed).inc (E.format_reserved_in.n f) reserved

/-! ### The exact window and FP32 -/

/-- The exact-window sum of R270, with its sticky bit. The answer is NaN, an infinity, a signed zero, or t × 2^(emax−63). -/
def windowSum (xs : List Val) : Val × Bool :=
  let pinf := xs.any (fun x => x = .inf false)
  let ninf := xs.any (fun x => x = .inf true)
  if xs.any Val.isNan || (pinf && ninf) then (.nan, false)
  else if pinf then (.inf false, false)
  else if ninf then (.inf true, false)
  else
    let live := xs.filter Val.live
    match live with
    | [] => (.zero (xs.all Val.neg && !xs.isEmpty), false)
    | x :: rest =>
      let emax := rest.foldl (fun e y => max e y.exp) x.exp
      let (t, st) := live.foldl (fun (a : Int × Bool) y =>
        match y with
        | .fin neg m k =>
          let d := emax - 63 - k
          let q : Int := (shl m (-d) : Nat)
          let lost := decide (0 < d) && m % 2 ^ d.toNat != 0
          (if neg then a.1 - q else a.1 + q, a.2 || lost)
        | _ => a) ((0 : Int), false)
      if t = 0 then (.zero false, st) else (.fin (decide (t < 0)) t.natAbs (emax - 63), st)

/-- FP32 addition with one rounding (R268). -/
def add32 (a b : Nat) : Rnd := rndVal fp32 ((f32 a).add (f32 b)) false
/-- FP32 multiplication. -/
def mul32 (a b : Nat) : Rnd := rndVal fp32 ((f32 a).mul (f32 b)) false
/-- FP32 division. -/
def div32 (a b : Nat) : Rnd := let (q, st) := (f32 a).div (f32 b); rndVal fp32 q st
/-- An FP32 code with its sign flipped. -/
def neg32 (a : Nat) : Nat := if a < 2 ^ 31 then a + 2 ^ 31 else a - 2 ^ 31
/-- FP32 subtraction. -/
def sub32 (a b : Nat) : Rnd := add32 a (neg32 b)

/-- ln 2 in units of 2^-200. -/
def ln2Fix : Nat := sumBy (fun k => 2 ^ 200 / ((k + 1) * 2 ^ (k + 1))) (List.range 210)

/-- e^y in units of 2^-200, for 0 ≤ y < 1 in those units. -/
def expFix (y : Nat) : Nat :=
  ((List.range 64).foldl (fun (a : Nat × Nat) j => (a.1 + a.2, a.2 * y / ((j + 1) * 2 ^ 200))) (0, 2 ^ 200)).1

/-- 2^u for an exact value u, to far more bits than a rounding needs, with a sticky bit. -/
def exp2Val : Val → Val × Bool
  | .nan => (.nan, false)
  | .inf n => if n then (.zero false, false) else (.inf false, false)
  | .fin neg m k =>
    if m = 0 then (.fin false 1 0, false)
    else if 14 < (Nat.log2 m : Int) + k then (if neg then (.fin false 1 (-100000), true) else (.fin false 1 100000, true))
    else
      let t : Nat := (if k < 0 then -k else 0).toNat
      let u : Int := (if neg then -1 else 1) * ((shl m (k + (t : Int)) : Nat) : Int)
      let n := u / ((2 ^ t : Nat) : Int)
      let fr := (u % ((2 ^ t : Nat) : Int)).toNat
      if fr = 0 then (.fin false 1 n, false) else (.fin false (expFix (fr * ln2Fix / 2 ^ t)) (n - 200), true)

/-- 2^u for FP32 u, correctly rounded to FP32 (R279). -/
def exp2_32 (u : Nat) : Rnd := let (v, st) := exp2Val (f32 u); rndVal fp32 v st

/-- Is FP32 a at least b (neither a NaN)? -/
def ge32 (a b : Nat) : Bool := !(f32 a).lt (f32 b)

/-- The greater of two FP32 codes. -/
def max32 (a b : Nat) : Nat := if (f32 a).lt (f32 b) then b else a

/-- Is an FP32 code finite, normal and not zero (R267)? -/
def scaleOk (c : Nat) : Bool :=
  let e := c / 2 ^ 23 % 256
  e != 0 && e != 255

end Sys2Proof.Machine
end

