-- ==== Sys2Proof/Machine/MillMath.lean ====
section
/-!
DEFINITION. The arithmetic of the Mill arrays and vector units (spec/12_mills.md R335 to R341): product groups, matrix
rows, attention pages and their merge (R279, R280), and the epilogue steps.
-/

namespace Sys2Proof.Machine

/-- Saturation, flush and NaN counts of a job or a segment (R341). -/
structure Ev where
  sat : Nat
  flush : Nat
  nan : Nat
deriving DecidableEq, Repr

/-- No events. -/
def ev0 : Ev := ⟨0, 0, 0⟩

/-- Counts added. -/
def Ev.add (a b : Ev) : Ev := ⟨a.sat + b.sat, a.flush + b.flush, a.nan + b.nan⟩

/-- The events of one rounding into FP32 inside a unit: NaNs are counted when they are written (R276, R341). -/
def Rnd.ev (r : Rnd) : Ev := ⟨if r.sat then 1 else 0, if r.flush then 1 else 0, 0⟩

/-- exp(m − M) by the three steps of R279: the difference, times 0x3FB8_AA3B, then 2 to that power, with what they counted
(R307). -/
def expDiff (m mx : Nat) : Nat × Ev :=
  let d := sub32 m mx
  let u := mul32 d.code 0x3FB8AA3B
  let p := exp2_32 u.code
  (p.code, (d.ev.add u.ev).add p.ev)

/-- The sum of a group's exact products (R339): the window's bit 47 weighs 2^emax, lower bits are cut off. -/
def groupSum (ps : List Val) : Rnd :=
  if ps.any Val.isNan || (ps.any (fun x => x = .inf false) && ps.any (fun x => x = .inf true)) then rndVal fp32 .nan false
  else if ps.any (fun x => x = .inf false) then rndVal fp32 (.inf false) false
  else if ps.any (fun x => x = .inf true) then rndVal fp32 (.inf true) false
  else
    match ps.filter Val.live with
    | [] => rndVal fp32 (.zero false) false
    | x :: rest =>
      let emax := rest.foldl (fun e y => max e y.exp) x.exp
      let t := (x :: rest).foldl (fun (a : Int) y =>
        match y with
        | .fin neg m k => let q : Int := (shl m (k - (emax - 47)) : Nat); if neg then a - q else a + q
        | _ => a) (0 : Int)
      rndVal fp32 (.fin (decide (t < 0)) t.natAbs (emax - 47)) false

/-- FP32 codes added in order, the first copied; with the events. -/
def sum32 (xs : List Nat) : Nat × Ev :=
  match xs with
  | [] => (0, ev0)
  | x :: r => r.foldl (fun (a : Nat × Ev) y => let z := add32 a.1 y; (z.code, a.2.add z.ev)) (x, ev0)

/-- The three BF16 pieces of an FP32 operand (R340). -/
def split3 (v : Val) : List Val :=
  let flush := fun (x : Val) => fpExact bf16 (rndVal bf16 x false).code
  let a0 := flush v
  let r1 := v.add a0.flip
  let a1 := flush r1
  let a2 := flush (r1.add a1.flip)
  [a0, a1, a2]

/-- The products of one pair of elements: one, or six in the FP32 class (R339, R340). -/
def pairProducts (wide : Bool) (a b : Val) : List Val :=
  if wide then
    if a.isNan || a.isInf || b.isNan || b.isInf then [a.mul b]
    else
      let x := split3 a
      let y := split3 b
      let g := fun (i j : Nat) => (x.getD i (.zero false)).mul (y.getD j (.zero false))
      [g 0 0, g 0 1, g 1 0, g 0 2, g 1 1, g 2 0]
  else [a.mul b]

/-- The group sums of two rows of equal length, in groups of 32 along K (R339). -/
def groups (wide : Bool) (a b : List Val) : List Rnd :=
  ((chunks 32 (a.length + 1) (a.zip b))).map fun g => groupSum (g.flatMap fun p => pairProducts wide p.1 p.2)

/-- The sum of the groups of one share in ascending order, with the events. -/
def shareSum (gs : List Rnd) : Nat × Ev :=
  let (c, e) := sum32 (gs.map (·.code))
  (c, gs.foldl (fun a g => a.add g.ev) e)

/-- A dot product over shares of whole groups, each (first, count), whose partial sums are added in the order given. -/
def dot (wide : Bool) (shares : List (Nat × Nat)) (a b : List Val) : Nat × Ev :=
  let gs := groups wide a b
  let parts := shares.map fun sh => shareSum (slice gs sh.1 sh.2)
  let (c, e) := sum32 (parts.map (·.1))
  (c, parts.foldl (fun x p => x.add p.2) e)

/-! ### Attention -/

/-- FP32 −∞. -/
def negInf32 : Nat := 0xFF800000
/-- FP32 NaN. -/
def nan32 : Nat := 0x7FC00000

/-- The empty partial of D elements. -/
def emptyPart (d : Nat) : Part1 := ⟨List.replicate d 0, negInf32, 0⟩

/-- Is an FP32 code zero? -/
def zero32 (c : Nat) : Bool := c % 2 ^ 31 == 0
/-- Is an FP32 code a NaN? -/
def isNan32 (c : Nat) : Bool := decide (0x7F800000 < c % 2 ^ 31)
/-- Does a head's partial force a NaN result (R279, step 1)? -/
def partBad (p : Part1) : Bool :=
  p.o.any isNan32 || isNan32 p.m || isNan32 p.l || (decide (2 ^ 31 ≤ p.l) && !zero32 p.l) || p.l == 0x7F800000

/-- The NaN partial. -/
def nanPart (d : Nat) : Part1 := ⟨List.replicate d nan32, nan32, nan32⟩

/-- One fold of R280. -/
def foldPart (acc p : Part1) : Part1 × Ev :=
  if partBad acc || partBad p then (nanPart p.o.length, ev0)
  else if zero32 p.l then (acc, ev0)
  else if zero32 acc.l then (p, ev0)
  else
    let mn := max32 acc.m p.m
    let (wa, ea) := expDiff acc.m mn
    let (wb, eb) := expDiff p.m mn
    let a := mul32 wa acc.l
    let b := mul32 wb p.l
    let l := add32 a.code b.code
    let one := fun (x y : Nat) =>
      let u := mul32 x a.code
      let v := mul32 y b.code
      let w := add32 u.code v.code
      let q := div32 w.code l.code
      (q.code, ((u.ev.add v.ev).add w.ev).add q.ev)
    let os := (acc.o.zip p.o).map fun x => one x.1 x.2
    (⟨os.map (·.1), mn, l.code⟩, os.foldl (fun e x => e.add x.2) (((a.ev.add b.ev).add l.ev).add (ea.add eb)))

/-- Partials folded in order (R280). -/
def foldParts (d : Nat) (ps : List Part1) : Part1 × Ev :=
  ps.foldl (fun (a : Part1 × Ev) p => let (q, e) := foldPart a.1 p; (q, a.2.add e)) (emptyPart d, ev0)

/-- A partial before its rounding: the vector's exact values with sticky bits, the maximum and the sum in FP32. -/
structure Merged where
  o : List (Val × Bool)
  m : Nat
  l : Nat
  trunc : Nat
  ev : Ev

/-- The exact merge of R279 over vectors of exact values. -/
def mergeExact (d : Nat) (ps : List (List Val × Nat × Nat)) : Merged :=
  let bad := ps.any fun p => p.1.any Val.isNan || partBad ⟨[], p.2.1, p.2.2⟩
  let live := ps.filter (fun p => !zero32 p.2.2)
  if bad then ⟨List.replicate d (.nan, false), nan32, nan32, 0, ev0⟩
  else
    match live with
    | [] => ⟨List.replicate d (.zero false, false), negInf32, 0, 0, ev0⟩
    | p :: r =>
      let mx := r.foldl (fun m q => max32 m q.2.1) p.2.1
      let ws := live.map fun q =>
        let (p, e) := expDiff q.2.1 mx
        let w := mul32 q.2.2 p
        (w.code, q.1, e.add w.ev)
      let wv := ws.map fun w => f32 w.1
      let (lv, lst) := windowSum wv
      let os := (List.range d).map fun j => windowSum ((ws.map fun w => (f32 w.1).mul (w.2.1.getD j (.zero false))))
      let out := os.map fun n => let (q, st) := n.1.div lv; (q, st || n.2)
      let lr := rndVal fp32 lv lst
      ⟨out, mx, lr.code, (os.filter (·.2)).length + (if lst then 1 else 0),
        ws.foldl (fun e w => e.add w.2.2) lr.ev⟩

/-- The partial of one page for one head (R335): keys and values of its tokens with their row in the page. -/
def pagePart (scalar : Nat) (q : List Val) (toks : List (Nat × List Val × List Val)) (d : Nat) : Part1 × Ev :=
  let sc := toks.map fun t =>
    let (c, e) := dot false [(0, q.length)] q t.2.1
    let r := mul32 scalar c
    (r.code, e.add r.ev)
  let mx := match sc with | [] => negInf32 | x :: r => r.foldl (fun m y => max32 m y.1) x.1
  let es := sc.map fun x => expDiff x.1 mx
  let ps := es.map (·.1)
  let (sum, e0) := sum32 ps
  let e1 := es.foldl (fun e x => e.add x.2) e0
  let outs := (List.range d).map fun j =>
    let prods := (toks.zip ps).map fun t => (t.1.1 / 32, (f32 t.2).mul (t.1.2.2.getD j (.zero false)))
    let gs := [0, 1].filterMap fun g =>
      let l := (prods.filter (fun p => p.1 = g)).map (·.2)
      if l = [] then none else some (groupSum l)
    let (s, e) := shareSum gs
    let r := div32 s sum
    (r.code, e.add r.ev)
  (⟨outs.map (·.1), if sc.any (fun x => isNan32 x.1) then nan32 else mx, sum⟩,
    outs.foldl (fun e x => e.add x.2) (sc.foldl (fun e x => e.add x.2) e1))

/-! ### Vector functions -/

/-- One of the FP32 codes within one unit in the last place of a positive exact value, as the Mills' function picks it.
DEDUCED (log 108). -/
def pickUlp (fn arg : Nat) (v : Val) (st : Bool) : Rnd :=
  match v with
  | .fin false m k =>
    if m = 0 then rndVal fp32 v false
    else
      let e := (Nat.log2 m : Int) + k
      let low := e - 23
      let fl := if low ≤ k then shl m (k - low) else m / 2 ^ (low - k).toNat
      let exact := (decide (low ≤ k) || m % 2 ^ (low - k).toNat == 0) && !st
      let pick := Config.ulpPick fn arg
      let r := if exact then fl + pick % 3 - 1 else fl + pick % 2
      rndFin fp32 false r low false
  | .inf _ => rndVal fp32 (.inf false) false
  | _ => rndVal fp32 .nan false

/-- e^y of an exact value, positive, with a sticky bit. -/
def expVal : Val → Val × Bool
  | .nan => (.nan, false)
  | .inf n => (if n then .zero false else .inf false, false)
  | .fin neg m k =>
    if m = 0 then (.fin false 1 0, false)
    else if 9 < (Nat.log2 m : Int) + k then (if neg then (.fin false 1 (-100000), true) else (.fin false 1 100000, true))
    else
      let y : Int := (if neg then -1 else 1) * ((shl m (k + 200) : Nat) : Int)
      let n := y / ((ln2Fix : Nat) : Int)
      (.fin false (expFix (y % ((ln2Fix : Nat) : Int)).toNat) (n - 200), true)

/-- exp of the Mills (R338). -/
def millExp (x : Nat) : Rnd := let (v, st) := expVal (f32 x); pickUlp 0 x v st

/-- 2 / √π in units of 2^-200. -/
def twoOverSqrtPi : Nat := 1813235411955051368075975534027907639852476658415964181376627

/-- |erf z| in units of 2^-200 for 0 ≤ z < 6 in those units: the series z − z³/3 + z⁵/(2!·5) − … -/
def erfFix (z : Nat) : Nat :=
  let z2 := z * z / 2 ^ 200
  let (sum, _) := (List.range 260).foldl (fun (a : Int × Nat) j =>
    let t : Int := ((a.2 / (2 * j + 1) : Nat) : Int)
    (if j % 2 = 0 then a.1 + t else a.1 - t, a.2 * z2 / 2 ^ 200 / (j + 1))) ((0 : Int), z)
  sum.toNat * twoOverSqrtPi / 2 ^ 200

/-- erf of the Mills (R338). -/
def millErf (x : Nat) : Rnd :=
  match f32 x with
  | .nan => rndVal fp32 .nan false
  | .inf n => rndVal fp32 (.fin n 1 0) false
  | .fin neg m k =>
    let mag :=
      if m = 0 then rndVal fp32 (.zero false) false
      else if (2 : Int) < (Nat.log2 m : Int) + k then pickUlp 1 x (.fin false (2 ^ 200 - 1) (-200)) true
      else
        let z := shl m (k + 200)
        if 6 * 2 ^ 200 ≤ z then pickUlp 1 x (.fin false (2 ^ 200 - 1) (-200)) true
        else if z = 0 then rndFin fp32 false (m * twoOverSqrtPi) (k - 200) true
        else pickUlp 1 x (.fin false (erfFix z) (-200)) true
    if neg then { mag with code := mag.code + 2 ^ 31 } else mag

/-- Integer square root by Newton's steps. -/
def isqrtAux : Nat → Nat → Nat → Nat
  | 0, _, x => x
  | fuel + 1, n, x => let y := (x + n / x) / 2; if y < x then isqrtAux fuel n y else x

/-- The integer square root. -/
def isqrt (n : Nat) : Nat := if n = 0 then 0 else isqrtAux 400 n (2 ^ (Nat.log2 n / 2 + 1))

/-- sqrt of the Mills (R338). -/
def millSqrt (x : Nat) : Rnd :=
  match f32 x with
  | .nan => rndVal fp32 .nan false
  | .inf n => rndVal fp32 (if n then .nan else .inf false) false
  | .fin neg m k =>
    if m = 0 then rndVal fp32 (.zero neg) false
    else if neg then rndVal fp32 .nan false
    else
      let sh : Nat := 200 + (if (k % 2 : Int) = 0 then 0 else 1)
      let n := m * 2 ^ sh
      let r := isqrt n
      pickUlp 2 x (.fin false r ((k - (sh : Int)) / 2)) (r * r != n)

/-! ### Epilogue steps (R338) -/

/-- FP32 of 1, 0.5 and √2. -/
def one32 : Nat := 0x3F800000
/-- One half. -/
def half32 : Nat := 0x3F000000
/-- The square root of 2. -/
def root2 : Nat := 0x3FB504F3

/-- A step on one element that has its row's C element and reciprocal root at hand. Answers the code and the events. -/
def stepElem (code scalar x c rms : Nat) : Nat × Ev :=
  if code = 1 then let r := add32 x c; (r.code, r.ev)
  else if code = 2 then let q := div32 x rms; let r := mul32 q.code c; (r.code, q.ev.add r.ev)
  else if code = 3 then
    let p := millExp (neg32 x)
    let e := add32 one32 p.code
    let r := div32 x e.code
    (r.code, (p.ev.add e.ev).add r.ev)
  else if code = 4 then
    let d := div32 x root2
    let p := millErf d.code
    let e := add32 one32 p.code
    let h := mul32 half32 x
    let r := mul32 h.code e.code
    (r.code, ((d.ev.add p.ev).add (e.ev.add h.ev)).add r.ev)
  else if code = 5 then let r := mul32 x scalar; (r.code, r.ev)
  else (x, ev0)

/-- The root of a row's mean square plus epsilon (R338), the sum in ascending column order. -/
def rowRms (eps : Nat) (row : List Nat) : Nat × Ev :=
  let sq := row.map fun x => mul32 x x
  let (s, e) := sum32 (sq.map (·.code))
  let n := rndVal fp32 (.fin false row.length 0) false
  let mean := div32 s n.code
  let z := add32 mean.code eps
  let q := millSqrt z.code
  (q.code, (((sq.foldl (fun a r => a.add r.ev) e).add mean.ev).add z.ev).add q.ev)

/-- One step on one row of FP32 values. -/
def stepRow (code scalar eps : Nat) (c row : List Nat) : List Nat × Ev :=
  let (rms, e) := if code = 2 then rowRms eps row else (0, ev0)
  let rs := (row.zip (List.range row.length)).map fun p => stepElem code scalar p.1 (c.getD p.2 0) rms
  (rs.map (·.1), rs.foldl (fun a r => a.add r.2) e)

/-- The step codes of a chain up to its end (R322). -/
def stepCodes (w : Nat) : List Nat := ([0, 1, 2, 3].map fun i => bits w (3 * i + 2) (3 * i)).takeWhile (· != 0)

/-- A chain on one row (quantise is the encoding that follows). -/
def chainRow (codes : List Nat) (scalar eps : Nat) (c row : List Nat) : List Nat × Ev :=
  codes.foldl (fun (a : List Nat × Ev) k =>
    if k = 6 then a else let (r, e) := stepRow k scalar eps c a.1; (r, a.2.add e)) (row, ev0)

end Sys2Proof.Machine
end

