-- ==== Sys2Proof/Machine/Rill.lean ====
section
/-!
DEFINITION. The Rill header and its kinds (spec/06_rill_packets.md, R140 to R147): parsing, building, route advance and the
return route.
-/

namespace Sys2Proof.Machine

/-- The header that 48 bytes spell (R140). -/
def parseRill (b : List Byte) : Rill :=
  let w := fun k => leAt b (4 * k) 4
  { version := bits (w 0) 3 0, kind := bits (w 0) 7 4, cls := bits (w 0) 10 8, colour := bits (w 0) 12 11
    hopCount := bits (w 0) 15 13, hopPtr := bits (w 0) 18 16, partition := bits (w 0) 31 20
    lifetime := bits (w 1) 15 0, length := bits (w 1) 28 16, cplReq := bitAt (w 1) 29
    route := [bits (w 2) 9 0, bits (w 2) 19 10, bits (w 2) 29 20, bits (w 3) 9 0]
    ret := [bits (w 3) 19 10, bits (w 3) 29 20, bits (w 4) 9 0, bits (w 4) 19 10]
    handle := w 5, segment := w 6, layer := bits (w 7) 15 0, operator := bits (w 7) 31 16
    w8 := w 8, w9 := w 9, w10 := w 10, tag := bits (w 11) 15 0
    rsv := bits (w 0) 19 19 + bits (w 1) 31 30 + bits (w 2) 31 30 + bits (w 3) 31 30 + bits (w 4) 31 20
    hcrcOk := crc16 (b.take 46) == bits (w 11) 31 16 }

/-- The first 46 bytes of a header (R140). -/
def rillBytes46 (h : Rill) : List Byte :=
  let r := fun i => h.route.getD i 0 % 1024
  let t := fun i => h.ret.getD i 0 % 1024
  leBytes 4 (h.version % 16 + h.kind % 16 * 2 ^ 4 + h.cls % 8 * 2 ^ 8 + h.colour % 4 * 2 ^ 11 + h.hopCount % 8 * 2 ^ 13 +
    h.hopPtr % 8 * 2 ^ 16 + h.partition % 4096 * 2 ^ 20) ++
  leBytes 4 (h.lifetime % 65536 + h.length % 8192 * 2 ^ 16 + (if h.cplReq then 2 ^ 29 else 0)) ++
  leBytes 4 (r 0 + r 1 * 2 ^ 10 + r 2 * 2 ^ 20) ++
  leBytes 4 (r 3 + t 0 * 2 ^ 10 + t 1 * 2 ^ 20) ++
  leBytes 4 (t 2 + t 3 * 2 ^ 10) ++
  leBytes 4 h.handle ++ leBytes 4 h.segment ++ leBytes 4 (h.layer % 65536 + h.operator * 2 ^ 16) ++
  leBytes 4 h.w8 ++ leBytes 4 h.w9 ++ leBytes 4 h.w10 ++ leBytes 2 h.tag

/-- The 48 bytes of a header with its hcrc, inverted where the header is marked bad (R140, R468). -/
def rillBytes (h : Rill) : List Byte :=
  let b := rillBytes46 h
  b ++ leBytes 2 (if h.hcrcOk then crc16 b else 0xFFFF - crc16 b)

/-- A packet as it goes on the wire: zero bytes up to 64 (R140). -/
def padTo64 (b : List Byte) : List Byte := b ++ List.replicate (64 - min 64 b.length) 0

/-- An empty header of a kind, class and partition, green, at the version of R140. -/
def blankRill (kind cls part : Nat) : Rill :=
  { version := 1, kind := kind, cls := cls, colour := 0, hopCount := 0, hopPtr := 0, partition := part, lifetime := 1
    length := 0, cplReq := false, route := [0, 0, 0, 0], ret := [0, 0, 0, 0], handle := 0, segment := 0, layer := 0
    operator := 0, w8 := 0, w9 := 0, w10 := 0, tag := 0, rsv := 0, hcrcOk := true }

/-- The cells of a Rill packet (R171). -/
def rillCells (h : Rill) : Nat := ceilDiv (48 + h.length) 256

/-- The wire length of a Rill packet: header and payload padded to 64, plus the CRC (R202). -/
def rillWire (h : Rill) : Nat := max 64 (48 + h.length) + 4

/-- Does a port of a role admit a kind (R142)? -/
def roleAdmits (role kind : Nat) : Bool :=
  if kind ≥ 10 then false
  else if kind = 5 ∨ kind = 7 then role == 2 || role == 3 || role == 4
  else role == 1 || role == 2 || role == 3 || role == 4

/-- Is the payload length within the kind's range (R143)? A Mill job begins with its descriptor or its argument block (R320), a Mill
result with its header (R329); the read length of a memory read that ends here is 1 to 4,096. DEDUCED (log 70). -/
def payloadOk (h : Rill) : Bool :=
  let n := h.length
  n ≤ 4096 &&
  match h.kind with
  | 1 => n == 0 && (h.hopPtr < h.hopCount || (1 ≤ bits h.w10 12 0 && bits h.w10 12 0 ≤ 4096))
  | 2 => 1 ≤ n
  | 4 => 1 ≤ n
  | 6 => (if h.handle = 0 then 80 else 48) ≤ n
  | 7 => 32 ≤ n
  | 8 => 16 ≤ n
  | 9 => if h.w10 % 2 = 0 then n == 16 else n == 24
  | _ => true

/-- Are the reserved bits of words 8 to 10 zero for the kind (R143)? DEDUCED (log 70). -/
def kindWordsOk (h : Rill) : Bool :=
  match h.kind with
  | 1 => bits h.w9 31 20 == 0 && bits h.w10 31 13 == 0
  | 2 => bits h.w9 31 20 == 0 && h.w10 == 0
  | 3 => bits h.w10 31 8 == 0
  | 4 => h.w9 == 0 && bits h.w10 31 4 == 0
  | 5 => bits h.w9 31 16 == 0 && bits h.w10 7 4 == 0 && bits h.w10 31 16 == 0
  | 6 => h.w8 == 0 && h.w9 == 0 && h.w10 == 0
  | 7 => h.w8 == 0 && h.w9 == 0 && bits h.w10 7 0 == 0 && bits h.w10 31 16 == 0
  | 8 => h.w8 == 0 && h.w9 == 0 && h.w10 == 0
  | 9 => h.w8 == 0 && h.w9 == 0 && bits h.w10 31 1 == 0
  | _ => true

/-- Check 1 of R163. DEDUCED (log 70). -/
def headerOk (h : Rill) : Bool :=
  h.version == 1 && h.hcrcOk && h.rsv == 0 && h.colour != 3 && h.hopCount ≤ 4 && h.hopPtr ≤ h.hopCount

/-- The memory address of a memory packet (R143). -/
def rillAddr (h : Rill) : Nat := h.w8 + 2 ^ 32 * bits h.w9 19 0

/-- The response that an FN7 end point builds to a packet that ended at it (R144, R147): the request's identity, the
reversed route, hop_ptr 0. -/
def respHeader (h : Rill) (kind lifetime : Nat) : Rill :=
  let k := h.hopPtr
  let at_ := fun i => if i ≤ k then h.ret.getD (k - i) 0 else 0
  { blankRill kind h.cls h.partition with
    hopCount := k + 1, route := [at_ 0, at_ 1, at_ 2, at_ 3], lifetime := lifetime
    handle := h.handle, segment := h.segment, layer := h.layer, operator := h.operator, tag := h.tag }

/-- The header with the return slot of hop k written, and the hop taken where the route continues (R145). -/
def advance (h : Rill) (ingressBundle : Nat) : Rill :=
  let k := h.hopPtr
  let h := { h with ret := if k ≤ 3 then setAt h.ret k ingressBundle else h.ret }
  if k < h.hopCount then { h with hopPtr := k + 1 } else h

/-- Does the route of an arriving header continue (R145)? -/
def continues (h : Rill) : Bool := h.hopPtr < h.hopCount

/-- The residence charge of R160 in units of 64 ns. -/
def residenceUnits (since now : Nat) : Nat := ceilDiv (now - since) 64

end Sys2Proof.Machine
end

