-- ==== Sys2Proof/Machine/Switch.lean ====
section
/-!
DEFINITION. The switch core's accounts (spec/06_rill_packets.md R148 to R151, spec/07_switch_core.md R171 to R188): ports, bundles
and weights, the landing reserve, admission and release, early drop.
-/

namespace Sys2Proof.Machine

/-- The lanes that start a configured port, rising. -/
def State.portList (s : State) : List Nat :=
  s.cat.filterMap fun p =>
    let i := p.1 / 2 ^ 60
    if 0x2000 ≤ i ∧ i < 0x2400 ∧ p.1 / 2 ^ 52 % 256 = 1 ∧ p.2 ≠ 0 then some (i - 0x2000) else none

/-- The link state of port n; a port with no record yet sees every lane of its width good on the partner's side. -/
def State.prt (s : State) (n : Nat) : PortRt :=
  let full := 2 ^ s.get (E.port_width.n n) - 1
  mgetD s.ports n ⟨0, full, false, 0, 0, false, none, 0, none, false, 0, 0, 0, false⟩

/-- The link state of port n changed. -/
def State.modPort (s : State) (n : Nat) (f : PortRt → PortRt) : State := { s with ports := mput s.ports n (f (s.prt n)) }

/-- Is port n in an open re-cabling window (R559)? -/
def State.recabled (s : State) (n : Nat) : Bool :=
  s.get E.recable_state.s == 2 && bitAt (s.get (E.recable_ports.loc 0 0 0 (n / 8))) (n % 8)

/-- Has no domain of the crossbar or the Reservoir failed? Through one that has, no traffic goes (R532). DEDUCED (log 148). -/
def State.coreGood (s : State) : Bool := [3, 5, 6, 7, 8].all fun k => s.get (E.pwr_dom_status.n k) != 4

/-- Is port n in service for links and candidates (R148, R135, R19, R532)? -/
def State.inService (s : State) (n : Nat) : Bool :=
  let st := s.get (E.port_state.n n)
  !(s.groupsOut.contains (n / 16)) && !s.recabled n && s.coreGood &&
  (st == 2 || st == 3 ||
   (st == 5 && s.get (E.port_role.n n) == 4 && s.get (E.port_loopback.n n) != 3 && (s.prt n).loopLocked))

/-- Member i of bundle b: a first lane, or 0xFFFF (R148). -/
def State.member (s : State) (b i : Nat) : Nat := bits (s.get (E.bundle_members.n b)) (16 * i + 15) (16 * i)

/-- The members of bundle b as (slot, first lane). -/
def State.members (s : State) (b : Nat) : List (Nat × Nat) :=
  (List.range 32).filterMap fun i => let m := s.member b i; if m = 0xFFFF then none else some (i, m)

/-- The bundle of which port n is a member (R146, R148). -/
def State.bundleOf (s : State) (n : Nat) : Option Nat :=
  s.cat.findSome? fun p =>
    let i := p.1 / 2 ^ 60
    if 0x3000 ≤ i ∧ i < 0x3400 ∧ p.1 / 2 ^ 52 % 256 = 1 then
      if (List.range 32).any (fun j => bits p.2 (16 * j + 15) (16 * j) == n) then some (i - 0x3000) else none
    else none

/-- The ingress bundle of a port: on a tunnel-role port, the bundle whose `tunnel.dst` is the outer source (R146). -/
def State.ingressBundle (s : State) (n : Nat) (outerSrc : Option Nat) : Option Nat :=
  match outerSrc with
  | none => s.bundleOf n
  | some a => s.cat.findSome? fun p =>
      let i := p.1 / 2 ^ 60
      if 0x3C00 ≤ i ∧ i < 0x4000 ∧ p.1 / 2 ^ 52 % 256 = 1 ∧ p.2 = a ∧ a ≠ 0 then some (i - 0x3C00) else none

/-- The active width of port n (R132). -/
def State.width (s : State) (n : Nat) : Nat := s.get (E.port_active_width.n n)

/-- The health factor of port n as a member of its bundle (R151). -/
def State.health (s : State) (n : Nat) : Nat := mgetD s.sw.factor n 16

/-- The weight of member slot i of bundle b (R151). -/
def State.weight (s : State) (b i : Nat) : Nat :=
  let n := s.member b i
  if n = 0xFFFF ∨ ¬ s.inService n then 0
  else if s.getB (E.bundle_adaptive.n b) then s.width n * s.health n
  else s.width n

/-- The flow-handle slot of queue q of port n (R41). -/
def qSlot (n q : Nat) : Nat := 16 * n + q

/-- The egress queue of a packet of a class and colour on port n (R200). -/
def State.queueOf (s : State) (n cls colour : Nat) : Nat :=
  if s.getB (E.sched_colour_split.n n) ∧ colour ≠ 0 then 2 * cls + 1 else 2 * cls

/-- Account cells of queue q of port n (R175). -/
def State.depth (s : State) (n q : Nat) : Nat := s.get (E.queue_depth_cells.h (qSlot n q))

/-- The cells of the packet region (R173, R195), without the blocks that are withheld (R549). DEDUCED (log 149). -/
def State.packetCells (s : State) : Nat := 1572864 - s.get E.rsv_window_region.s * 65536 - 256 * s.st.rsvOut

/-- The internal outputs with accounts (R174). -/
def intOutputs : List Nat := (List.range 22).map (· + 64) ++ [88, 89, 90, 91]

/-- The size of the shared pool (R174): the landing reserves are those of the port groups that the variant has (R5).
DEDUCED (log 75). -/
def State.sharedCells (s : State) : Nat :=
  let q := s.portList.foldl (fun a n => a + sumBy (fun q => s.get (E.queue_min_cells.h (qSlot n q))) (List.range 16)) 0
  let i := sumBy (fun o => s.get (E.internal_min_cells.n (o - 64))) intOutputs
  s.packetCells - (16 * iodCount s.part * s.get E.rsv_landing_cells.s + i + q)

/-- The shared pool's use changed: the peak follows (R195). -/
def State.sharedPeak (s : State) : State :=
  if s.get E.rsv_shared_peak.s < s.get E.rsv_shared_used.s then s.set E.rsv_shared_peak.s (s.get E.rsv_shared_used.s) else s

/-- The shared cells of queue slot f that yellow and red packets hold, and those that red ones hold (R184). -/
def State.hued (s : State) (f : Nat) : Nat × Nat := mgetD s.sw.hued f (0, 0)

/-- The shared cells of queue slot f that coloured packets hold set, the pool's counts with them (R184). -/
def State.setHued (s : State) (f yr r : Nat) : State :=
  let (yr0, r0) := s.hued f
  let s := (s.set E.rsv_shared_yr.s (s.get E.rsv_shared_yr.s + yr - yr0)).set E.rsv_shared_r.s (s.get E.rsv_shared_r.s + r - r0)
  { s with sw := { s.sw with hued := mput s.sw.hued f (yr, r) } }

/-- The buffer test of R184 on an egress queue; colour 0 green, 1 yellow, 2 red. None: refused. -/
def State.admitQ (s : State) (n q need colour : Nat) : Option State :=
  let f := qSlot n q
  let fromMin := min need (s.get (E.queue_min_cells.h f) - s.get (E.queue_min_used.h f))
  let rest := need - fromMin
  let sc := s.sharedCells
  let free := sc - s.get E.rsv_shared_used.s
  let cap := min (s.get (E.queue_shared_max.h f)) (free * 2 ^ s.get (E.queue_alpha.h f) / 64)
  let used := s.get (E.queue_shared_used.h f)
  let yr := s.get E.rsv_shared_yr.s
  let r := s.get E.rsv_shared_r.s
  if rest > 0 ∧ (used + rest > cap ∨
      (colour ≠ 0 ∧ yr + rest > sc * s.get E.rsv_yellow_limit.s / 1024) ∨
      (colour = 2 ∧ r + rest > sc * s.get E.rsv_red_limit.s / 1024)) then none
  else
    let s := s.add (E.queue_min_used.h f) fromMin
    let s := s.add (E.queue_shared_used.h f) rest
    let s := s.add E.rsv_shared_used.s rest
    let h := s.hued f
    let s := if colour = 0 then s else s.setHued f (h.1 + rest) (if colour = 2 then h.2 + rest else h.2)
    some ((s.add (E.queue_depth_cells.h f) need).sharedPeak)

/-- Cells leave an egress queue's account, shared use first (R176); what coloured packets hold of it never exceeds it.
DEDUCED (log 76). -/
def State.releaseQ (s : State) (n q cells colour : Nat) : State :=
  let f := qSlot n q
  let sh := min cells (s.get (E.queue_shared_used.h f))
  let s := s.sub (E.queue_shared_used.h f) sh
  let s := s.sub (E.queue_min_used.h f) (cells - sh)
  let s := s.sub E.rsv_shared_used.s sh
  let h := s.hued f
  let yr := min (h.1 - (if colour = 0 then 0 else sh)) (s.get (E.queue_shared_used.h f))
  let r := min (h.2 - (if colour = 2 then sh else 0)) yr
  let s := if h = (yr, r) then s else s.setHued f yr r
  s.sub (E.queue_depth_cells.h f) cells

/-- The buffer test on an internal output: its cap is `internal.shared_max`, every packet green (R184). -/
def State.admitInt (s : State) (o need : Nat) : Option State :=
  let k := o - 64
  let (mu, su) := mgetD s.sw.intUsed o (0, 0)
  let fromMin := min need (s.get (E.internal_min_cells.n k) - mu)
  let rest := need - fromMin
  if rest > 0 ∧ su + rest > s.get (E.internal_shared_max.n k) then none
  else
    let s := { s with sw := { s.sw with intUsed := mput s.sw.intUsed o (mu + fromMin, su + rest) } }
    let s := s.add E.rsv_shared_used.s rest
    some ((s.add (E.internal_depth_cells.n k) need).sharedPeak)

/-- Cells leave an internal output's account (R176). -/
def State.releaseInt (s : State) (o cells : Nat) : State :=
  let (mu, su) := mgetD s.sw.intUsed o (0, 0)
  let sh := min cells su
  let s := { s with sw := { s.sw with intUsed := mput s.sw.intUsed o (mu - (cells - sh), su - sh) } }
  let s := s.sub E.rsv_shared_used.s sh
  s.sub (E.internal_depth_cells.n (o - 64)) cells

/-- Is there room for `need` cells at an internal output (R186, check 13)? -/
def State.intRoom (s : State) (o need : Nat) : Bool := (s.admitInt o need).isSome

/-! ### The landing reserve (R174) -/

/-- The cells that have landed by core cycle c of a frame of k cells whose first landed on cycle c0 on a port of w lanes: cell k
comes ceil(16.384 k / w) cycles after cell 0 (R182). -/
def landedBy (k w c0 c : Nat) : Nat := min k (1 + (c - c0) * 1000 * w / 16384)

/-- The cells of an Ethernet frame, FCS included (R171). -/
def ethCells (b : List Byte) : Nat := ceilDiv (b.length + 4) 256

/-- What the landing reserve of port group g holds (R174): the cells of frames that are still arriving, and of packets whose
placement comes when this core cycle ends. DEDUCED (log 75). -/
def State.landingUsed (s : State) (g : Nat) : Nat :=
  sumBy (fun (f : EthIn) => if f.port / 16 = g then landedBy (ethCells f.bytes) (s.width f.port) f.cyc s.cyc.n else 0) s.sw.landing +
  sumBy (fun (t : Try) => match t.kind with
    | .rill n _ _ _ _ _ _ => if n / 16 = g then 1 else 0
    | .eth f => if f.port / 16 = g then landedBy (ethCells f.bytes) (s.width f.port) f.cyc s.cyc.n else 0
    | .again _ => 0) s.sw.tries

/-- Can the landing reserve of port n's group not hold one cell more (R174)? `more` is what it holds of packets that no command has
shown yet. DEDUCED (log 75). -/
def landingFull (s : State) (n more : Nat) : Bool := decide (s.get E.rsv_landing_cells.s ≤ s.landingUsed (n / 16) + more)

/-! ### Queues and early drop -/

/-- A queue's scheduling state, its shaper credit starting at its burst (R206). -/
def State.qrt (s : State) (n q : Nat) : QueueRt :=
  mgetD s.qs.q (qSlot n q) ⟨(s.get (E.queue_burst.h (qSlot n q)) * 65536 : Nat), 0, s.ft, 0, 0, 0, 0, 0, 0, false⟩

/-- A queue's scheduling state changed. -/
def State.modQ (s : State) (n q : Nat) (f : QueueRt → QueueRt) : State :=
  { s with qs := { s.qs with q := mput s.qs.q (qSlot n q) (f (s.qrt n q)) } }

/-- The average depth updated (R187). -/
def State.avgStep (s : State) (n q : Nat) : State :=
  let f := qSlot n q
  let avg := s.get (E.queue_avg_depth.h f)
  let d : Int := ((s.depth n q * 256 : Nat) : Int) - (avg : Int)
  let w := s.get (E.queue_avg_weight.h f)
  let s := s.set (E.queue_avg_depth.h f) ((avg : Int) + d / ((2 ^ w : Nat) : Int)).toNat
  { s with sw := { s.sw with avgAt := mput s.sw.avgAt f s.ft } }

/-- The early-drop probability of a queue for a colour, in 1/65,536 (R188). -/
def State.dropProb (s : State) (n q colour : Nat) : Nat :=
  let f := qSlot n q
  let p := s.get (E.queue_red_profile.h f)
  if p = 0xFF then 0
  else
    let lo := s.get (E.red_min.nk p colour)
    let hi := s.get (E.red_max.nk p colour)
    let avg := s.get (E.queue_avg_depth.h f)
    if s.get (E.red_enable.nk p colour) = 0 ∨ avg < lo * 256 then 0
    else if avg < hi * 256 then s.get (E.red_pmax.nk p colour) * (avg - lo * 256) / ((hi - lo) * 256)
    else 65536

/-- A draw from a queue's generator: the register steps and its low 16 bits are the number (R188). -/
def State.drawQ (s : State) (n q : Nat) : Nat × State :=
  let f := qSlot n q
  let r := lfsrStep (mgetD s.sw.lfsr f (lfsrSeed (s.get E.rsv_red_seed.s)))
  (r % 65536, { s with sw := { s.sw with lfsr := mput s.sw.lfsr f r } })

/-- Early drop at a placement attempt (R187, R188): does it act? DEDUCED (log 77). -/
def State.earlyDrop (s : State) (n q colour : Nat) : Bool × State :=
  let s := s.avgStep n q
  if s.get (E.queue_red_profile.h (qSlot n q)) = 0xFF then (false, s)
  else
    let p := s.dropProb n q colour
    let (r, s) := s.drawQ n q
    (decide (r < p), s)

/-- An Archive record of a drop: counter index and subindex, kind, length, egress port (R458). -/
def State.recDrop (s : State) (idx sub kind len port part layer op handle inPort : Nat) : State :=
  s.later (.record 2 part layer op handle inPort
    (leBytes 2 idx ++ leBytes 1 sub ++ leBytes 1 kind ++ leBytes 2 len ++ leBytes 2 port ++ leBytes 8 0))

/-- A Rill drop recorded at a bundle's, a queue's or a port's counter. -/
def State.recDropR (s : State) (idx sub port inPort : Nat) (h : Rill) : State :=
  s.recDrop idx sub h.kind h.length port h.partition h.layer h.operator h.handle inPort

/-- The bytes that a body shows to a sampler, and its length (R192). -/
def bodyBytes : Body → List Byte
  | .rill h p => rillBytes h ++ p
  | .eth b => b
  | .inner _ b => b

/-- The layer, operator and handle of a body (R192). -/
def bodyIds : Body → Nat × Nat × Nat
  | .rill h _ => (h.layer, h.operator, h.handle)
  | _ => (0, 0, 0)

/-- A sampler's state: receive samplers at key 2n, transmit samplers at 2n + 1 (R191). -/
def State.sampler (s : State) (key : Nat) : SamplerRt :=
  mgetD s.qs.samp key ⟨0, lfsrSeed (s.get E.rsv_red_seed.s), 0⟩

/-- The transmitter of port n. -/
def State.ptx (s : State) (n : Nat) : PortTx :=
  mgetD s.qs.tx n ⟨none, none, 0, 0, 0, 0, (s.get (E.sched_port_burst.n n) * 65536 : Nat), 0, s.ft, [], 0, []⟩

/-- The transmitter of port n changed. -/
def State.modTx (s : State) (n : Nat) (f : PortTx → PortTx) : State :=
  { s with qs := { s.qs with tx := mput s.qs.tx n (f (s.ptx n)) } }

end Sys2Proof.Machine
end

