-- ==== Sys2Proof/Machine/Queues.lean ====
section
/-!
DEFINITION. Egress queues (spec/08_queues_shapers_policers_gates.md, R200 to R224): shapers, time gates, the two-level
scheduler, policers and the depth samples.
-/

namespace Sys2Proof.Machine

/-- A byte of a DOMAIN entry. -/
def State.dom (s : State) (e : Ent) (n inst off : Nat) : Nat := s.get (e.loc n 0 inst off)

/-- A little-endian number in a DOMAIN entry. -/
def State.domLe (s : State) (e : Ent) (n inst off len : Nat) : Nat :=
  (List.range len).foldr (fun i a => s.dom e n inst (off + i) + 256 * a) 0

/-- Bytes written to a DOMAIN entry. -/
def State.domPut (s : State) (e : Ent) (n inst off : Nat) (bytes : List Byte) : State :=
  (bytes.foldl (fun (acc : Nat × State) b => (acc.1 + 1, acc.2.set (e.loc n 0 inst acc.1) b.toNat)) (off, s)).2

/-- Some bytes that the spec leaves open: a free value. -/
def State.freshBytes (s : State) (n : Nat) : List Byte × State :=
  let (x, s) := s.fresh (2 ^ (8 * n))
  (leBytes n x, s)

/-- A record of a repair in the flash (R544). Its layout is not stated: the 16 bytes that it adds are free. DESIGN CHOICE (log
149). -/
def State.repairNote (s : State) : State :=
  let (b, s) := s.freshBytes 16
  let s := s.domPut E.st_repair_record 0 0 (s.st.recLen % 4096) b
  { s with st := { s.st with recLen := s.st.recLen + 16 } }

/-- A row goes into the repair record as pending (R549), once. -/
def State.rowPending (s : State) (row : Nat) : State :=
  if s.st.pend.contains row then s else ({ s with st := { s.st with pend := row :: s.st.pend } }).repairNote

/-- A corrected error of a row (R549): the sixteenth within one hour makes it pending. DEDUCED (log 149). -/
def State.rowError (s : State) (row : Nat) : State :=
  let ts := s.ft :: (mgetD s.st.errs row []).filter fun t => decide (s.ft < t + 3600000000000)
  let s := { s with st := { s.st with errs := mput s.st.errs row ts } }
  if 16 ≤ ts.length then s.rowPending row else s

/-- The number of a row in these records: of the Reservoir, of physical Mill x, and of a memory that an address names, whose
rows are taken to be 4 KiB. DESIGN CHOICE (log 149). -/
def rsvRow (row : Nat) : Nat := 274 * row

/-- A row of physical Mill x. -/
def millRow (x row : Nat) : Nat := 274 * row + 1 + x

/-- The row at an address. -/
def addrRow (a : Nat) : Nat := 274 * (a / 4096) + 273

/-- Bit k of a DOMAIN entry that is a bit map. -/
def State.domBit (s : State) (e : Ent) (n inst k : Nat) : Bool := bitAt (s.dom e n inst (k / 8)) (k % 8)

/-- The length of a frame wherever scheduling uses it: wire length plus the port's overhead (R202). -/
def State.overhead (s : State) (n : Nat) : Nat :=
  let o := s.get (E.sched_overhead.n n)
  if o = 0xFF then (if s.get (E.port_mode.n n) = 1 then 20 else 12) else o

/-- The bytes that the tunnel encapsulation adds to a Rill packet (R125, R127). -/
def State.tunnelBytes (s : State) (b : Nat) : Nat :=
  14 + (if s.get (E.tunnel_vlan.n b) = 0 then 0 else 4) + 40 + 8

/-- The cells of a packet that have arrived by core cycle c (R182); an internal source and the Eddy hold them all. -/
def arrivedCells (p : Pkt) (c : Nat) : Nat := if 64 ≤ p.inp ∨ p.ingW = 0 then p.cells else landedBy p.cells p.ingW p.arrCyc c

/-- The wire length of a packet on port n (R202). -/
def State.wireLen (s : State) (n : Nat) (p : Pkt) : Nat :=
  match p.body with
  | .rill _ b =>
    if s.get (E.port_role.n n) = 3 then s.tunnelBytes p.bundle + max 64 (48 + b.length) + 4 else max 64 (48 + b.length) + 4
  | .eth b => b.length + 4
  | .inner _ b => b.length

/-- The length of a frame where scheduling uses it (R202): wire length plus overhead, and `port.mtu` of its ingress port for an
Ethernet frame whose last byte has not arrived. -/
def State.frameLen (s : State) (n : Nat) (p : Pkt) : Nat :=
  let wire := match p.body with
    | .eth _ => if arrivedCells p s.cyc.n < p.cells then s.get (E.port_mtu.n p.ingress) else s.wireLen n p
    | _ => s.wireLen n p
  wire + s.overhead n

/-- The line rate of port n in bytes per ns (R206). -/
def State.lineRate (s : State) (n : Nat) : Nat := 25 * s.width n

/-- How long a frame takes on port n, in 1/1,000 ns. -/
def State.frameTime (s : State) (n len : Nat) : Nat := ceilDiv (len * 1000) (max 1 (s.lineRate n))

/-- The head packet of a queue: the one whose first cell was granted, else the earliest admitted that has not started (R178, R180,
R205). DEDUCED (log 80). -/
def State.headPkt (s : State) (n q : Nat) : Option Pkt :=
  let mine := s.sw.pkts.filter fun p => p.out == n && p.queue == q && !p.started
  match mine.find? (fun p => decide (0 < p.granted)) with
  | some p => some p
  | none => mine.head?

/-- What a rate in kb/s adds in dt ns, in 1/65,536 byte, with the remainder carried (R206, R209). -/
def refill (rate rem dt : Nat) : Nat × Nat := ((rate * 128 * dt + rem) / 15625, (rate * 128 * dt + rem) % 15625)

/-- A credit after dt ns (R206): it rises at its rate, capped at its burst, and falls by what was sent; without a rate it stays. All
in 1/65,536 byte. DEDUCED (log 82). -/
def riseCredit (credit : Int) (rem rate burst dt sent : Nat) : Int × Nat :=
  if rate = 0 then (credit, rem)
  else
    let (a, rem) := refill rate rem dt
    let c := credit + (a : Int) - (sent : Int)
    let cap : Int := ((burst * 65536 : Nat) : Int)
    (if cap < c then max cap (min c credit) else c, rem)

/-- What port n has still to send at an FT of the frame in transmission, in 1/65,536 byte (R206). -/
def State.toSend (s : State) (n now : Nat) : Nat :=
  let t := s.ptx n
  if t.txPkt.isNone then 0 else t.left - s.lineRate n * 65536 * (now - t.leftAt)

/-- Queue credit at an FT at or after the last update (R206). Mode 2 is sending, mode 3 frozen. -/
def State.creditAt (s : State) (n q now : Nat) : Int × Nat :=
  let r := s.qrt n q
  let f := qSlot n q
  if r.mode = 3 then (r.credit, r.rem)
  else riseCredit r.credit r.rem (s.get (E.queue_rate.h f)) (s.get (E.queue_burst.h f)) (now - r.at_)
    (if r.mode = 2 then s.toSend n r.at_ - s.toSend n now else 0)

/-- Port credit at an FT (R207). -/
def State.portCreditAt (s : State) (n now : Nat) : Int × Nat :=
  let t := s.ptx n
  riseCredit t.credit t.rem (s.get (E.sched_port_rate.n n)) (s.get (E.sched_port_burst.n n)) (now - t.at_)
    (s.toSend n t.at_ - s.toSend n now)

/-! ### Time gates -/

/-- Entry k of a gate list: duration, gates, flags (R214). -/
def State.gateEnt (s : State) (slot k : Nat) : Nat × Nat × Nat :=
  (s.domLe E.gate_list 0 slot (8 * k) 4, s.domLe E.gate_list 0 slot (8 * k + 4) 2, s.dom E.gate_list 0 slot (8 * k + 6))

/-- The cycle: the sum of the durations of the entries in use (R214). -/
def State.gateCycle (s : State) (slot : Nat) : Nat :=
  sumBy (fun k => (s.gateEnt slot k).1) (List.range (s.get (E.gate_entries.h slot)))

/-- Does entry k end a segment (R214)? -/
def State.gateSegEnd (s : State) (slot k : Nat) : Bool :=
  (s.gateEnt slot k).2.2 % 2 == 1 || k + 1 == s.get (E.gate_entries.h slot)

/-- The entry that holds an offset in the cycle, and the offset at which it ends. -/
def gateFind (s : State) (slot off : Nat) : List Nat → Nat → Nat × Nat
  | [], acc => (0, acc)
  | k :: ks, acc =>
    let d := (s.gateEnt slot k).1
    if off < acc + d then (k, acc + d) else gateFind s slot off ks (acc + d)

/-- The entry of a list anchored at A that holds FT t, and the FT at which it ends (R215, R219): the offset is
(t − A) mod cycle, never negative. -/
def State.gatePos (s : State) (slot anchor t : Nat) : Nat × Nat :=
  let cyc := max 1 (s.gateCycle slot)
  let off := (((t : Int) - (anchor : Int)) % ((cyc : Nat) : Int)).toNat
  let (k, e) := gateFind s slot off (List.range (s.get (E.gate_entries.h slot))) 0
  (k, t + (e - off))

/-- The pending switch of a gate schedule. -/
def State.gateRt (s : State) (slot : Nat) : GateRt := mgetD s.qs.gate slot ⟨none, 0, 0, none⟩

/-- The gate schedule running on port n, as a slot. -/
def State.portGate (s : State) (n : Nat) : Option Nat :=
  let h := s.get (E.sched_gate_schedule.n n)
  if h = 0 then none else some (hIdx h)

/-- Is queue q of port n open now (R215)? -/
def State.gateOpen (s : State) (n q : Nat) : Bool :=
  match s.portGate n with
  | none => true
  | some slot => bitAt (s.gateEnt slot (s.get (E.gate_entry.h slot))).2.1 q

/-- A place in the course of a port's gates: the list, its entry, the FT at which the entry ends, and the pending switch with the
entry that ends its segment (R215, R218). -/
structure GateAt where
  slot : Nat
  k : Nat
  ends : Nat
  pend : Option Nat
  last : Nat

/-- The entry after entry k of a list. -/
def State.gateAfter (s : State) (slot k : Nat) : Nat := if k + 1 < s.get (E.gate_entries.h slot) then k + 1 else 0

/-- The place that follows: entry 0 of the alternate at the end of the segment of a pending switch, else the next entry of the list
(R215, R218). -/
def State.gateNext (s : State) (g : GateAt) : GateAt :=
  match g.pend with
  | some alt =>
    if g.k = g.last then ⟨alt, 0, g.ends + (s.gateEnt alt 0).1, none, 0⟩
    else let k := s.gateAfter g.slot g.k; ⟨g.slot, k, g.ends + (s.gateEnt g.slot k).1, g.pend, g.last⟩
  | none => let k := s.gateAfter g.slot g.k; ⟨g.slot, k, g.ends + (s.gateEnt g.slot k).1, none, 0⟩

/-- The place at FT t. -/
def gateSeek (s : State) (t : Nat) : Nat → GateAt → GateAt
  | 0, g => g
  | fuel + 1, g => if t < g.ends then g else gateSeek s t fuel (s.gateNext g)

/-- The place of port n's gates at FT t, if a schedule runs there (R205, R215). -/
def State.gateWhen (s : State) (n t : Nat) : Option GateAt :=
  (s.portGate n).map fun slot =>
    let g := s.gateRt slot
    gateSeek s t 512 ⟨slot, s.get (E.gate_entry.h slot), g.boundary, g.pend, g.last⟩

/-- Is queue q open at a place? -/
def State.gateLets (s : State) (g : GateAt) (q : Nat) : Bool := bitAt (s.gateEnt g.slot g.k).2.1 q

/-- Is queue q of port n open at FT t (R205, R215)? -/
def State.gateOpenAt (s : State) (n q t : Nat) : Bool :=
  match s.gateWhen n t with
  | none => true
  | some g => s.gateLets g q

/-- The next closing of a queue that is open at a place (R215, R216). -/
def closingScan (s : State) (q : Nat) : Nat → GateAt → Option Nat
  | 0, _ => none
  | fuel + 1, g =>
    let g' := s.gateNext g
    if s.gateLets g' q then closingScan s q fuel g' else some g.ends

/-- The FT of the next closing after FT t of queue q, if it closes at all. -/
def State.nextClosing (s : State) (n q t : Nat) : Option Nat :=
  match s.gateWhen n t with
  | none => none
  | some g => closingScan s q 512 g

/-- Does a frame that starts at FT t end at or before the queue's next closing (R216)? -/
def State.gateFits (s : State) (n q t len : Nat) : Bool :=
  match s.nextClosing n q t with
  | none => true
  | some c => t * 1000 + s.frameTime n len ≤ c * 1000

/-- May the gates let a frame start from queue q at FT t (R203, R216)? -/
def State.gateLetsStart (s : State) (n q t len : Nat) : Bool := s.gateOpenAt n q t && s.gateFits n q t len

/-- The queue of the frame in transmission on port n. -/
def State.sendingQ (s : State) (n : Nat) : Option Nat :=
  (s.ptx n).txPkt.bind fun id => (s.sw.pkts.find? fun p => p.id == id).map (·.queue)

/-- The queue's credit brought to now, and its mode for the time to come (R206): sending, or frozen while its gate is closed or its
head frame does not fit. -/
def State.touchQ (s : State) (n q : Nat) : State :=
  let (c, rem) := s.creditAt n q s.ft
  let mode := if s.sendingQ n = some q then 2 else match s.headPkt n q with
    | none => 0
    | some p => if s.gateLetsStart n q s.ft (s.frameLen n p) then 1 else 3
  s.modQ n q fun r => { r with credit := c, rem := rem, at_ := s.ft, mode := mode }

/-- Every queue of a port brought to now, with the port's own credit and what it has still to send. -/
def State.touchPort (s : State) (n : Nat) : State :=
  let s := (List.range 16).foldl (fun st q => st.touchQ n q) s
  let (c, rem) := s.portCreditAt n s.ft
  let left := s.toSend n s.ft
  s.modTx n fun t => { t with credit := c, rem := rem, at_ := s.ft, left := left, leftAt := s.ft }

/-- The transmitter of port n ends its frame: credits are brought to now first (R206). -/
def State.endFrame (s : State) (n : Nat) : State :=
  let s := s.touchPort n
  (s.modTx n fun t => { t with txPkt := none, left := 0 }).touchPort n

/-- The line rate of port n has changed (R206): the frame in transmission ends when the new rate has sent the rest. -/
def State.retime (s : State) (n : Nat) : State :=
  s.modTx n fun t => if t.txPkt.isNone then t else
    { t with endAt := s.ft * 1000 + ceilDiv (t.left * 1000) (max 1 (s.lineRate n * 65536)) }

/-! ### The scheduler -/

/-- Is queue q eligible at FT t (R203)? -/
def State.eligible (s : State) (n q t : Nat) : Bool :=
  match s.headPkt n q with
  | none => false
  | some p =>
    s.gateLetsStart n q t (s.frameLen n p) &&
    (s.get (E.queue_rate.h (qSlot n q)) == 0 || decide (0 ≤ (s.creditAt n q t).1)) &&
    (s.get (E.sched_port_rate.n n) == 0 || decide (0 ≤ (s.portCreditAt n t).1))

/-- One member of a deficit round robin: its key, whether it may send, its frame's length, its quantum. -/
structure DrrMember where
  key : Nat
  ok : Bool
  len : Nat
  quantum : Nat

/-- Deficit round robin (R204): the member at the turn sends while its deficit covers its frame; otherwise the next is
visited and gains its quantum. Answers the chosen key, the new deficits and the turn. DEDUCED (log 83). -/
def drr (ms : List DrrMember) : Nat → Nat → NMap Nat → Option (Nat × NMap Nat × Nat)
  | 0, _, _ => none
  | fuel + 1, turn, def_ =>
    match ms[turn]? with
    | none => none
    | some m =>
      let d := mgetD def_ m.key 0
      if m.ok && m.len ≤ d then some (m.key, mput def_ m.key (d - m.len), turn)
      else
        let turn' := nextMod turn ms.length
        match ms[turn']? with
        | none => none
        | some m' =>
          let def' := if m'.ok then mput def_ m'.key (mgetD def_ m'.key 0 + m'.quantum) else def_
          drr ms fuel turn' def'

/-- The length of the head frame of a queue, 0 where it is empty. -/
def State.headLen (s : State) (n q : Nat) : Nat := match s.headPkt n q with | some p => s.frameLen n p | none => 0

/-- Level 1 (R204): the sub-queue of class c that would send, with the deficits and turn it leaves. DEDUCED (log 83). -/
def State.level1 (s : State) (n c t : Nat) : Option (Nat × NMap Nat × Nat) :=
  let e0 := s.eligible n (2 * c) t
  let e1 := s.eligible n (2 * c + 1) t
  if bitAt (s.get (E.sched_sub_strict.n n)) c then
    if e0 then some (2 * c, [], 0) else if e1 then some (2 * c + 1, [], 1) else none
  else if !e0 && !e1 then none
  else
    let mk := fun q e => (⟨q, e, s.headLen n q, s.get (E.queue_weight.h (qSlot n q)) * 1024⟩ : DrrMember)
    let def_ : NMap Nat := [(2 * c, (s.qrt n (2 * c)).deficit), (2 * c + 1, (s.qrt n (2 * c + 1)).deficit)]
    drr [mk (2 * c) e0, mk (2 * c + 1) e1] 100 (mgetD (s.ptx n).subTurn c 0) def_

/-- The scheduler's choice at FT t (R204): strict classes first, highest first, then deficit round robin among the other
classes. Answers the queue and the state with the deficits it leaves. -/
def State.schedPick (s : State) (n t : Nat) : Option (Nat × State) :=
  let commit1 := fun (c : Nat) (r : Nat × NMap Nat × Nat) (st : State) =>
    let st := r.2.1.foldl (fun st p => st.modQ n p.1 fun x => { x with deficit := p.2 }) st
    st.modTx n fun x => { x with subTurn := mput x.subTurn c r.2.2 }
  let strict := s.get (E.sched_strict_mask.n n)
  match [7, 6, 5, 4, 3, 2, 1, 0].findSome? (fun c =>
      if bitAt strict c then (s.level1 n c t).map (fun r => (c, r)) else none) with
  | some (c, r) => some (r.1, commit1 c r s)
  | none =>
    let soft := (List.range 8).filter (fun c => !bitAt strict c)
    let picks := soft.map (fun c => (c, s.level1 n c t))
    if picks.all (fun p => p.2.isNone) then none
    else
      let ms := picks.map fun p =>
        (⟨p.1, p.2.isSome, (match p.2 with | some r => s.headLen n r.1 | none => 0),
          s.get (E.sched_class_weight.nk n p.1) * 1024⟩ : DrrMember)
      let x := s.ptx n
      match drr ms 400 (if x.clsTurn < soft.length then x.clsTurn else 0) x.clsDef with
      | none => none
      | some (c, def_, turn) =>
        match s.level1 n c t with
        | none => none
        | some r => some (r.1, (commit1 c r s).modTx n fun x => { x with clsDef := def_, clsTurn := turn })

/-- A head frame waits for the next opening: the wait counts once (R216). -/
def State.gateWait (s : State) (n q : Nat) : State :=
  if (s.qrt n q).waited then s
  else (s.modQ n q fun r => { r with waited := true }).inc (E.queue_gate_waits.h (qSlot n q)) 1

/-- Head frames that a gate holds back are counted once each in `queue.gate_waits` (R216). -/
def State.gateWaits (s : State) (n t : Nat) : State :=
  if (s.portGate n).isNone then s
  else (List.range 16).foldl (fun st q =>
    match st.headPkt n q with
    | none => st
    | some p =>
      if st.gateOpenAt n q t && !st.gateFits n q t (st.frameLen n p) then st.gateWait n q else st) s

/-- SCHEDULER_DECISION (R205): when the port is idle, or its frame has 64 ns or less to send, the next queue is named. -/
def schedDecision (s : State) (n : Nat) : State :=
  let x := s.ptx n
  if !s.inService n ∨ x.named.isSome ∨ (x.txPkt.isSome ∧ s.ft * 1000 + 64000 < x.endAt) then s
  else
    let t := max s.ft (ceilDiv x.endAt 1000)
    let s := s.gateWaits n t
    match s.schedPick n t with
    | none => s
    | some (q, s) => s.modTx n fun x => { x with named := some q }

/-! ### Policers -/

/-- The bindings in force: port, class, policer handle (R208, R223). -/
def State.bindings (s : State) : List (Nat × Nat × Nat) :=
  let cells := dedup (s.cat.filterMap fun p =>
    if p.1 / 2 ^ 52 = 0x4A00 * 256 + 1 ∧ p.2 ≠ 0 then some (p.1 % 2 ^ 32 / 4) else none)
  cells.filterMap fun w =>
    let h := s.domLe E.policer_bind 0 0 (4 * w) 4
    if h = 0 then none else some (w / 8, w % 8, h)

/-- The policer bound to a port and class. -/
def State.policerOf (s : State) (n c : Nat) : Option Nat :=
  let h := s.domLe E.policer_bind 0 0 (32 * n + 4 * c) 4
  if h = 0 then none else match s.liveH 4 h with
    | some _ => some (hIdx h)
    | none => none

/-- Full buckets of policer i (R209). DEDUCED (log 155). -/
def State.polFull (s : State) (i : Nat) : PolicerRt :=
  ⟨s.get (E.policer_cbs.h i) * 65536, s.get (E.policer_pbs.h i) * 65536, 0, 0, s.ft⟩

/-- A policer's buckets (R209). -/
def State.pol (s : State) (i : Nat) : PolicerRt := mgetD s.qs.pol i (s.polFull i)

/-- The two-rate three-colour marker (R209): colour 0 green, 1 yellow, 2 red, for a packet of B bytes at FT t. -/
def State.mark3 (s : State) (i len t arriving : Nat) : Nat × State :=
  let p := s.pol i
  let dt := t - p.last
  let (a, rc) := refill (s.get (E.policer_cir.h i)) p.rc dt
  let (b, rp) := refill (s.get (E.policer_pir.h i)) p.rp dt
  let tc := min (s.get (E.policer_cbs.h i) * 65536) (p.tc + a)
  let tp := min (s.get (E.policer_pbs.h i) * 65536) (p.tp + b)
  let inc := if s.getB (E.policer_aware.h i) then arriving else 0
  let bb := len * 65536
  let put := fun (tc tp : Nat) => { s with qs := { s.qs with pol := mput s.qs.pol i ⟨tc, tp, rc, rp, max t p.last⟩ } }
  if inc = 2 ∨ tp < bb then (2, put tc tp)
  else if inc = 1 ∨ tc < bb then (1, put tc (tp - bb))
  else (0, put (tc - bb) (tp - bb))

/-- Policing on arrival (R208 to R210): the new colour, whether the packet is dropped, and the counts. -/
def State.police (s : State) (n c arriving wire t : Nat) : Nat × Bool × State :=
  match s.policerOf n c with
  | none => (arriving, false, s)
  | some i =>
    let (col, s) := s.mark3 i (wire + s.overhead n) t arriving
    let cnt := if col = 0 then E.policer_green else if col = 1 then E.policer_yellow else E.policer_red
    let s := s.inc (cnt.h i) 1
    let drop := (col = 1 ∧ s.get (E.policer_yellow_action.h i) = 1) ∨ (col = 2 ∧ s.get (E.policer_red_action.h i) = 1)
    if drop then (col, true, s.inc (E.policer_dropped.h i) 1) else (col, false, s)

/-- Is every policer of a binding table on one I/O die, live and a policer (R208)? -/
def bindOk (s : State) : Bool :=
  let bs := s.bindings
  bs.all (fun b =>
    hType b.2.2 == 4 && decide (16384 ≤ hIdx b.2.2) && (s.liveH 4 b.2.2).isSome &&
    bs.all (fun c => c.2.2 != b.2.2 || c.1 / 256 == b.1 / 256))

/-- Every binding of a policer removed (R212). -/
def unbindPolicer (s : State) (i : Nat) : State :=
  s.bindings.foldl (fun st b =>
    if hIdx b.2.2 = i then st.domPut E.policer_bind 0 0 (32 * b.1 + 4 * b.2.1) (leBytes 4 0) else st) s

/-- Tokens cut to a new burst (R211). DEDUCED (log 155). -/
def policerCut (s : State) (i : Nat) : State :=
  let p := s.pol i
  let p := { p with tc := min p.tc (s.get (E.policer_cbs.h i) * 65536), tp := min p.tp (s.get (E.policer_pbs.h i) * 65536) }
  { s with qs := { s.qs with pol := mput s.qs.pol i p } }

/-! ### Samples -/

/-- One queue's sample fields at a sample FT (R213), and its Archive record (R458 kind 3). -/
def sampleQueue (t : Nat) (s : State) (n q : Nat) : State :=
  let f := qSlot n q
  let r := s.qrt n q
  let d := s.depth n q
  let age := match s.headPkt n q with | some p => min (s.ft - p.admFt) 4294967295 | none => 0
  let mean := if r.departs = 0 then 0 else r.sojSum / r.departs
  let mx := max r.maxDepth d
  let s := s.set (E.queue_sample_ft.h f) t
  let s := s.set (E.queue_sample_depth.h f) d
  let s := s.set (E.queue_sample_max_depth.h f) mx
  let s := s.set (E.queue_sample_head_age.h f) age
  let s := s.set (E.queue_sample_sojourn_mean.h f) mean
  let s := s.set (E.queue_sample_sojourn_max.h f) r.sojMax
  let s := s.set (E.queue_sample_departures.h f) r.departs
  let s := s.later (.record 3 0xFFFF 0 0 (mkHandle 4 1 f) n (leBytes 1 q ++ leBytes 3 0 ++ leBytes 4 d ++ leBytes 4 mx ++
    leBytes 4 age ++ leBytes 4 mean ++ leBytes 4 r.sojMax ++ leBytes 4 r.departs ++ leBytes 4 0))
  s.modQ n q fun r => { r with maxDepth := d, sojSum := 0, sojMax := 0, departs := 0 }

/-- QUEUE_SAMPLE (R213): at each multiple of the interval every queue of every configured port is sampled. -/
def queueSample (s : State) : State :=
  let iv := s.get E.sched_sample_interval.s
  if iv = 0 then s
  else
    let t := s.ft - s.ft % iv
    if t = 0 ∨ t ≤ s.qs.sampleAt then s
    else
      let s := { s with qs := { s.qs with sampleAt := t } }
      s.portList.foldl (fun st n => (List.range 16).foldl (fun st q => sampleQueue t st n q) st) s

/-! ### Gate schedules -/

/-- The handle of a gate slot that is live. -/
def gateWord (s : State) (slot : Nat) : Nat := s.wordOf 9 slot

/-- The run-time state of a gate schedule set. -/
def State.setGate (s : State) (slot : Nat) (g : GateRt) : State := { s with qs := { s.qs with gate := mput s.qs.gate slot g } }

/-- A gate schedule runs on its port from an anchor, its entry taken by the modulo of R219; `came` is the list that it was switched
from, with the core cycle. -/
def gateRun (s : State) (slot anchor : Nat) (came : Option (Nat × Nat)) : State :=
  let n := s.get (E.gate_port.h slot)
  let s := s.touchPort n
  let (k, e) := s.gatePos slot anchor s.ft
  let s := s.hset (E.gate_state.h slot) 9 slot 2
  let s := s.set (E.gate_anchor.h slot) anchor
  let s := s.set (E.gate_entry.h slot) k
  let s := s.set (E.sched_gate_schedule.n n) (gateWord s slot)
  (s.setGate slot ⟨none, 0, e, came⟩).touchPort n

/-- A gate schedule returns to Created; every queue of its port is open unless another list runs. -/
def gateHalt (s : State) (slot : Nat) : State :=
  let n := s.get (E.gate_port.h slot)
  let s := if s.portGate n = some slot then (s.touchPort n).set (E.sched_gate_schedule.n n) 0 else s
  let s := s.hset (E.gate_state.h slot) 9 slot 0
  let s := { s with qs := { s.qs with gate := mdel s.qs.gate slot } }
  s.touchPort n

/-- A pending switch takes effect at a boundary (R218): the alternate runs anchored there, the old list is Created. -/
def gateSwitch (s : State) (slot alt boundary : Nat) : State :=
  let s := s.inc (E.gate_switches.h slot) 1
  let s := gateHalt s slot
  gateRun s alt boundary (some (slot, s.cyc.n))

/-- GATE_BOUNDARY (R215, R218): the entry of port n's running list ends; the next one begins, or a pending switch takes effect
at the end of the segment in which its request landed. -/
def gateBoundary (s : State) (n : Nat) : State :=
  match s.portGate n with
  | none => s
  | some slot =>
    let g := s.gateRt slot
    let k := s.get (E.gate_entry.h slot)
    if s.ft < g.boundary then s
    else
      let next := s.gateNext ⟨slot, k, g.boundary, g.pend, g.last⟩
      if next.slot = slot ∧ (g.pend.isNone ∨ k ≠ g.last) then
        let s := (s.touchPort n).set (E.gate_entry.h slot) next.k
        (s.setGate slot { g with boundary := next.ends }).touchPort n
      else gateSwitch s slot next.slot g.boundary

/-- The boundary of a list's port that has come on this cycle and is not taken yet is taken first: a request that lands on the
cycle on which an entry begins belongs to that entry, and a stop on the cycle of a switch applies after it (R218). -/
def gateCatch (s : State) (slot : Nat) : State := gateBoundary s (s.get (E.gate_port.h slot))

/-- The effect of writing `gate.start` (R217, R77). -/
def gateStart (s : State) (slot ft : Nat) : Nat × State :=
  let n := s.get (E.gate_port.h slot)
  let others := (s.liveIdx 9).any (fun i => i ≠ slot ∧ s.get (E.gate_port.h i) = n ∧
    (s.get (E.gate_state.h i) = 1 ∨ s.get (E.gate_state.h i) = 2))
  let st := s.ftTestIn ft (s.get (E.gate_state.h slot) != 0 || !s.isPort n || others)
  if st ≠ 0 then (st, s)
  else (0, (s.schedule ft (.gateStart slot)).hset (E.gate_state.h slot) 9 slot 1)

/-- GATE_START_FIRE (R217, R78): the list runs anchored at its start FT, even where a forward load made it fire late. -/
def gateStartFire (s : State) : State :=
  match s.dueAct with
  | some ⟨ft, _, .gateStart slot⟩ => gateRun (s.unschedule (.gateStart slot)) slot ft none
  | _ => s

/-- A Running list stops, and its armed alternate is free again (R217). -/
def gateEnd (s : State) (slot : Nat) : State :=
  let pend := (s.gateRt slot).pend
  let s := gateHalt (s.unschedule (.gateSwitch slot)) slot
  match pend with
  | some alt => s.hset (E.gate_state.h alt) 9 alt 0
  | none => s

/-- The list that took over from a list on this core cycle (R218). -/
def State.gateHeir (s : State) (slot : Nat) : Option Nat :=
  (s.liveIdx 9).find? fun i => s.get (E.gate_state.h i) == 2 && (s.gateRt i).came == some (slot, s.cyc.n)

/-- The effect of writing `gate.stop` 1 (R217, R218): a Scheduled list returns to Created, a Running one opens every queue and frees
its armed alternate; a list that was switched away from on this cycle stops the one that took over. -/
def gateStop (s : State) (slot : Nat) : Nat × State :=
  let t := gateCatch s slot
  let st := t.get (E.gate_state.h slot)
  if st = 1 then (0, (t.unschedule (.gateStart slot)).hset (E.gate_state.h slot) 9 slot 0)
  else if st = 2 then (0, gateEnd t slot)
  else match t.gateHeir slot with
    | some i => (0, gateEnd t i)
    | none => (0x0C, s)

/-- The entry that ends the segment of entry k. -/
def State.segLast (s : State) (slot : Nat) : Nat → Nat → Nat
  | 0, k => k
  | fuel + 1, k => if s.gateSegEnd slot k then k else s.segLast slot fuel (k + 1)

/-- A switch request lands (R218): None where it is refused; the alternate becomes Armed. -/
def gateLand (s : State) (slot : Nat) : Option State :=
  let s := gateCatch s slot
  let h := s.get (E.gate_alternate.h slot)
  match s.liveH 9 h with
  | none => none
  | some _ =>
    let alt := hIdx h
    if s.get (E.gate_state.h slot) ≠ 2 ∨ (s.gateRt slot).pend.isSome ∨ s.get (E.gate_state.h alt) ≠ 0 ∨
        s.get (E.gate_port.h alt) ≠ s.get (E.gate_port.h slot) then none
    else
      let s := s.hset (E.gate_state.h alt) 9 alt 3
      some (s.setGate slot { s.gateRt slot with pend := some alt, last := s.segLast slot 256 (s.get (E.gate_entry.h slot)) })

/-- The effect of writing `gate.switch_at` (R218): now for FT 0, scheduled otherwise. -/
def gateSwitchAt (s : State) (slot ft : Nat) : Nat × State :=
  let wrong := s.get (E.gate_state.h slot) != 2 || (s.gateRt slot).pend.isSome || (s.schedFt (.gateSwitch slot)).isSome
  if ft = 0 then
    match (if wrong then none else gateLand s slot) with
    | some s => (0, s)
    | none => (0x0C, s)
  else
    let st := s.ftTestIn ft wrong
    if st ≠ 0 then (st, s) else (0, s.schedule ft (.gateSwitch slot))

/-- GATE_SWITCH_LAND (R218): a scheduled request lands, or is refused and counted. -/
def gateSwitchLand (s : State) : State :=
  match s.dueAct with
  | some ⟨_, _, .gateSwitch slot⟩ =>
    let s := s.unschedule (.gateSwitch slot)
    match gateLand s slot with
    | some s => s
    | none => s.inc (E.gate_switch_refused.h slot) 1
  | _ => s

/-- The FT at which entry `last` of a list ends next, when entry k ends at `ends` (R219). -/
def lastEnds (s : State) (slot last : Nat) : Nat → Nat → Nat → Nat
  | 0, _, ends => ends
  | fuel + 1, k, ends =>
    if k = last then ends else let k' := s.gateAfter slot k; lastEnds s slot last fuel k' (ends + (s.gateEnt slot k').1)

/-- A load of FT (R219): a running list takes the entry of the modulo, and a pending switch waits for the first end of its segment
under the new count; a forward load past that end lets the switch take effect, anchored where that segment ended. -/
def gateRealign (s : State) (old new : Nat) (slot : Nat) : State :=
  if s.get (E.gate_state.h slot) ≠ 2 then s
  else
    let g := s.gateRt slot
    let ended := lastEnds s slot g.last 256 (s.get (E.gate_entry.h slot)) g.boundary
    match g.pend with
    | some alt =>
      if old < new ∧ ended ≤ new then gateSwitch s slot alt ended
      else
        let (k, e) := s.gatePos slot (s.get (E.gate_anchor.h slot)) new
        ((s.set (E.gate_entry.h slot) k).setGate slot { g with boundary := e }).touchPort (s.get (E.gate_port.h slot))
    | none =>
      let (k, e) := s.gatePos slot (s.get (E.gate_anchor.h slot)) new
      ((s.set (E.gate_entry.h slot) k).setGate slot { g with boundary := e }).touchPort (s.get (E.gate_port.h slot))

/-- Is a gate list within its limits (R214), with the reserved bits of all its records zero (R16)? -/
def gateListOk (s : State) (slot : Nat) : Bool :=
  s.gateCycle slot ≤ 4000000000 &&
  (List.range (s.get (E.gate_entries.h slot))).all (fun k =>
    let e := s.gateEnt slot k
    64 ≤ e.1 && e.1 ≤ 1000000000) &&
  (List.range 256).all (fun k => s.dom E.gate_list 0 slot (8 * k + 6) ≤ 1 && s.dom E.gate_list 0 slot (8 * k + 7) == 0)

end Sys2Proof.Machine
end

