-- ==== Sys2Proof/Machine/Place.lean ====
section
/-!
DEFINITION. Placement (spec/06_rill_packets.md R148 to R162, spec/07_switch_core.md R174 to R194): the queues that packets join and
leave, samplers, the choice of a member, the Eddy, placement attempts and what waits for one, and the changes of the division.
-/

namespace Sys2Proof.Machine

/-! ### Packets join and leave -/

/-- A packet that enters the switch core for a bundle: from port `ingress` (crossbar input its group), or from an internal
source. -/
def mkPkt (b : Body) (inp ingress ingW bundle cells arrFt : Nat) : Pkt :=
  { id := 0, body := b, inp := inp, ingress := ingress, ingW := ingW, out := 0, queue := 0, cells := cells, charged := cells
    store := 0, colour := 0, arrFt := arrFt, admFt := 0, admCyc := 0, arrCyc := 0, granted := 0, crossed := 0, planes := 0
    started := false, stomp := false, bundle := bundle, passes := 0, member := 0, weir := 0 }

/-- An admitted packet joins its queue and its virtual output queue (R175, R178, R200); the shaper of a queue that was empty goes on
by its gate and its new head (R206). -/
def State.join (s : State) (p : Pkt) : State :=
  let s := if p.out < 1024 then s.touchQ p.out p.queue else s
  let p := { p with id := s.sw.nextPkt, admFt := s.ft, admCyc := s.cyc.n, granted := 0, crossed := 0, planes := 0, started := false }
  let s := { s with sw := { s.sw with pkts := s.sw.pkts ++ [p], nextPkt := s.sw.nextPkt + 1 } }
  if p.out < 1024 then
    let d := s.depth p.out p.queue
    (s.modQ p.out p.queue fun r => { r with maxDepth := max r.maxDepth d }).touchQ p.out p.queue
  else s

/-- A number for a packet that is stored once and copied (R177). -/
def State.freshStore (s : State) : Nat × State :=
  (s.sw.nextPkt + 1, { s with sw := { s.sw with nextPkt := s.sw.nextPkt + 1 } })

/-- Does a queue of port n hold no packet? -/
def State.emptyQ (s : State) (n q : Nat) : Bool := (s.headPkt n q).isNone

/-- A queue of port n may have emptied: the deficit of an empty sub-queue is 0, and that of an empty class too (R204). -/
def State.emptied (s : State) (n q : Nat) : State :=
  if !s.emptyQ n q then s
  else
    let s := s.modQ n q fun r => { r with deficit := 0 }
    if s.emptyQ n (q / 2 * 2) && s.emptyQ n (q / 2 * 2 + 1) then s.modTx n fun t => { t with clsDef := mput t.clsDef (q / 2) 0 } else s

/-- A packet leaves the switch core: its account is released (R175), and what it leaves empty has no deficit (R204). -/
def State.dropPkt (s : State) (p : Pkt) : State :=
  let s := if p.out < 1024 then s.touchQ p.out p.queue else s
  let s := { s with sw := { s.sw with pkts := s.sw.pkts.filter (fun x => x.id ≠ p.id)
                                      grants := s.sw.grants.filter (fun g => g.pkt ≠ p.id) } }
  if p.out < 1024 then ((s.releaseQ p.out p.queue p.charged p.colour).emptied p.out p.queue).touchQ p.out p.queue
  else s.releaseInt (p.out - 1024) p.charged

/-- Cells charged above what a packet has are released when its last byte has arrived (R155, R175). -/
def State.releaseSurplus (s : State) : State :=
  s.sw.pkts.foldl (fun st p =>
    if p.cells < p.charged ∧ arrivedCells p s.cyc.n = p.cells then
      let st := if p.out < 1024 then st.releaseQ p.out p.queue (p.charged - p.cells) p.colour else st.releaseInt (p.out - 1024) (p.charged - p.cells)
      { st with sw := { st.sw with pkts := st.sw.pkts.map fun x => if x.id = p.id then { x with charged := x.cells } else x } }
    else st) s

/-- A placement for the end of this core cycle (R185). -/
def State.addTry (s : State) (key : Nat) (k : TryKind) : State := { s with sw := { s.sw with tries := s.sw.tries ++ [⟨key, k⟩] } }

/-- The place of a packet in the order of R185: its ingress port, or 16 times its crossbar input. -/
def tryKey (p : Pkt) : Nat := if p.inp < 64 then p.ingress else 16 * p.inp

/-! ### Samplers (R191 to R193) -/

/-- Does a sampler of port n take this packet: every N-th, or by a draw (R191)? -/
def State.sampleTake (s : State) (port n : Nat) (r : SamplerRt) : Bool × SamplerRt :=
  if s.get (E.sample_mode.n port) = 0 then
    if r.count + 1 ≥ n then (true, { r with count := 0 }) else (false, { r with count := r.count + 1 })
  else
    let g := lfsrStep r.gen
    (decide (g % 2 ^ 24 < 2 ^ 24 / n), { r with gen := g })

/-- Does the partition run in Weir mode (R417)? -/
def State.weirPart (s : State) (p : Nat) : Bool := bitAt (s.get (E.weir_partitions.loc 0 0 0 (p / 8))) (p % 8)

/-- Is it a packet of a Weir partition (R417)? Ethernet frames never are. -/
def State.weirBody (s : State) (b : Body) : Bool := match b with | .rill h _ => s.weirPart h.partition | _ => false

/-- A sampler sees a packet (R191 to R193): point 0 receive, 1 transmit, 2 dropped. The record is a packet of the port's
crossbar input to output 85 or 84, charged there as green, class 0, or lost. -/
def State.sampleSee (s : State) (port point reason queue : Nat) (b : Body) (ft : Nat) : State :=
  let n := if point = 0 then s.get (E.sample_rx_n.n port) else s.get (E.sample_tx_n.n port)
  if n = 0 then s
  else
    let key := 2 * port + (if point = 0 then 0 else 1)
    let (take, r) := s.sampleTake port n (s.sampler key)
    if !take then { s with qs := { s.qs with samp := mput s.qs.samp key r } }
    else
      let bytes := bodyBytes b
      let cap := bytes.take (s.get (E.sample_length.n port))
      let (la, op, hd) := bodyIds b
      let desc := leBytes 8 ft ++ leBytes 2 port ++ leBytes 1 point ++ leBytes 1 reason ++ leBytes 2 queue ++
        leBytes 2 0 ++ leBytes 2 bytes.length ++ leBytes 2 cap.length ++ leBytes 2 la ++ leBytes 2 op ++ leBytes 4 hd ++
        leBytes 4 r.seq
      let s := { s with qs := { s.qs with samp := mput s.qs.samp key { r with seq := (r.seq + 1) % 2 ^ 32 } } }
      let s := s.inc (E.sample_taken.n port) 1
      let o := if s.get (E.sample_dest.n port) = 0 then 85 else 84
      let need := ceilDiv (32 + cap.length) 256
      match s.admitInt o need with
      | some s => s.join { mkPkt (.inner (.sample port (s.weirBody b)) (desc ++ cap)) (port / 16) port 0 0 need ft with out := 1024 + o }
      | none => s.inc (E.sample_lost.n port) 1

/-- A packet dropped at a queue is shown to the transmit sampler where `sample.drops` is set (R191). -/
def State.sampleDrop (s : State) (port reason queue : Nat) (b : Body) : State :=
  if s.getB (E.sample_drops.n port) then s.sampleSee port 2 reason queue b s.ft else s

/-! ### Link choice -/

/-- Smooth weighted round robin among candidate slots (R149): every candidate gains its weight, the greatest is chosen and
pays the sum. DEDUCED (log 81). -/
def State.pickMember (s : State) (b : Nat) (cands : List (Nat × Nat)) : Option ((Nat × Nat) × State) :=
  let total : Int := (sumBy (fun c => s.weight b c.1) cands : Nat)
  let cur := fun (c : Nat × Nat) => mgetD s.sw.wrr (32 * b + c.1) 0 + (s.weight b c.1 : Int)
  match cands.foldl (fun (best : Option (Nat × Nat)) c =>
      match best with
      | none => some c
      | some d => if cur d < cur c then some c else best) none with
  | none => none
  | some c =>
    let m := cands.foldl (fun m x => mput m (32 * b + x.1) (cur x - (if x.1 = c.1 then total else 0))) s.sw.wrr
    some (c, { s with sw := { s.sw with wrr := m } })

/-- The candidates of R149 for a packet of a class and colour on bundle b. DEDUCED (log 81). -/
def State.candidates (s : State) (b cls colour : Nat) : List (Nat × Nat) :=
  (s.members b).filter fun c =>
    s.inService c.2 && decide (s.depth c.2 (s.queueOf c.2 cls colour) * 256 < s.get (E.bundle_deflect_threshold.n b))

/-! ### The Eddy -/

/-- Bytes that a bundle holds in the Eddy (R158). -/
def State.eddyOf (s : State) (b : Nat) : Nat := sumBy (fun e => e.bytes) (s.sw.eddy.filter (fun e => e.pkt.bundle = b))

/-- Bytes behind one of the Eddy's crossbar ports (R158). DEDUCED (log 74). -/
def State.eddySide (s : State) (side : Nat) : Nat := sumBy (fun e => e.bytes) (s.sw.eddy.filter (fun e => e.side = side))

/-- The bytes of a Rill packet in the Eddy. -/
def pktBytes (p : Pkt) : Nat := (bodyBytes p.body).length

/-- Deflection into the Eddy (R157, R158): a pass begins, or the packet is dropped. -/
def State.deflect (s : State) (p : Pkt) : State :=
  let n := pktBytes p
  let side := if s.eddySide 87 < s.eddySide 86 then 87 else 86
  let hdr : Rill := match p.body with | .rill h _ => h | _ => blankRill 0 0 0
  if p.passes ≥ 8 then
    (s.inc (E.bundle_eddy_drops.n p.bundle) 1).recDropR (0x3000 + p.bundle) 0x42 0xFFFF p.ingress hdr
  else if s.eddySide side + n > 2097152 ∨ s.eddyOf p.bundle + n > s.get (E.bundle_eddy_limit.n p.bundle) then
    (s.inc (E.bundle_eddy_full_drops.n p.bundle) 1).recDropR (0x3000 + p.bundle) 0x43 0xFFFF p.ingress hdr
  else
    let id := s.sw.nextPkt
    let e : EddyPkt := ⟨{ p with id := id, inp := side, passes := p.passes + 1 }, side, s.ft, p.passes + 1, n⟩
    let s := { s with sw := { s.sw with eddy := s.sw.eddy ++ [e], nextPkt := id + 1 } }
    let s := s.inc (E.bundle_deflections.n p.bundle) 1
    let s := s.add E.rill_eddy_used.s n
    if s.get E.rill_eddy_peak.s < s.get E.rill_eddy_used.s then s.set E.rill_eddy_peak.s (s.get E.rill_eddy_used.s) else s

/-! ### Weir packets (R417 to R428) -/

/-- Does the Weir schedule run? -/
def State.weirRunning (s : State) : Bool := s.get E.weir_state.s == 3

/-- Does the running schedule reserve a slot from an input to an output (R428)? -/
def State.weirHas (s : State) (inp out : Nat) : Bool := s.weir.table.any fun p => p.1 % 96 == inp && p.2 == out

/-- A Weir packet admitted to port n from its queue minimum alone, or dropped and counted (R426, R428). -/
def State.weirJoin (s : State) (p : Pkt) (h : Rill) (n member : Nat) : State :=
  let q := s.queueOf n h.cls h.colour
  let f := qSlot n q
  let s := s.avgStep n q
  if !s.weirRunning || !s.weirHas p.inp (n / 16) then s.inc E.weir_no_slot.s 1
  else if s.get (E.queue_min_cells.h f) < s.get (E.queue_min_used.h f) + p.charged then s.inc E.weir_buffer_drops.s 1
  else
    let s := (s.add (E.queue_min_used.h f) p.charged).add (E.queue_depth_cells.h f) p.charged
    (s.inc (E.queue_admitted.h f) 1).join { p with
      out := n, queue := q, colour := h.colour, member := member, weir := s.get E.weir_cycle.s + 1 }

/-- A placement attempt of a Weir packet (R419, R426): the next member in service by plain round robin in slot order. -/
def State.weirPlace (s : State) (p : Pkt) (h : Rill) : State :=
  let ms := (s.members p.bundle).filter fun c => s.inService c.2
  let at_ := mgetD s.weir.rr p.bundle 0
  match (match ms.find? (fun c => decide (at_ ≤ c.1)) with | some c => some c | none => ms.head?) with
  | none => s.inc E.weir_no_slot.s 1
  | some c =>
    let s := { s with weir := { s.weir with rr := mput s.weir.rr p.bundle (c.1 + 1) } }
    s.weirJoin p h c.2 c.1

/-- A Weir packet to an internal output, charged to the output's minimum alone (R426); none where it is dropped. -/
def State.weirInt (s : State) (inp o need : Nat) : Option State × State :=
  let (mu, su) := mgetD s.sw.intUsed o (0, 0)
  if !s.weirRunning || !s.weirHas inp o then (none, s.inc E.weir_no_slot.s 1)
  else if s.get (E.internal_min_cells.n (o - 64)) < mu + need then (none, s.inc E.weir_buffer_drops.s 1)
  else
    let s' := { s with sw := { s.sw with intUsed := mput s.sw.intUsed o (mu + need, su) } }
    (some (s'.add (E.internal_depth_cells.n (o - 64)) need), s)

/-! ### Placement attempts -/

/-- A placement attempt of a Rill packet on its bundle (R157, R183, R186). -/
def State.attempt (s : State) (p : Pkt) : State :=
  match p.body with
  | .rill h _ =>
    if s.weirPart h.partition then s.weirPlace p h else
    match s.pickMember p.bundle (s.candidates p.bundle h.cls h.colour) with
    | none => s.deflect p
    | some (c, s) =>
      let n := c.2
      let q := s.queueOf n h.cls h.colour
      let (act, s) := s.earlyDrop n q h.colour
      if act then
        let s := s.inc (E.queue_early_drops.h (qSlot n q)) 1
        (s.recDropR 0x4100 0x54 n p.ingress h).sampleDrop n 2 q p.body
      else
        match s.admitQ n q p.charged h.colour with
        | none =>
          let s := if p.passes = 0 then s.inc (E.queue_refused_rill.h (qSlot n q)) 1 else s
          s.deflect p
        | some s =>
          let s := s.inc (E.queue_admitted.h (qSlot n q)) 1
          s.join { p with out := n, queue := q, colour := h.colour, member := c.1 }
  | _ => s

/-- EDDY_REENTRY (R157, R161): 160 ns after its header entered the Eddy the packet leaves it; the lifetime test and a new
placement attempt follow. -/
def eddyReentry (s : State) (id : Nat) : State :=
  match s.sw.eddy.find? (fun e => e.pkt.id = id) with
  | none => s
  | some e =>
    if s.ft < e.enterFt + 160 then s
    else
      let s := { s with sw := { s.sw with eddy := s.sw.eddy.filter (fun x => x.pkt.id ≠ id) } }
      let s := s.sub E.rill_eddy_used.s e.bytes
      match e.pkt.body with
      | .rill h _ =>
        let charge := residenceUnits e.pkt.arrFt s.ft + s.get (E.bundle_link_allowance.n e.pkt.bundle)
        if h.lifetime ≤ charge then
          (s.inc (E.bundle_expired.n e.pkt.bundle) 1).recDropR (0x3000 + e.pkt.bundle) 0x44 0xFFFF e.pkt.ingress h
        else s.addTry (tryKey e.pkt) (.again e.pkt)
      | _ => s

/-- A packet to a given port, as a copy or a frame of the host (R177, R184): tested on the queue of its class and colour; none
where it is refused, and a Weir packet is never held (R186, R426). -/
def State.tryPort (s : State) (p : Pkt) (n : Nat) : Option State :=
  let (cls, colour, weir) := match p.body with
    | .rill h _ => (h.cls, h.colour, if s.weirPart h.partition then some h else none)
    | _ => (p.queue / 2, 0, none)
  match weir with
  | some h => some (s.weirJoin p h n 0xFFFF)
  | none =>
    let q := s.queueOf n cls colour
    ((s.avgStep n q).admitQ n q p.charged colour).map fun s =>
      (s.inc (E.queue_admitted.h (qSlot n q)) 1).join { p with out := n, queue := q, colour := colour, member := 0xFFFF }

/-- A packet of an internal source (inputs 64 to 85 and 88 to 91) is tested: on its internal output, on its port, or on its
bundle; none where it is refused, and a Weir packet is never held (R186, R426). -/
def State.tryInternal (s : State) (p : Pkt) : Option State :=
  if 1024 ≤ p.out then (s.admitInt (p.out - 1024) p.charged).map fun s => s.join p
  else if p.member = 0xFFFF then s.tryPort p p.out
  else
    match p.body with
    | .rill h _ =>
      if s.weirPart h.partition then some (s.weirPlace p h) else
      match s.pickMember p.bundle (s.candidates p.bundle h.cls h.colour) with
      | none => none
      | some (c, s) =>
        let q := s.queueOf c.2 h.cls h.colour
        ((s.avgStep c.2 q).admitQ c.2 q p.charged h.colour).map fun s => (s.inc (E.queue_admitted.h (qSlot c.2 q)) 1).join
          { p with out := c.2, queue := q, colour := h.colour, member := c.1 }
    | _ => some s

/-- A packet of an internal source waits at the source for its test, which comes when the core cycle ends, and on each cell time
after that while it is refused (R185, R186). -/
def State.placeInternal (s : State) (p : Pkt) : State := { s with sw := { s.sw with held := s.sw.held ++ [p] } }

/-- A packet to a given port of class `cls`, as a multicast copy, a member result or a frame of the host, charged to that port's
queue (R177). -/
def State.placePort (s : State) (p : Pkt) (n cls : Nat) : State := s.placeInternal { p with out := n, queue := 2 * cls, member := 0xFFFF }

/-- A packet between internal end points, over internal output o (R21). -/
def State.placeOut (s : State) (p : Pkt) (o cls : Nat) : State := s.placeInternal { p with out := 1024 + o, queue := cls }

/-- The packets of one internal source are tested in their order (R186): behind a refused one only copies of the same stored
packet are tested (R177); `internal.held` counts the cell time of a source that is held. DEDUCED (log 184). -/
def State.runSource (s : State) (inp : Nat) : State :=
  let mine := s.sw.held.filter fun p => p.inp == inp
  let s := { s with sw := { s.sw with held := s.sw.held.filter fun p => p.inp != inp } }
  let (stuck, s) := mine.foldl (fun (acc : Option Nat × State) p =>
    let hold := fun (b : Option Nat) (s : State) => (b, { s with sw := { s.sw with held := s.sw.held ++ [p] } })
    match acc.1 with
    | some st => if p.store = 0 ∨ p.store ≠ st then hold acc.1 acc.2 else
        match acc.2.tryInternal p with
        | some s => (acc.1, s)
        | none => hold acc.1 acc.2
    | none =>
      match acc.2.tryInternal p with
      | some s => (none, s)
      | none => hold (some p.store) acc.2) (none, s)
  if stuck.isSome then s.inc (E.internal_held.n (inp - 64)) 1 else s

/-- Packets that the FN7 itself originates toward a bundle: lifetime of R144, arrival on its own first hop (R147).
DEDUCED (log 85). -/
def State.originate (s : State) (inp : Nat) (h : Rill) (payload : List Byte) : State :=
  let h := { h with length := payload.length, hcrcOk := true }
  if h.hopCount = 0 then s
  else
    let b := h.route.getD h.hopPtr 0
    let h' := { h with hopPtr := h.hopPtr + 1 }
    s.placeInternal (mkPkt (.rill h' payload) inp 0xFFFF 8 b (rillCells h') s.ft)

/-! ### Ports that stop -/

/-- A port is reconfigured (R129): every packet queued to it is dropped and counted in `port.tx_dropped`. -/
def State.flushPort (s : State) (n : Nat) : State :=
  let mine := s.sw.pkts.filter (fun p => p.out = n)
  let s := mine.foldl (fun st p => (st.dropPkt p).inc (E.port_tx_dropped.n n) 1) s
  let s := { s with qs := { s.qs with tx := mdel s.qs.tx n } }
  { s with qs := { s.qs with q := s.qs.q.filter (fun x => x.1 / 16 ≠ n) } }

/-- Packets that a port gives back (R152): those of a bundle re-enter link choice on the next cell time without an Eddy pass, copies
and frames bound to the port are lost. DEDUCED (log 64). -/
def State.giveBack (s : State) (n : Nat) (ps : List Pkt) : State :=
  ps.foldl (fun st p =>
    let st := st.dropPkt p
    match p.body, p.started, p.member == 0xFFFF with
    | .rill _ _, false, false => st.addTry (tryKey p) (.again p)
    | _, _, _ => st.inc (E.port_tx_dropped.n n) 1) s

/-- A member has left service (R152): packets whose header has not left re-enter link choice; one part way through transmission is
lost. -/
def State.requeuePort (s : State) (n : Nat) : State :=
  let mine := s.sw.pkts.filter (fun p => p.out = n)
  let s := (s.endFrame n).modTx n fun t => { t with named := none }
  s.giveBack n mine

/-- A member enters service: its health factor is 16 (R151). -/
def State.enterService (s : State) (n : Nat) : State := { s with sw := { s.sw with factor := mdel s.sw.factor n } }

/-- A bundle's member list was written (R148, R151): a port that is new in it enters with factor 16. -/
def State.membersSet (s : State) (b : Nat) (old : List (Nat × Nat)) : State :=
  (s.members b).foldl (fun st c => if old.any (fun o => o.2 == c.2) then st else st.enterService c.2) s

/-- BUNDLE_ADAPT (R151): once per adapt interval, health factors from the mean sojourn in each member's queues and the growth of CE
marks. -/
def bundleAdapt (s : State) (b : Nat) : State :=
  let last := mgetD s.sw.adaptAt b 0
  if s.ft < last + s.get (E.bundle_adapt_interval.n b) then s
  else
    let grew := decide (0 < mgetD s.sw.ceSeen b 0)
    let upd := fun (m : NMap Nat) (c : Nat × Nat) =>
      if !s.inService c.2 then m
      else
        let (sum, cnt) := mgetD s.sw.delaySum c.2 (0, 0)
        let slow := decide (sum > s.get (E.bundle_delay_target.n b) * cnt)
        let tun := s.get (E.port_role.n c.2) == 3
        let f := s.health c.2
        mput m c.2 (if slow || (tun && grew) then max (f - 1) 1 else min (f + 1) 16)
    let fac := if s.getB (E.bundle_adaptive.n b) then (s.members b).foldl upd s.sw.factor else s.sw.factor
    { s with sw := { s.sw with
        factor := fac, adaptAt := mput s.sw.adaptAt b s.ft, ceSeen := mput s.sw.ceSeen b 0
        delaySum := s.sw.delaySum.filter (fun p => !(s.members b).any fun c => c.2 == p.1) } }

/-- QUEUE_AVG_DECAY (R187): the average of an empty queue, every 1,024 ns. -/
def queueAvgDecay (s : State) (n q : Nat) : State :=
  if s.depth n q = 0 ∧ mgetD s.sw.avgAt (qSlot n q) 0 + 1024 ≤ s.ft then s.avgStep n q else s

/-! ### Changes of the division, planes and errors -/

/-- RSV_RED_SEED (R188): every early-drop generator reloads. -/
def redSeedWrite (s : State) (v : Nat) : State :=
  { (s.set E.rsv_red_seed.s v) with
    sw := { s.sw with lfsr := [] }
    qs := { s.qs with samp := s.qs.samp.map (fun p => (p.1, { p.2 with gen := lfsrSeed v })) } }

/-- RSV_WINDOW_REGION (R190): 0x0C unless every port is Off; 0x02 where the shared pool would fall below 65,536.
DEDUCED (log 79). -/
def windowRegionWrite (s : State) (v : Nat) : Nat × State :=
  if s.portList.any (fun n => s.get (E.port_state.n n) != 0) then (0x0C, s)
  else
    let s' := s.set E.rsv_window_region.s v
    if s'.sharedCells < 65536 then (0x02, s) else (0, s'.set E.rsv_packet_cells.s s'.packetCells)

/-- Cells of a queue that move from its minimum to shared use (R190), coloured ones first. DEDUCED (log 79). -/
def State.moveExcess (s : State) (f excess : Nat) : State :=
  let held := fun (c : Nat) =>
    sumBy (fun p => if p.out == f / 16 && p.queue == f % 16 && decide (c ≤ p.colour) && p.weir == 0 then p.charged else 0) s.sw.pkts
  let (yr, r) := s.hued f
  let yr' := yr + min excess (held 1 - yr)
  let s := s.sub (E.queue_min_used.h f) excess
  let s := s.add (E.queue_shared_used.h f) excess
  let s := s.setHued f yr' (r + min (yr' - yr) (held 2 - r))
  (s.add E.rsv_shared_used.s excess).sharedPeak

/-- A minimum or the landing reserve changes (R190): refused with 0x02 where the shared pool would fall below 65,536; a
queue above its new minimum moves the excess to shared use. DEDUCED (log 79). -/
def minCellsWrite (s : State) (l : Loc) (v : Nat) (queue : Option Nat) : Nat × State :=
  let s' := s.set l v
  if s'.sharedCells < 65536 then (0x02, s)
  else
    match queue with
    | none => (0, s')
    | some f =>
      let excess := s'.get (E.queue_min_used.h f) - v
      (0, if excess = 0 then s' else s'.moveExcess f excess)

/-- The writing of `xbar.plane_enable` (R172): a cleared plane leaves service, a plane whose bit is written returns; its
granted cells are sent again on the other plane. -/
def planeEnableWrite (s : State) (v : Nat) : State :=
  let s := s.set E.xbar_plane_enable.s v
  let s := s.set E.xbar_plane_state.s v
  { s with sw := { s.sw with grants := s.sw.grants.map fun (g : Grant) => if bitAt v g.plane then g else { g with plane := 1 - g.plane } } }

/-- PLANE_SELF_CHECK_FAIL (R172): the plane leaves service and its source is raised. -/
def planeFail (s : State) (p : Nat) : State :=
  if bitAt (s.get E.xbar_plane_state.s) p then
    let s := s.set E.xbar_plane_state.s (clearBitAt (s.get E.xbar_plane_state.s) p)
    let s := s.set E.xbar_plane_enable.s (clearBitAt (s.get E.xbar_plane_enable.s) p)
    let s := { s with sw := { s.sw with grants := s.sw.grants.map fun (g : Grant) => if g.plane = p then { g with plane := 1 - p } else g } }
    s.raise (257 + p)
  else s

/-- A double-bit error in a cell of one packet (R194): dropped where it has not left, stomped where it is leaving. -/
def State.strikePkt (s : State) (p : Pkt) : State :=
  if p.started then
    let s := { s with sw := { s.sw with pkts := s.sw.pkts.map fun x => if x.id = p.id then { x with stomp := true } else x } }
    if p.out < 1024 then (s.inc (E.port_tx_stomped.n p.out) 1).emit (.stomp p.out) else s
  else s.dropPkt p

/-- RESERVOIR_UNCORRECTABLE in a packet's cell (R177, R194): it strikes every copy of the stored packet. -/
def reservoirPacket (s : State) (id : Nat) : State :=
  match s.sw.pkts.find? (fun p => p.id = id) with
  | none => s
  | some p => (s.sw.pkts.filter fun x => x.id == id || (p.store != 0 && x.store == p.store)).foldl (fun st x => st.strikePkt x) s

end Sys2Proof.Machine
end

