-- ==== Sys2Proof/Machine/Memory.lean ====
section
/-!
DEFINITION. Memory tiers, windows, the Tier 2 read cache and CXL expanders (spec/13_memory_tiers_and_visibility.md, R352 to
R385).
-/

namespace Sys2Proof.Machine

/-! ### Bytes of memory -/

/-- What an address reads as that the store does not list (Tier 0: R355; Tiers 1 and 2: the model's choice).
DESIGN CHOICE (log 15). -/
def unlisted : Byte := 0

/-- The canonical form of a memory: addresses strictly rising, no byte equal to what an unlisted address reads as. -/
def Memory.wf : List Host.Cell → Bool
  | [] => true
  | (a, b) :: m => decide (b ≠ unlisted) && (match m with | [] => true | (a', _) :: _ => decide (a < a')) && Memory.wf m

/-- The byte at a physical address. DESIGN CHOICE (log 15). -/
def memByte (m : List Host.Cell) (a : Nat) : Byte := ((m.find? (fun c => c.1 = a)).map (·.2)).getD unlisted

/-- The cells that bytes from a on become: bytes that read as an unlisted address are not listed. -/
def cellsOf : Nat → List Byte → List Host.Cell
  | _, [] => []
  | a, b :: bs => if b = unlisted then cellsOf (a + 1) bs else (a, b) :: cellsOf (a + 1) bs

/-- Bytes stored from physical address a on. -/
def memPut (m : List Host.Cell) (a : Nat) (bs : List Byte) : List Host.Cell :=
  m.filter (fun c => decide (c.1 < a)) ++ cellsOf a bs ++ m.filter (fun c => decide (a + bs.length ≤ c.1))

/-- The cells with addresses in [lo, hi) dropped. -/
def memDrop (m : List Host.Cell) (lo hi : Nat) : List Host.Cell := m.filter (fun c => decide (c.1 < lo) || decide (hi ≤ c.1))

/-! ### The address map -/

/-- First addresses of the regions of R352. -/
def baseMill (d : Nat) : Nat := 0x10000000 * (d + 1)
/-- Tier 1, linear. -/
def baseT1 : Nat := 0x10000000000
/-- Tier 1, interleaved. -/
def baseIl : Nat := 0x20000000000
/-- Tier 2. -/
def baseT2 : Nat := 0x1000000000000
/-- 64 GiB. -/
def stackBytes : Nat := 0x1000000000
/-- The range of one CXL port, 512 GiB. -/
def cxlBytes : Nat := 0x8000000000

/-- The fitted stacks, ascending (R6). -/
def State.stacks (s : State) : List Nat := (List.range 8).filter (hbmFitted s.part)

/-- The region of R352 that holds an address: tier code of `window.tier`, first address, end. DEDUCED (log 112). -/
def State.regionOf (s : State) (a : Nat) : Option (Nat × Nat × Nat) :=
  if a < 0x8000000 then some (0, 0, 0x8000000)
  else if baseMill 0 ≤ a ∧ a < baseMill 4 then some (1, a / 0x10000000 * 0x10000000, (a / 0x10000000 + 1) * 0x10000000)
  else if baseT1 ≤ a ∧ a < baseT1 + 8 * stackBytes then some (2, baseT1, baseT1 + 8 * stackBytes)
  else if baseIl ≤ a ∧ a < baseIl + s.stacks.length * stackBytes then
    some (3, baseIl, baseIl + s.stacks.length * stackBytes)
  else if baseT2 ≤ a ∧ a < baseT2 + 8 * cxlBytes then some (4, baseT2, baseT2 + 8 * cxlBytes)
  else none

/-- The physical Mill that holds a logical number (R319). -/
def State.physMill (s : State) (l : Nat) : Option Nat :=
  let d := l % 4
  ((List.range 68).map (· + 68 * d)).find? (fun x => s.get (E.mill_logical.n x) = l)

/-- The power domain of a physical Mill (R17, R516). -/
def millDomain (x : Nat) : Nat := 21 + 5 * (x / 68) + 1 + (x % 68) / 17

/-- Is domain k on? -/
def State.domOn (s : State) (k : Nat) : Bool := s.get (E.pwr_dom_status.n k) == 0

/-- The Mill SRAM slots that a range of a die's region touches. -/
def slotsOf (off len : Nat) : List Nat :=
  if off ≥ 0xC000000 then []
  else ((List.range 64).filter fun j => decide (j * 0x300000 < off + len) && decide (off < (j + 1) * 0x300000))

/-- Is every byte of a range backed (R352, R353)? The range lies in one region. -/
def State.backed (s : State) (a len : Nat) : Bool :=
  match s.regionOf a with
  | none => false
  | some (tier, lo, hi) =>
    decide (a + len ≤ hi) &&
    (if tier = 0 then decide (a + len ≤ s.get E.rsv_window_region.s * 0x1000000)
     else if tier = 1 then
       let d := lo / 0x10000000 - 1
       let off := a - lo
       (slotsOf off len).all fun j =>
         (s.physMill (4 * j + d)).isSome &&
         decide (min (off + len) ((j + 1) * 0x300000) - j * 0x300000 ≤ s.get E.mem_mill_window.s * 1024)
     else if tier = 2 then
       (List.range 8).all fun h => hbmFitted s.part h ||
         decide (a + len ≤ baseT1 + h * stackBytes) || decide (baseT1 + (h + 1) * stackBytes ≤ a)
     else if tier = 3 then true
     else (List.range 8).all fun c =>
       let b := baseT2 + c * cxlBytes
       decide (a + len ≤ b) || decide (b + cxlBytes ≤ a) || decide (min (a + len) (b + cxlBytes) ≤ b + s.get (E.cxl_capacity.n c)))

/-- The physical address of a fabric address: the interleaved view maps onto the linear one (R354). -/
def State.phys (s : State) (a : Nat) : Nat :=
  if baseIl ≤ a ∧ a < baseIl + s.stacks.length * stackBytes then
    let off := a - baseIl
    let page := off / 4096
    let n := max 1 s.stacks.length
    baseT1 + s.stacks.getD (page % n) 0 * stackBytes + page / n * 4096 + off % 4096
  else a

/-- The stacks that a range touches. -/
def State.stacksOf (s : State) (a len : Nat) : List Nat :=
  match s.regionOf a with
  | some (2, _, _) => s.stacks.filter fun h =>
      decide (baseT1 + h * stackBytes < a + len) && decide (a < baseT1 + (h + 1) * stackBytes)
  | some (3, lo, _) =>
    let n := max 1 s.stacks.length
    let p0 := (a - lo) / 4096
    let p1 := (a + len - 1 - lo) / 4096
    if p1 + 1 - p0 ≥ n then s.stacks
    else dedup ((List.range (p1 + 1 - p0)).map fun i => s.stacks.getD ((p0 + i) % n) 0)
  | _ => []

/-- The CXL ports that a range touches. -/
def State.cxlsOf (s : State) (a len : Nat) : List Nat :=
  match s.regionOf a with
  | some (4, _, _) => (List.range 8).filter fun c =>
      decide (baseT2 + c * cxlBytes < a + len) && decide (a < baseT2 + (c + 1) * cxlBytes)
  | _ => []

/-- Does a range touch a CXL port that is not Active, or that is being disabled (R379)? -/
def State.cxlDown (s : State) (a len : Nat) : Bool :=
  (s.cxlsOf a len).any (fun c => s.get (E.cxl_state.n c) != 2 || s.ms.disabling.contains c)

/-- Does a range lie on a stack in retention (R527)? -/
def State.retained (s : State) (a len : Nat) : Bool := (s.stacksOf a len).any (fun h => s.get (E.hbm_state.n h) == 4)

/-- Does a range touch a gated Mill group, or a stack that failed or trains (R380, R506)? -/
def State.diesDown (s : State) (a len : Nat) : Bool :=
  (s.stacksOf a len).any (fun h => s.get (E.hbm_state.n h) == 3 || s.get (E.hbm_state.n h) == 1) ||
  (match s.regionOf a with
   | some (1, lo, _) =>
     let d := lo / 0x10000000 - 1
     let off := a - lo
     (slotsOf off len).any (fun j => match s.physMill (4 * j + d) with
       | some x => !s.domOn (millDomain x)
       | none => false) ||
     (decide (0xC000000 < off + len) && !s.domOn (21 + 5 * d))
   | _ => false)

/-- Does a range touch a gated Mill group, a failed stack or a CXL port that is not Active (R359)? A stack in retention
counts as failed (R526). -/
def State.rangeDown (s : State) (a len : Nat) : Bool := s.diesDown a len || s.cxlDown a len || s.retained a len

/-- Bytes read at a fabric address. -/
def State.memRead (s : State) (a len : Nat) : List Byte := (List.range len).map fun i => memByte s.mem (s.phys (a + i))

/-- Cut bytes at 4 KiB page boundaries: each piece with its address. -/
def pagePieces : Nat → Nat → List Byte → List (Nat × List Byte)
  | 0, _, _ => []
  | fuel + 1, a, bs =>
    if bs.isEmpty then []
    else
      let n := 4096 - a % 4096
      (a, bs.take n) :: pagePieces fuel (a + n) (bs.drop n)

/-- Bytes written at a fabric address. -/
def State.memWrite (s : State) (a : Nat) (bs : List Byte) : State :=
  let ps := pagePieces (bs.length / 4096 + 2) a bs
  { s with mem := ps.foldl (fun m p => memPut m (s.phys p.1) p.2) s.mem }

/-- Number n as 8 bytes at a fabric address. -/
def State.memPut64 (s : State) (a n : Nat) : State := s.memWrite a (leBytes 8 n)
/-- The 8-byte number at a fabric address. -/
def State.memGet64 (s : State) (a : Nat) : Nat := ofLe (s.memRead a 8)

/-! ### The Tier 2 read cache -/

/-- The line number of a Tier 2 address, and its set: the low bits of the line number (R370). -/
def lineOf (a : Nat) : Nat := (a - baseT2) / 256
/-- 8,192 sets of 16 ways. DEDUCED (log 114). -/
def setOf (line : Nat) : Nat := line % 8192

/-- Is the line in the cache? -/
def State.cachedLine (s : State) (line : Nat) : Bool := (mgetD s.ms.lines (setOf line) []).contains line

/-- The window logic's state changed. -/
def State.modMs (s : State) (f : MemSt → MemSt) : State := { s with ms := f s.ms }

/-- A line used or installed: it becomes the most recent of its set, and the least recent of 17 leaves. -/
def State.touchLine (s : State) (line : Nat) : State :=
  let l := mgetD s.ms.lines (setOf line) []
  s.modMs fun m => { m with lines := mput m.lines (setOf line) ((line :: l.filter (· != line)).take 16) }

/-- The lines that a Tier 2 range covers. -/
def linesOf (a len : Nat) : List Nat :=
  (List.range ((lineOf (a + len - 1)) + 1 - lineOf a)).map (· + lineOf a)

/-- The CXL port of a line. -/
def lineCxl (line : Nat) : Nat := line * 256 / cxlBytes

/-- Fills in flight whose lines meet a test are marked to be discarded when they return (R372). -/
def dropFillsIf (p : Nat → Bool) (accs : List MemAcc) : List MemAcc :=
  let mark := fun (f : Fill) => if p f.line && !f.done then { f with drop := true } else f
  accs.map fun (a : MemAcc) => { a with fills := a.fills.map mark }

/-- Every line of a CXL port leaves the cache, and its fills in flight are discarded when they return (R373, R377). -/
def State.dropLines (s : State) (c : Nat) : State :=
  let keep := fun (p : Nat × List Nat) => (p.1, p.2.filter (fun l => lineCxl l != c))
  let lines := (s.ms.lines.map keep).filter (fun p => !p.2.isEmpty)
  s.modMs fun m => { m with lines := lines, accs := dropFillsIf (fun l => lineCxl l == c) m.accs }

/-- Fills in flight of lines that a write changes are not installed (R372). -/
def State.dropFills (s : State) (ls : List Nat) : State :=
  s.modMs fun m => { m with accs := dropFillsIf (fun l => ls.contains l) m.accs }

/-- The bytes of a range that lie on each Tier 1 stack that it touches. -/
def State.stackShares (s : State) (a len : Nat) : List (Nat × Nat) :=
  match s.regionOf a with
  | some (2, _, _) => (s.stacksOf a len).map fun h =>
      (h, min (a + len) (baseT1 + (h + 1) * stackBytes) - max a (baseT1 + h * stackBytes))
  | some (3, lo, _) =>
    let p0 := (a - lo) / 4096
    let pages := (List.range ((a + len - 1 - lo) / 4096 + 1 - p0)).map (· + p0)
    (s.stacksOf a len).map fun h => (h, sumBy (fun p =>
      if s.stacks.getD (p % max 1 s.stacks.length) 0 = h then min (a + len) (lo + 4096 * (p + 1)) - max a (lo + 4096 * p) else 0) pages)
  | _ => []

/-- The bytes of a range that lie behind each CXL port that it touches. -/
def State.cxlShares (s : State) (a len : Nat) : List (Nat × Nat) :=
  (s.cxlsOf a len).map fun c => (c, min (a + len) (baseT2 + (c + 1) * cxlBytes) - max a (baseT2 + c * cxlBytes))

/-- Bytes read from the stacks and the expanders of a range, counted (R384, R385). -/
def State.countRead (s : State) (a len : Nat) : State :=
  if len = 0 then s
  else
    let s := (s.stackShares a len).foldl (fun st x => st.inc (E.hbm_read_bytes.n x.1) x.2) s
    (s.cxlShares a len).foldl (fun st x => st.inc (E.cxl_read_bytes.n x.1) x.2) s

/-- Bytes written to the stacks and the expanders of a range, counted (R384, R385). -/
def State.countWrite (s : State) (a len : Nat) : State :=
  if len = 0 then s
  else
    let s := (s.stackShares a len).foldl (fun st x => st.inc (E.hbm_write_bytes.n x.1) x.2) s
    (s.cxlShares a len).foldl (fun st x => st.inc (E.cxl_write_bytes.n x.1) x.2) s

/-- A write of the FN7's own units or of an observer, with the cache kept coherent (R364, R371). -/
def State.store (s : State) (a : Nat) (bs : List Byte) : State :=
  let s := s.memWrite a bs
  let s := if baseT2 ≤ a ∧ bs ≠ [] then s.dropFills (linesOf a bs.length) else s
  s.countWrite a bs.length

/-- A read of the FN7's own units. -/
def State.load (s : State) (a len : Nat) : List Byte × State := (s.memRead a len, s.countRead a len)

/-! ### Windows -/

/-- The partition of handle type t, index i. -/
def State.partOf (s : State) (t i : Nat) : Nat := match s.liveAt t i with | some r => r.part | none => 0xFFFF

/-- Does window slot i cover a range with a right (bit 0 read, bit 1 write)? -/
def State.winCovers (s : State) (i a len right : Nat) : Bool :=
  s.get (E.window_state.h i) == 1 && bitAt (s.get (E.window_rights.h i)) right &&
  decide (s.get (E.window_base.h i) ≤ a) && decide (a + len ≤ s.get (E.window_base.h i) + s.get (E.window_size.h i))

/-- A window of a partition that covers a range with a right (R323). -/
def State.winFor (s : State) (part a len right : Nat) : Option Nat :=
  (s.liveIdx 8).find? fun i => s.partOf 8 i == part && s.winCovers i a len right

/-- A job or pool takes or gives up its hold on a window. -/
def State.holdWin (s : State) (i : Nat) : State := s.add (E.window_holders.h i) 1
/-- A hold given up. -/
def State.freeWin (s : State) (i : Nat) : State := s.sub (E.window_holders.h i) 1

/-- Do the pools hold the window (R388)? -/
def State.poolHolds (s : State) (i : Nat) : Bool :=
  (s.liveIdx 3).any fun p =>
    let st := s.get (E.pool_state.h p)
    (st == 1 || st == 2 || st == 3) &&
    (hIdx (s.get (E.pool_buffer_window.h p)) == i || hIdx (s.get (E.pool_ring_window.h p)) == i)

/-- WINDOW_OPEN (R358, R359): 1 opens after the open checks; 0 puts an Open window in Closing. DEDUCED (log 113). -/
def windowOpenWrite (s : State) (i v : Nat) : Nat × State :=
  let st := s.get (E.window_state.h i)
  let base := s.get (E.window_base.h i)
  let size := s.get (E.window_size.h i)
  if v = 0 then
    if st ≠ 1 ∨ s.poolHolds i then (0x0C, s) else (0, s.hset (E.window_state.h i) 8 i 2)
  else if st ≠ 0 then (0x0C, s)
  else
    match s.regionOf base with
    | none => (0x06, s)
    | some (tier, _, hi) =>
      if s.get (E.window_rights.h i) = 0 ∨ base % 4096 ≠ 0 ∨ size % 4096 ≠ 0 ∨ size = 0 ∨ hi < base + size then (0x06, s)
      else if !s.backed base size then (0x06, s)
      else if s.rangeDown base size then (0x0C, s)
      else if tier = 4 ∧ s.weirPart (s.partOf 8 i) then (0x0C, s)
      else (0, (s.set (E.window_tier.h i) tier).hset (E.window_state.h i) 8 i 1)

/-- A memory packet that crosses to its end point. -/
def memPacket (p : Pkt) : Option Rill :=
  match p.body with
  | .rill h _ => if 1024 ≤ p.out ∧ (h.kind = 1 ∨ h.kind = 2) then some h else none
  | _ => none

/-- The condition of the end of Closing (R358): accepted accesses done, those that still cross among them, and no job
holding the window. -/
def State.winQuiet (s : State) (i : Nat) : Bool :=
  !(s.ms.accs.any (fun a => a.win = i)) && s.get (E.window_holders.h i) == 0 &&
  !(s.sw.pkts.any fun p => match memPacket p with | some h => hIdx h.handle == i | none => false)

/-- May `mem.mill_window` be written (R353)? -/
def millWindowWrite (s : State) (v : Nat) : Nat × State :=
  if (s.liveIdx 8).any (fun i => s.get (E.window_tier.h i) == 1 && s.get (E.window_state.h i) != 0) then (0x0C, s)
  else (0, s.set E.mem_mill_window.s v)

/-! ### Accesses -/

/-- The crossbar port of an address (R21): stack h of a Mill die on port 72 + h, a die's SRAM on the first of its two ports. DEDUCED
(log 187). -/
def State.memInp (s : State) (a : Nat) : Nat :=
  match s.regionOf a with
  | some (1, lo, _) => 72 + 2 * (lo / 0x10000000 - 1)
  | some (2, _, _) => 72 + (s.stacksOf a 1).headD 0
  | some (3, _, _) => 72 + (s.stacksOf a 1).headD 0
  | some (4, _, _) => 80 + ((s.cxlsOf a 1).headD 0) / 2
  | _ => 84

/-- The length of a memory packet's access. -/
def accLen (h : Rill) : Nat := if h.kind = 1 then bits h.w10 12 0 else h.length

/-- Check 12 of R163: the access lies in its window, which is Open and grants the right. -/
def State.check12 (s : State) (h : Rill) : Bool :=
  s.winCovers (hIdx h.handle) (rillAddr h) (accLen h) (if h.kind = 1 then 0 else 1)

/-- Is the window logic full (R361)? -/
def State.memFull (s : State) : Bool :=
  decide (s.get E.mem_outstanding_limit.s ≤ s.ms.accs.length + (s.sw.pkts.filter fun p => (memPacket p).isSome).length)

/-- A completion (R144, R362): sent for a read and for a write that asked for one. -/
def State.complete (s : State) (h : Rill) (status : Nat) (data : List Byte) : State :=
  if h.kind = 1 ∨ h.cplReq then
    let r := { respHeader h 3 (s.get E.rill_origin_lifetime.s) with w8 := h.w8, w9 := h.w9, w10 := status }
    s.originate (s.memInp (rillAddr h)) r (if status = 0 then data else [])
  else s

/-- When a Weir access completes (R430), 0 for others: its fixed delay, and one Weir cycle more where the cycle's slots of
its stack are full, which the spec gives no figure for: a free value decides. -/
def State.weirDue (s : State) (part a len : Nat) : Nat × State :=
  if !s.weirRunning || !s.weirPart part then (0, s)
  else
    let g := ceilDiv (a % 256 + len) 256
    let base := match s.regionOf a with | some (0, _, _) => 100 | some (1, _, _) => 200 | _ => 640
    let t := s.ft + base + 10 * (g - 1)
    if base = 640 then
      let (b, s) := s.fresh 2
      if b = 1 then (t + s.weir.s * 5 / 8, s.inc E.weir_t1_slips.s 1) else (t, s)
    else (t, s)

/-- An access that passed its checks is accepted (R361, R362, R370): counted, and a cached Tier 2 read looks its lines up.
DEDUCED (log 114). -/
def State.memAccept (s : State) (inp : Nat) (h : Rill) (payload : List Byte) : State :=
  let i := hIdx h.handle
  let a := rillAddr h
  let len := accLen h
  let s := if h.kind = 1 then s.inc (E.window_reads.h i) 1 else s.inc (E.window_writes.h i) 1
  let ls := if h.kind = 1 ∧ baseT2 ≤ a ∧ s.getB (E.window_cached.h i) then linesOf a len else []
  let miss := ls.filter (fun l => !s.cachedLine l)
  let s := if ls = [] then s else if miss = [] then s.inc E.t2cache_hits.s 1 else s.inc E.t2cache_misses.s 1
  let s := (ls.filter (fun l => s.cachedLine l)).foldl (fun st l => st.touchLine l) s
  let fills := miss.map fun l => (⟨l, s.memRead (baseT2 + 256 * l) 256, false, false⟩ : Fill)
  let down := s.cxlDown a len
  let (due, s) := s.weirDue h.partition a len
  let acc : MemAcc := ⟨s.ms.nextId, inp, h, payload, i, s.ft, if down then [] else fills, due, down, false, none⟩
  let s := s.modMs fun m => { m with nextId := m.nextId + 1, accs := m.accs ++ [acc] }
  let s := s.set E.mem_outstanding.s s.ms.accs.length
  if s.retained a len then s.later (.wakeEvent 2) else s

/-- A flag of `cxl.flags` of port c set with its source (R384, R502). -/
def State.cxlFlag (s : State) (c b : Nat) : State :=
  (s.stick (E.cxl_flags.n c) b).raise (if b = 0 then 448 + c else 455 + b)

/-- The access leaves the window logic. -/
def State.dropAcc (s : State) (id : Nat) : State :=
  let s := s.modMs fun m => { m with accs := m.accs.filter (fun a => a.id != id) }
  let s := s.set E.mem_outstanding.s s.ms.accs.length
  if s.ms.disabling = [] then s else s.later .upkeep

/-- An access ends with a status (R362, R380). -/
def State.endAcc (s : State) (a : MemAcc) (status : Nat) (data : List Byte) : State :=
  let s := s.dropAcc a.id
  let n := accLen a.h
  let s := if status ≠ 0 then s.inc (E.window_errors.h a.win) 1
    else if a.h.kind = 1 then s.inc (E.window_read_bytes.h a.win) n else s.inc (E.window_write_bytes.h a.win) n
  s.complete a.h status data

/-- The data of a read: a line that came from the expander is as it was at its serialisation point (R366, R372). What a cached read
takes from the expander was counted as its lines returned (R370, R384). -/
def State.readData (s : State) (a : MemAcc) : List Byte × State :=
  let addr := rillAddr a.h
  let d := s.memRead addr (accLen a.h)
  ((List.range (accLen a.h)).map (fun i =>
    match a.fills.find? (fun f => f.line = lineOf (addr + i) ∧ baseT2 ≤ addr) with
    | some f => f.data.getD ((addr + i - baseT2) % 256) 0
    | none => d.getD i 0),
   if baseT2 ≤ addr ∧ s.getB (E.window_cached.h a.win) then s else s.countRead addr (accLen a.h))

/-- The Mill whose SRAM holds an address, where one does (R353). -/
def State.sramMill (s : State) (a : Nat) : Option Nat :=
  match s.regionOf a with
  | some (1, lo, _) => if a - lo < 0xC000000 then s.physMill (4 * ((a - lo) / 0x300000) + (lo / 0x10000000 - 1)) else none
  | _ => none

/-- A single-bit error in the words that a read takes, corrected and counted where its memory counts it (R194, R346, R385), and
against its row (R549). -/
def State.readCorrected (s : State) (a : Nat) : State :=
  let s := if a < baseT2 then s.rowError (addrRow a) else s
  match s.regionOf a with
  | some (0, _, _) => s.inc E.rsv_ecc_corrected.s 1
  | some (1, _, _) => match s.sramMill a with | some x => s.inc (E.mill_ecc_corrected.n x) 1 | none => s
  | some (2, _, _) => s.inc (E.hbm_ecc_corrected.n ((s.stacksOf a 1).headD 0)) 1
  | some (3, _, _) => s.inc (E.hbm_ecc_corrected.n ((s.stacksOf a 1).headD 0)) 1
  | _ => s

/-- An error in the data of a read that is not corrected (R376, R380): counted, and the source of its tier raised; one in a
Mill's SRAM strikes the Mill too (R347), and one in SRAM or Tier 1 makes its row pending (R549). DEDUCED (log 114). -/
def State.readBad (s : State) (a len : Nat) : State :=
  let s := if a < baseT2 then s.rowPending (addrRow a) else s
  match s.regionOf a with
  | some (0, _, _) => (s.inc E.rsv_ecc_uncorrectable.s 1).raise 256
  | some (1, lo, _) =>
    match s.sramMill a with
    | some x => s.later (.millFault x)
    | none => s.raise (384 + (lo / 0x10000000 - 1))
  | some (4, _, _) => (s.cxlsOf a len).foldl (fun st c => (st.inc (E.cxl_poison.n c) 1).cxlFlag c 3) s
  | some _ => let h := (s.stacksOf a 1).headD 0; (s.inc (E.hbm_ecc_uncorrectable.n h) 1).raise (461 + h)
  | none => s

/-- The completion of an access that reaches its serialisation points: a write has taken effect, a read takes its data (R363, R364,
R380). -/
def State.accEffect (s : State) (a : MemAcc) (chk : EccCheck) : State :=
  let addr := rillAddr a.h
  if a.h.kind = 2 then (s.store addr a.payload).endAcc a 0 []
  else
    match chk, a.bad with
    | .bad, false => (s.readBad addr (accLen a.h)).endAcc a 0x0B []
    | _, true => s.endAcc a 0x0B []
    | c, false =>
      let s := if c = .corrected then s.readCorrected addr else s
      let (d, s) := s.readData a
      s.endAcc a 0 d

/-- MEMORY_ACCESS_COMPLETE (R363, R364, R380): the access reaches the serialisation points of its granules on this core cycle;
one to memory that is down fails. `chk` says what the code of the data read shows. -/
def memAccessComplete (s : State) (id : Nat) (chk : EccCheck) : State :=
  match s.ms.accs.find? (fun a => a.id = id ∧ a.reach.isNone) with
  | none => s
  | some a =>
    let addr := rillAddr a.h
    let len := accLen a.h
    if a.fills.any (fun f => !f.done) ∨ s.ft < a.due ∨ s.retained addr len then s
    else if a.fail || s.diesDown addr len then s.endAcc a 0x0C []
    else
      (s.cxlsOf addr len).foldl (fun st c => st.modMs fun m => { m with toRow := mdel m.toRow c })
        (s.modMs fun m => { m with accs := m.accs.map fun x => if x.id = id then { x with reach := some chk } else x })

/-- The accesses of a core cycle take effect as it ends (R367): writes first, in ascending order of the crossbar input that they
came from, then reads. DEDUCED (log 188). -/
def State.memEffects (s : State) : State :=
  let due := s.ms.accs.filterMap fun a => a.reach.map fun c => (a, c)
  let writes := sortBy (fun x y => decide (x.1.inp < y.1.inp)) (due.filter fun x => x.1.h.kind == 2)
  (writes ++ due.filter fun x => x.1.h.kind != 2).foldl (fun st x => st.accEffect x.1 x.2) s

/-- T2_FILL_RETURN (R370, R372): a line's fill returns; it is installed unless a write or an invalidation came between. -/
def t2FillReturn (s : State) (id line : Nat) (poisoned : Bool) : State :=
  match s.ms.accs.find? (fun a => a.id = id) with
  | none => s
  | some a =>
    match a.fills.find? (fun f => f.line = line ∧ !f.done) with
    | none => s
    | some f =>
      let c := lineCxl line
      let fin := fun (g : Fill) => if g.line = line then { g with done := true } else g
      let upd := fun (x : MemAcc) =>
        if x.id = id then { x with bad := x.bad || poisoned, fills := x.fills.map fin } else x
      let s := (s.modMs fun m => { m with toRow := mdel m.toRow c, accs := m.accs.map upd }).inc (E.cxl_read_bytes.n c) 256
      let s := if poisoned then (s.inc (E.cxl_poison.n c) 1).cxlFlag c 3 else s
      if f.drop then s.inc E.t2cache_fills_discarded.s 1
      else if poisoned then s else s.touchLine line

/-! ### CXL ports and stacks -/

/-- CXL_PORT_LOST (R377): the port is Lost; its lines go; requests outstanding there complete with 0x0B. -/
def cxlPortLost (s : State) (c : Nat) : State :=
  if s.get (E.cxl_state.n c) ≠ 2 ∧ s.get (E.cxl_state.n c) ≠ 1 ∧ s.get (E.cxl_state.n c) ≠ 4 then s
  else
    let s := s.set (E.cxl_state.n c) 3
    let s := (s.inc (E.cxl_losses.n c) 1).cxlFlag c 0
    let s := (s.dropLines c).modMs fun m => { m with toRow := mdel m.toRow c }
    let mine := s.ms.accs.filter fun a => !a.fail && (s.cxlsOf (rillAddr a.h) (accLen a.h)).contains c
    let s := mine.foldl (fun st a => st.endAcc a 0x0B []) s
    s.later (.cxlLost c)

/-- A request of an access on port c is not answered in time (R376, R377): counted and completed with 0x0A; the fourth in a
row loses the port. DEDUCED (log 153). -/
def cxlUnanswered (s : State) (a : MemAcc) (c : Nat) : State :=
  let s := (s.inc (E.cxl_timeouts.n c) 1).cxlFlag c 2
  let n := mgetD s.ms.toRow c 0 + 1
  let s := s.modMs fun m => { m with toRow := mput m.toRow c n }
  let s := s.endAcc a 0x0A []
  if n ≥ 4 then cxlPortLost s c else s

/-- The first CXL port of an access, where its time-out has passed. DEDUCED (log 153). -/
def cxlLateAcc (s : State) (a : MemAcc) : State :=
  match s.cxlsOf (rillAddr a.h) (accLen a.h) with
  | [] => s
  | c :: _ => if s.ft < a.at_ + s.get (E.cxl_timeout.n c) then s else cxlUnanswered s a c

/-- CXL_TIMEOUT (R376, R377): a request not answered within `cxl.timeout` completes with 0x0A; the fourth in a row loses
the port. -/
def cxlTimeout (s : State) (id : Nat) : State :=
  match s.ms.accs.find? (fun a => a.id = id) with
  | none => s
  | some a => cxlLateAcc s a

/-- What a trained device shows (R374, R375): width, capacity in bytes, identity, whether it trained slower than 64 GT/s. -/
structure CxlDev where
  width : Nat
  bytes : Nat
  ident : Nat
  slow : Bool

/-- The device's memory mapped (R375), in multiples of 256 MiB up to 512 GiB. -/
def cxlMap (s : State) (c : Nat) (d : CxlDev) : State :=
  let cap := min (d.bytes / 0x10000000 * 0x10000000) cxlBytes
  let s := s.set (E.cxl_width.n c) d.width
  let s := s.set (E.cxl_capacity.n c) cap
  let s := s.set (E.cxl_device_id.n c) d.ident
  let s := if d.width < 16 || d.slow then s.cxlFlag c 4 else s
  if cxlBytes < d.bytes then s.cxlFlag c 5 else s

/-- CXL_DEVICE_APPEAR (R375, R378, R379): a device trains; during start-up it becomes Active, later it enters Held.
DEDUCED (log 114). -/
def cxlDeviceAppear (s : State) (c : Nat) (d : CxlDev) : State :=
  let st := s.get (E.cxl_state.n c)
  if s.get (E.cxl_enable.n c) = 0 ∨ (st ≠ 0 ∧ st ≠ 1 ∧ st ≠ 3) ∨ !s.domOn (49 + c) then s
  else
    let s := { s with mem := memDrop s.mem (baseT2 + c * cxlBytes) (baseT2 + (c + 1) * cxlBytes) }
    let s := (cxlMap s c d).dropLines c
    if s.get E.device_ready.s = 0 ∨ s.pwr.fresh.contains c then
      { s.set (E.cxl_state.n c) 2 with pwr := { s.pwr with fresh := s.pwr.fresh.filter (· != c) } }
    else (s.set (E.cxl_state.n c) 4).cxlFlag c 1

/-- CXL_RESUME (R378). -/
def cxlResume (s : State) (c v : Nat) : Nat × State :=
  if v = 0 then (0, s)
  else if s.get (E.cxl_state.n c) ≠ 4 then (0x0C, s)
  else (0, (s.dropLines c).set (E.cxl_state.n c) 2)

/-- CXL_INVALIDATE (R373). -/
def cxlInvalidate (s : State) (c v : Nat) : State := if v = 0 then s else s.dropLines c

/-- A CXL port's status and flags as at reset (R15, R506). -/
def State.cxlFresh (s : State) (c : Nat) : State :=
  [E.cxl_state, E.cxl_width, E.cxl_capacity, E.cxl_device_id, E.cxl_flags].foldl (fun st e => st.set (e.n c) 0) s

/-- A port that is being disabled reads Disabled once its outstanding requests have completed (R379); where a block reset
disables it, it is enabled again at once: its status is as at reset and it trains (R506). DEDUCED (log 153). -/
def State.cxlQuiesce (s : State) : State :=
  s.ms.disabling.foldl (fun st c =>
    if st.ms.accs.any (fun a => (st.cxlsOf (rillAddr a.h) (accLen a.h)).contains c) then st
    else
      let st := if st.getB (E.cxl_enable.n c) then (st.cxlFresh c).set (E.cxl_state.n c) 1
        else (st.set (E.cxl_state.n c) 5).set (E.cxl_width.n c) 0
      (st.dropLines c).modMs fun m => { m with disabling := m.disabling.filter (· != c) }) s

/-- A port begins to be disabled (R379). -/
def State.cxlDisable (s : State) (c : Nat) : State :=
  (if s.ms.disabling.contains c then s else s.modMs fun m => { m with disabling := c :: m.disabling }).cxlQuiesce

/-- CXL_ENABLE (R379): 0 disables in order, 1 retrains the link. -/
def cxlEnable (s : State) (c v : Nat) : State :=
  let s := s.set (E.cxl_enable.n c) v
  if v = 0 then s.cxlDisable c
  else
    let was := s.ms.disabling.contains c
    let s := s.modMs fun m => { m with disabling := m.disabling.filter (· != c) }
    if s.get (E.cxl_state.n c) = 5 ∨ was then (s.set (E.cxl_state.n c) 1).dropLines c else s

/-- `mem.t1_bytes`: fitted, working stacks (R382). -/
def State.t1Bytes (s : State) : Nat := stackBytes * (s.stacks.filter (fun h => s.get (E.hbm_state.n h) != 3)).length
/-- `mem.t2_bytes`: Active ports (R382). -/
def State.t2Bytes (s : State) : Nat :=
  sumBy (fun c => if s.get (E.cxl_state.n c) = 2 then s.get (E.cxl_capacity.n c) else 0) (List.range 8)

/-- HBM_STACK_FAIL (R381): the stack is failed; its accesses complete with 0x0C. -/
def hbmStackFail (s : State) (h : Nat) : State :=
  if !hbmFitted s.part h ∨ s.get (E.hbm_state.n h) = 3 then s
  else ((s.set (E.hbm_state.n h) 3).raise (461 + h)).later (.stackFailed h)

/-- What chip reset does to memory (R355): Tier 0 is zeroed; the window logic is empty. -/
def memReset (s : State) : State :=
  { s with mem := memDrop s.mem 0 baseT1, ms := ⟨0, [], [], [], [], [], []⟩ }

/-- The SRAM of a gated Mill group loses its content (R355). -/
def State.gateMem (s : State) (k : Nat) : State :=
  let d := (k - 21) / 5
  let g := (k - 21) % 5
  if k < 21 ∨ 41 ≤ k then s
  else if g = 0 then { s with mem := memDrop s.mem (baseMill d + 0xC000000) (baseMill d + 0x10000000) }
  else
    let js := (List.range 64).filter fun j => match s.physMill (4 * j + d) with
      | some x => millDomain x == k
      | none => false
    { s with mem := js.foldl (fun m j => memDrop m (baseMill d + j * 0x300000) (baseMill d + (j + 1) * 0x300000)) s.mem }

end Sys2Proof.Machine
end

