-- ==== Sys2Proof/Machine/Pools.lean ====
section
/-!
DEFINITION. Buffer pools and the Holdings (spec/14_pools_and_holdings.md, R386 to R416).
-/

namespace Sys2Proof.Machine

/-! ### Pools -/

/-- A pool's caches and pointers. -/
def State.pool (s : State) (i : Nat) : PoolRt := mgetD s.pools i ⟨[], [], 0, 0, false, false⟩

/-- A pool's caches and pointers changed. -/
def State.modPool (s : State) (i : Nat) (f : PoolRt → PoolRt) : State := { s with pools := mput s.pools i (f (s.pool i)) }

/-- The buffer area of a pool: first address and bytes (R386). -/
def State.bufArea (s : State) (i : Nat) : Nat × Nat :=
  (s.get (E.pool_buffer_base.h i), s.get (E.pool_count.h i) * s.get (E.pool_buffer_size.h i))

/-- The ring area of a pool: first address and bytes (R386). -/
def State.ringArea (s : State) (i : Nat) : Nat × Nat :=
  (s.get (E.pool_ring_base.h i), roundUp (8 * s.get (E.pool_count.h i)) 4096)

/-- Do two ranges overlap? DEDUCED (log 112). -/
def overlap (a b : Nat × Nat) : Bool := decide (a.1 < b.1 + b.2) && decide (b.1 < a.1 + a.2)

/-- Is the pool Filling, Active or Failed? -/
def State.poolUp (s : State) (i : Nat) : Bool := s.get (E.pool_state.h i) != 0

/-- The live window that a pool's handle field names, in the pool's partition. -/
def State.poolWin (s : State) (i : Nat) (w : Nat) : Option Nat :=
  match s.liveH 8 w with
  | some r => if r.part = s.partOf 3 i then some (hIdx w) else none
  | none => none

/-- Does a range lie inside a window? -/
def State.inWin (s : State) (w : Nat) (r : Nat × Nat) : Bool :=
  decide (s.get (E.window_base.h w) ≤ r.1) && decide (r.1 + r.2 ≤ s.get (E.window_base.h w) + s.get (E.window_size.h w))

/-- POOL_ENABLE (R389): the rows of the enable outcomes in order; then Filling. DEDUCED (log 116). -/
def poolEnable (s : State) (i v : Nat) : Nat × State :=
  if v = 0 then (0, s)
  else if s.get (E.pool_state.h i) ≠ 0 then (0x0C, s)
  else
    let size := s.get (E.pool_buffer_size.h i)
    let n := s.get (E.pool_count.h i)
    let ba := s.bufArea i
    let ra := s.ringArea i
    if size < 256 ∨ 2097152 < size ∨ 2 ^ Nat.log2 size ≠ size ∨ n = 0 ∨ 16777216 < n ∨ ba.1 % 4096 ≠ 0 ∨ ra.1 % 4096 ≠ 0
    then (0x06, s)
    else
      match s.poolWin i (s.get (E.pool_buffer_window.h i)), s.poolWin i (s.get (E.pool_ring_window.h i)) with
      | some bw, some rw =>
        if s.get (E.window_state.h bw) ≠ 1 ∨ s.get (E.window_state.h rw) ≠ 1 then (0x0C, s)
        else
          let tier := s.get (E.window_tier.h rw)
          let others := (s.liveIdx 3).filter (fun j => j ≠ i && s.poolUp j)
          let clash := others.any fun j =>
            let b := s.bufArea j
            let r := s.ringArea j
            overlap ba b || overlap ba r || overlap ra b || overlap ra r
          if !s.inWin bw ba ∨ !s.inWin rw ra ∨ tier < 2 ∨ overlap ba ra ∨ clash then (0x06, s)
          else if s.rangeDown ba.1 ba.2 ∨ s.rangeDown ra.1 ra.2 then (0x0C, s)
          else (0, s.hset (E.pool_state.h i) 3 i 1)
      | _, _ => (0x03, s)

/-- The requester number of a unit of the FN7 (R391): 1,024 plus its crossbar port (R21). Confluence engine e is 1,088 + e, the
Curator 1,108, the host 1,109, Spring 1,112. -/
def unitRequester (port : Nat) : Nat := 1024 + port

/-- The requester number of a Catalogue item (R391): the first lane of the ingress port of its control packet, the host's for the
mailbox, the Curator's for MCTP and UDP. -/
def requester (via : Transport) : Nat :=
  match via with
  | .control n => n
  | .mailbox => unitRequester 85
  | .mctp => unitRequester 84
  | .udp => unitRequester 84

/-- The free count and the cached counts of a pool follow its caches and ring; the low-water flag where the count falls below
the limit (R392, R397). -/
def State.poolSync (s : State) (i : Nat) : State :=
  let p := s.pool i
  let old := s.get (E.pool_free_count.h i)
  let free := p.head.length + p.tail.length + s.get (E.pool_ring_count.h i)
  let s := s.set (E.pool_free_count.h i) free
  let s := s.set (E.pool_head_cached.h i) p.head.length
  let s := s.set (E.pool_tail_cached.h i) p.tail.length
  let s := if free < s.get (E.pool_low_free.h i) then s.set (E.pool_low_free.h i) free else s
  let lw := s.get (E.pool_low_water.h i)
  let s := if free < lw ∧ lw ≤ old then (s.stick (E.pool_flags.h i) 0).raise 469 else s
  s.modPool i fun p => { p with refill := p.refill || (decide (p.head.length < 16) && s.get (E.pool_ring_count.h i) != 0) }

/-- POOL_FILL_DONE (R389): ring entries 0 to N − 1 and state words zero have been written; the pool is Active. -/
def poolFillDone (s : State) (i : Nat) : State :=
  if (s.liveAt 3 i).isNone ∨ s.get (E.pool_state.h i) ≠ 1 then s
  else
    let n := s.get (E.pool_count.h i)
    let s := s.store (s.get (E.pool_ring_base.h i)) ((List.range n).flatMap (fun j => leBytes 4 j) ++ List.replicate (4 * n) 0)
    let s := s.modPool i fun _ => ⟨[], [], 0, 0, false, true⟩
    let s := (s.set (E.pool_ring_count.h i) n).set (E.pool_low_free.h i) n
    (s.hset (E.pool_state.h i) 3 i 2).poolSync i

/-- The address of buffer j's state word, and its value (R387). -/
def State.wordAddr (s : State) (i j : Nat) : Nat := s.get (E.pool_ring_base.h i) + 4 * s.get (E.pool_count.h i) + 4 * j
/-- The state word of buffer j. -/
def State.bufWord (s : State) (i j : Nat) : Nat := ofLe (s.memRead (s.wordAddr i j) 4)
/-- The state word of buffer j written. -/
def State.setWord (s : State) (i j w : Nat) : State := s.store (s.wordAddr i j) (leBytes 4 w)

/-- The refill of the head cache: up to 32 entries from the head of the ring (R392). -/
def State.refillPool (s : State) (i : Nat) : State :=
  let p := s.pool i
  let cap := max 1 (s.get (E.pool_count.h i))
  let n := min 32 (s.get (E.pool_ring_count.h i))
  let got := (List.range n).map fun k =>
    ofLe (s.memRead (s.get (E.pool_ring_base.h i) + 4 * ((p.headPtr + k) % cap)) 4) % 2 ^ 24
  let s := s.sub (E.pool_ring_count.h i) n
  (s.modPool i fun p => { p with head := p.head ++ got, headPtr := (p.headPtr + n) % cap, refill := false }).poolSync i

/-- POOL_REFILL_DONE (R392): the refill completes; waiting allocations are served in the settling. -/
def poolRefillDone (s : State) (i : Nat) : State :=
  if (s.liveAt 3 i).isSome ∧ s.get (E.pool_state.h i) = 2 ∧ (s.pool i).refill then (s.refillPool i).later .upkeep else s

/-- What a request to a pool answers: an address, a status, or that it waits for a refill. -/
inductive PoolAns where
  | addr (a : Nat)
  | err (st : Nat)
  | wait
deriving DecidableEq, Repr

/-- Is a pool's ring or buffer area on a stack in retention (R527)? -/
def State.poolRetained (s : State) (i : Nat) : Bool :=
  let b := s.bufArea i
  let r := s.ringArea i
  s.retained b.1 b.2 || s.retained r.1 r.2

/-- A buffer index handed out (R394). DEDUCED (log 115). -/
def State.handOut (s : State) (i j : Nat) : PoolAns × State :=
  let s := s.setWord i j (2 ^ 31 + 1)
  let s := (s.inc (E.pool_allocs.h i) 1).poolSync i
  (.addr (s.get (E.pool_buffer_base.h i) + j * s.get (E.pool_buffer_size.h i)), s)

/-- An allocation (R392): head cache, oldest first; then the most recent of the tail cache; then it waits, or is empty.
DEDUCED (log 117). -/
def poolAlloc (s : State) (i : Nat) : PoolAns × State :=
  let st := s.get (E.pool_state.h i)
  if st = 1 then (.err 0x01, s)
  else if st ≠ 2 then (.err 0x0C, s)
  else
    let p := s.pool i
    match p.head with
    | j :: r => (s.modPool i fun p => { p with head := r }).handOut i j
    | [] =>
      match p.tail.getLast? with
      | some j => (s.modPool i fun p => { p with tail := p.tail.dropLast }).handOut i j
      | none =>
        if s.get (E.pool_ring_count.h i) ≠ 0 then (.wait, s)
        else (.err 0x02, s.inc (E.pool_empty.h i) 1)

/-- An allocation of the FN7's own units: where it would wait, the refill completes first. DEDUCED (log 115). -/
def poolTake (s : State) (i : Nat) : Except Nat Nat × State :=
  let run := fun (s : State) => poolAlloc s i
  let (a, s') := run s
  match a with
  | .addr x => (.ok x, s')
  | .err e => (.error e, s')
  | .wait =>
    let (a, s') := run (s.refillPool i)
    match a with
    | .addr x => (.ok x, s')
    | .err e => (.error e, s')
    | .wait => (.error 0x02, s')

/-- The buffer that an address names, if it names one (R395). -/
def State.bufOf (s : State) (i a : Nat) : Option Nat :=
  let (b, n) := s.bufArea i
  let size := max 1 (s.get (E.pool_buffer_size.h i))
  if b ≤ a ∧ a < b + n ∧ (a - b) % size = 0 then some ((a - b) / size) else none

/-- A flag of `pool.flags` with its source. -/
def State.poolFlag (s : State) (i b : Nat) : State := (s.stick (E.pool_flags.h i) b).raise (469 + b)

/-- What a free or share meets first (R390, R395): none where it may go on with buffer j. -/
def State.poolCheck (s : State) (i a : Nat) : Except Nat Nat × State :=
  let st := s.get (E.pool_state.h i)
  if st = 1 then (.error 0x01, s)
  else if st ≠ 2 then (.error 0x0C, s)
  else
    match s.bufOf i a with
    | none => (.error 0x06, (s.inc (E.pool_bad_addresses.h i) 1).poolFlag i 2)
    | some j =>
      if bitAt (s.bufWord i j) 31 then (.ok j, s)
      else (.error 0x0C, (s.inc (E.pool_double_frees.h i) 1).poolFlag i 1)

/-- A buffer index into the tail cache; above 48 entries the oldest 32 go to the ring (R392). -/
def State.takeBack (s : State) (i j : Nat) : State :=
  let s := s.modPool i fun p => { p with tail := p.tail ++ [j] }
  let p := s.pool i
  if p.tail.length ≤ 48 then s
  else
    let cap := max 1 (s.get (E.pool_count.h i))
    let out := p.tail.take 32
    let (_, s) := out.foldl (fun (acc : Nat × State) x =>
      (acc.1 + 1, acc.2.store (acc.2.get (E.pool_ring_base.h i) + 4 * ((p.tailPtr + acc.1) % cap)) (leBytes 4 x))) (0, s)
    let s := s.add (E.pool_ring_count.h i) 32
    s.modPool i fun p => { p with tail := p.tail.drop 32, tailPtr := (p.tailPtr + 32) % cap }

/-- POOL_FREE (R394, R395): one reference fewer; the last returns the buffer. DEDUCED (log 117). -/
def poolFree (s : State) (i a : Nat) : Nat × State :=
  match s.poolCheck i a with
  | (.error e, s) => (e, s)
  | (.ok j, s) =>
    let c := s.bufWord i j % 65536
    if 1 < c then (0, s.setWord i j (2 ^ 31 + (c - 1)))
    else
      let s := (s.setWord i j 0).takeBack i j
      (0, (s.inc (E.pool_frees.h i) 1).poolSync i)

/-- POOL_SHARE (R394, R395): one reference more. -/
def poolShare (s : State) (i a : Nat) : Nat × State :=
  match s.poolCheck i a with
  | (.error e, s) => (e, s)
  | (.ok j, s) =>
    let c := s.bufWord i j % 65536
    if 65535 ≤ c then (0x06, s) else (0, s.setWord i j (2 ^ 31 + (c + 1)))

/-- Buffers allocated from a pool; a Failed pool keeps those it had (R398, R399). -/
def State.poolBusy (s : State) (i : Nat) : Nat :=
  if 2 ≤ s.get (E.pool_state.h i) ∧ (s.pool i).filled then s.get (E.pool_count.h i) - s.get (E.pool_free_count.h i) else 0

/-- A pool enters Failed (R398). -/
def poolFail (s : State) (i : Nat) : State :=
  let st := s.get (E.pool_state.h i)
  if st ≠ 1 ∧ st ≠ 2 then s
  else ((s.hset (E.pool_state.h i) 3 i 3).poolFlag i 3).later (.poolFailed i)

/-- Every pool that meets a test of its areas enters Failed (R398). -/
def poolsFail (s : State) (hit : State → Nat × Nat → Bool) : State :=
  (s.liveIdx 3).foldl (fun st i => if hit st (st.bufArea i) || hit st (st.ringArea i) then poolFail st i else st) s

/-- Pools on a CXL port that is lost fail. -/
def poolsCxlLost (s : State) (c : Nat) : State := poolsFail s fun st r => (st.cxlsOf r.1 r.2).contains c
/-- Pools on a stack that fails, fail. -/
def poolsStackLost (s : State) (h : Nat) : State := poolsFail s fun st r => (st.stacksOf r.1 r.2).contains h
/-- Pools that hold a force-destroyed window fail (R388). -/
def poolsWindowLost (s : State) (w : Nat) : State :=
  (s.liveIdx 3).foldl (fun st i =>
    if hIdx (st.get (E.pool_buffer_window.h i)) = w ∨ hIdx (st.get (E.pool_ring_window.h i)) = w then poolFail st i else st) s

/-! ### Sequence templates and page tables -/

/-- Bytes of a head block, of a layer slice and of a page (R401). -/
def headBlock (d f : Nat) : Nat := ceilDiv (64 * d) (max 1 (granElems f)) * 256
/-- A page's bytes. -/
def pageBytes (layers kv d f : Nat) : Nat := layers * (2 * kv * headBlock d f)

/-- `seqtemplate.page_bytes` of template t. -/
def State.tmplBytes (s : State) (t : Nat) : Nat :=
  pageBytes (s.get (E.seqtemplate_layers.n t)) (s.get (E.seqtemplate_kv_heads.n t)) (s.get (E.seqtemplate_head_dim.n t))
    (s.get (E.seqtemplate_kv_format.n t))

/-- The page pools of a template, as handles (R405). -/
def State.pagePools (s : State) (t : Nat) : List Nat :=
  ((List.range 8).map fun k => s.get (E.seqtemplate_page_pool.nk t k)).filter (· != 0)

/-- The sequences in Active or Failed that use template t. -/
def State.tmplUsers (s : State) (t : Nat) : Nat :=
  ((s.liveIdx 2).filter fun i => s.get (E.sequence_state.h i) != 0 && s.get (E.sequence_template.h i) == t).length

/-- A write of a template's configuration field (R400, R401). -/
def seqTemplateWrite (s : State) (t : Nat) (l : Loc) (v : Nat) : Nat × State :=
  if s.tmplUsers t ≠ 0 then (0x0C, s)
  else
    let s' := s.set l v
    let f := s'.get (E.seqtemplate_kv_format.n t)
    let d := s'.get (E.seqtemplate_head_dim.n t)
    if 7 < f ∨ f = 5 ∨ ((f = 6 ∨ f = 7) ∧ d % 32 ≠ 0) ∨ 2097152 < s'.tmplBytes t then (0x06, s)
    else (0, s'.set (E.seqtemplate_page_bytes.n t) (s'.tmplBytes t))

/-- The template of a sequence. -/
def State.seqTmpl (s : State) (i : Nat) : Nat := s.get (E.sequence_template.h i)

/-- A page-table entry that names a buffer, and the address that an entry names (R402). -/
def ptEntry (a : Nat) : Nat := 2 ^ 63 + a / 256 * 256 % 2 ^ 52
/-- The buffer that an entry names, if it is valid. -/
def ptAddr (e : Nat) : Option Nat := if bitAt e 63 then some (bits e 51 8 * 256) else none

/-- The table buffer r of a page table. -/
def State.tableBuf (s : State) (root r : Nat) : Option Nat := ptAddr (s.memGet64 (root + 8 * r))

/-- The page p of a page table. -/
def State.pageBuf (s : State) (root p : Nat) : Option Nat :=
  match s.tableBuf root (p / 512) with
  | some t => ptAddr (s.memGet64 (t + 8 * (p % 512)))
  | none => none

/-- The pages held by a sequence in Active or Failed. -/
def State.seqPages (s : State) (i : Nat) : List Nat :=
  if s.get (E.sequence_state.h i) = 0 then []
  else (List.range (s.get (E.sequence_capacity.h i) / 64)).filterMap (s.pageBuf (s.get (E.sequence_root.h i)))

/-- The table buffers of a sequence, its root not among them. -/
def State.seqTables (s : State) (i : Nat) : List Nat :=
  if s.get (E.sequence_state.h i) = 0 then []
  else (List.range (ceilDiv (s.get (E.sequence_capacity.h i)) 32768)).filterMap (s.tableBuf (s.get (E.sequence_root.h i)))

/-- The pool, among handles, whose buffer area holds an address. -/
def State.poolAt (s : State) (hs : List Nat) (a : Nat) : Option Nat :=
  (hs.map hIdx).find? fun i => (s.bufOf i a).isSome

/-- A page taken: home pool first, then the others in list order (R405). Answers the address. DEDUCED (log 118). -/
def takePage (s : State) (pools : List Nat) (p : Nat) : Option Nat × State :=
  let n := max 1 pools.length
  (List.range pools.length).foldl (fun (acc : Option Nat × State) k =>
    match acc.1 with
    | some _ => acc
    | none =>
      match poolTake acc.2 (hIdx (pools.getD ((p + k) % n) 0)) with
      | (.ok a, st) => (some a, st)
      | (.error _, st) => (none, st)) (none, s)

/-- One reference to an address given back to the pool that holds it. -/
def giveBack (s : State) (pools : List Nat) (a : Nat) : State :=
  match s.poolAt pools a with
  | some i => (poolFree s i a).2
  | none => s

/-- A table buffer taken and cleared, so that no entry of it is valid. -/
def takeTable (s : State) (t : Nat) : Option Nat × State :=
  match poolTake s (hIdx (s.get (E.seqtemplate_table_pool.n t))) with
  | (.ok a, st) => (some a, st.store a (List.replicate 4096 0))
  | (.error _, st) => (none, st)

/-- What a growth of a page table has taken so far: pages and table buffers, or failure. -/
structure Grown where
  ok : Bool
  pages : List Nat
  tables : List Nat

/-- Page p added to a page table with a given page, taking the table buffer it needs. DEDUCED (log 118). -/
def addPage (t root p : Nat) (page : Option Nat) (acc : Grown × State) : Grown × State :=
  if !acc.1.ok then acc
  else
    let (g, s) := acc
    let (tab, g, s) :=
      match s.tableBuf root (p / 512) with
      | some x => (some x, g, s)
      | none =>
        match takeTable s t with
        | (some x, s) => (some x, { g with tables := x :: g.tables }, s.memPut64 (root + 8 * (p / 512)) (ptEntry x))
        | (none, s) => (none, { g with ok := false }, s)
    match tab with
    | none => (g, s)
    | some x =>
      match page with
      | some a => (g, s.memPut64 (x + 8 * (p % 512)) (ptEntry a))
      | none =>
        match takePage s (s.pagePools t) p with
        | (some a, s) => ({ g with pages := a :: g.pages }, s.memPut64 (x + 8 * (p % 512)) (ptEntry a))
        | (none, s) => ({ g with ok := false }, s)

/-- What was taken goes back: pages, then table buffers. DEDUCED (log 118). -/
def ungrow (s : State) (t root : Nat) (g : Grown) : State :=
  let s := g.pages.foldl (fun st a => giveBack st (st.pagePools t) a) s
  let s := g.tables.foldl (fun st a => giveBack st [st.get (E.seqtemplate_table_pool.n t)] a) s
  (List.range 512).foldl (fun st r =>
    match st.tableBuf root r with
    | some x => if g.tables.contains x then st.memPut64 (root + 8 * r) 0 else st
    | none => st) s

/-! ### Sequences -/

/-- The conditions of R404 on the pools that a template names. -/
def State.seqPoolsCheck (s : State) (i t : Nat) : Nat :=
  let pages := s.pagePools t
  let table := s.get (E.seqtemplate_table_pool.n t)
  let all := pages ++ [table]
  let live := fun (h : Nat) => match s.liveH 3 h with | some r => decide (r.part = s.partOf 2 i) | none => false
  if pages = [] ∨ table = 0 then 0x06
  else if all.any (fun h => !live h) then 0x03
  else if all.any (fun h => s.get (E.pool_state.h (hIdx h)) != 2) then 0x0C
  else if s.get (E.pool_buffer_size.h (hIdx table)) ≠ 4096 ∨
      pages.any (fun h => decide (s.get (E.pool_buffer_size.h (hIdx h)) < s.tmplBytes t)) then 0x06
  else 0

/-- The conditions of R404 on the prefix source. -/
def State.prefixCheck (s : State) (i t : Nat) : Nat :=
  let h := s.get (E.sequence_prefix_source.h i)
  if h = 0 then 0
  else
    match (if hType h = 2 then s.liveAt 2 (hIdx h) else none) with
    | none => 0x03
    | some r =>
      let j := hIdx h
      if r.part ≠ s.partOf 2 i then 0x03
      else if r.gen ≠ hGen h then 0x04
      else if s.get (E.sequence_state.h j) ≠ 1 ∨ s.seqTmpl j ≠ t then 0x0C
      else if s.get (E.sequence_length.h j) < s.get (E.sequence_prefix_tokens.h i) then 0x06
      else 0

/-- The sequence becomes Active with a length and a capacity (R404, R409). -/
def State.seqActive (s : State) (i len cap : Nat) : State :=
  let s := s.set (E.sequence_length.h i) len
  let s := s.set (E.sequence_capacity.h i) cap
  let s := s.set (E.sequence_reserve.h i) cap
  let s := s.set (E.sequence_pages.h i) (cap / 64)
  s.hset (E.sequence_state.h i) 2 i 1

/-- The tokens that the activation of sequence i takes from its source. -/
def State.prefixTokens (s : State) (i : Nat) : Nat :=
  if s.get (E.sequence_prefix_source.h i) = 0 then 0 else s.get (E.sequence_prefix_tokens.h i)

/-- Can every page that an activation shares take one reference more (R394, R404)? DEDUCED (log 120). -/
def State.prefixFree (s : State) (i : Nat) : Bool :=
  let src := s.get (E.sequence_root.h (hIdx (s.get (E.sequence_prefix_source.h i))))
  (List.range (s.prefixTokens i / 64)).all fun p =>
    match s.pageBuf src p with
    | some a => match s.poolAt (s.pagePools (s.seqTmpl i)) a with
      | some q => match s.bufOf q a with
        | some b => decide (s.bufWord q b % 65536 < 65535)
        | none => true
      | none => true
    | none => true

/-- SEQUENCE_ACTIVATE (R404, R409): status, and whether the answer waits for the copy of a partial prefix page.
DEDUCED (log 120). -/
def sequenceActivate (s : State) (i v : Nat) : Nat × Bool × State :=
  let t := s.seqTmpl i
  if v = 0 then (0, false, s)
  else if s.get (E.sequence_state.h i) ≠ 0 ∨ (mget? s.copying i).isSome then (0x0C, false, s)
  else
    let c1 := s.seqPoolsCheck i t
    let c2 := s.prefixCheck i t
    if c1 ≠ 0 then (c1, false, s)
    else if c2 ≠ 0 then (c2, false, s)
    else if !s.prefixFree i then (0x02, false, s)
    else
      match takeTable s t with
      | (none, s) => (0x02, false, s)
      | (some root, s) =>
        let k := s.prefixTokens i
        let src := s.get (E.sequence_root.h (hIdx (s.get (E.sequence_prefix_source.h i))))
        let full := k / 64
        let (g, s) := (List.range full).foldl (fun acc p => addPage t root p (acc.2.pageBuf src p) acc)
          ((⟨true, [], []⟩ : Grown), s)
        let (g, s) := if k % 64 = 0 then (g, s) else addPage t root full none (g, s)
        if !g.ok then
          let s := ungrow s t root g
          (0x02, false, giveBack s [s.get (E.seqtemplate_table_pool.n t)] root)
        else
          let s := (List.range full).foldl (fun st p =>
            match st.pageBuf src p with
            | some a => match st.poolAt (st.pagePools t) a with
              | some q => (poolShare st q a).2
              | none => st
            | none => st) s
          let s := s.set (E.sequence_root.h i) root
          let s := s.inc (E.sequence_pages_taken.h i) g.pages.length
          if k % 64 = 0 then (0, false, s.seqActive i k k)
          else
            match s.pageBuf src full, s.pageBuf root full with
            | some a, some b => (0, true, { s with copying := mput s.copying i (a, b) })
            | _, _ => (0, false, s.seqActive i k (roundUp k 64))

/-- The bytes of a page copied (R409). -/
def copyPage (s : State) (i src dst : Nat) : State :=
  let (d, s) := s.load src (s.tmplBytes (s.seqTmpl i))
  s.store dst d

/-- PREFIX_COPY_DONE (R409): the copy takes effect, and the activation returns. DEDUCED (log 120). -/
def prefixCopyDone (s : State) (i : Nat) : State :=
  match mget? s.copying i with
  | none => s
  | some (a, b) =>
    let s := copyPage s i a b
    let k := s.prefixTokens i
    let s := { s with copying := mdel s.copying i }
    ((s.inc E.holdings_copies.s 1).seqActive i k (roundUp k 64)).later .upkeep

/-- Shrinking: pages beyond the capacity and table buffers left with no entry are freed (R406). -/
def shrink (s : State) (i cap : Nat) : State :=
  let t := s.seqTmpl i
  let root := s.get (E.sequence_root.h i)
  let old := s.get (E.sequence_capacity.h i) / 64
  let gone := (List.range old).filter (fun p => decide (cap / 64 ≤ p))
  let s := gone.foldl (fun st p =>
    match st.pageBuf root p, st.tableBuf root (p / 512) with
    | some a, some x => giveBack (st.memPut64 (x + 8 * (p % 512)) 0) (st.pagePools t) a
    | _, _ => st) s
  let tabs := (List.range (ceilDiv old 512)).filter (fun r => decide (cap ≤ 32768 * r))
  tabs.foldl (fun st r =>
    match st.tableBuf root r with
    | some x => giveBack (st.memPut64 (root + 8 * r) 0) [st.get (E.seqtemplate_table_pool.n t)] x
    | none => st) s

/-- SEQUENCE_RESERVE (R406). DEDUCED (log 119). -/
def sequenceReserve (s : State) (i r : Nat) : Nat × State :=
  if s.get (E.sequence_state.h i) ≠ 1 then (0x0C, s)
  else if 16777216 < r ∨ r < s.get (E.sequence_length.h i) then (0x06, s)
  else
    let cap := roundUp r 64
    let old := s.get (E.sequence_capacity.h i)
    let t := s.seqTmpl i
    let root := s.get (E.sequence_root.h i)
    let fin := fun (s : State) =>
      ((s.set (E.sequence_reserve.h i) r).set (E.sequence_capacity.h i) cap).set (E.sequence_pages.h i) (cap / 64)
    if cap < old then
      if s.get (E.sequence_holders.h i) ≠ 0 then (0x0C, s) else (0, fin (shrink s i cap))
    else
      let (g, s') := ((List.range (cap / 64)).filter (fun p => decide (old / 64 ≤ p))).foldl
        (fun acc p => addPage t root p none acc) ((⟨true, [], []⟩ : Grown), s)
      if g.ok then (0, (fin s').inc (E.sequence_pages_taken.h i) g.pages.length)
      else
        let s' := (List.range (cap / 64)).foldl (fun st p =>
          if p < old / 64 then st
          else match st.pageBuf root p, st.tableBuf root (p / 512) with
            | some _, some x => st.memPut64 (x + 8 * (p % 512)) 0
            | _, _ => st) s'
        (0x02, ungrow s' t root g)

/-- `sequence.length` as a job's dispatch takes it: what it was before a write on this core cycle (R407). -/
def State.seqLen (s : State) (i : Nat) : Nat := mgetD s.cyc.old (E.sequence_length.h i).key (s.get (E.sequence_length.h i))

/-- SEQUENCE_LENGTH (R407). DEDUCED (log 119). -/
def sequenceLength (s : State) (i v : Nat) : Nat × State :=
  if s.get (E.sequence_state.h i) ≠ 1 then (0x0C, s)
  else if s.get (E.sequence_capacity.h i) < v then (0x06, s)
  else (0, (s.noteOld (E.sequence_length.h i)).set (E.sequence_length.h i) v)

/-- A sequence's buffers go back: one reference to each page, the table buffers, the root (R411). Frees in a Failed pool
have no effect (R412). -/
def seqRelease (s : State) (i : Nat) : State :=
  let t := s.seqTmpl i
  let tp := [s.get (E.seqtemplate_table_pool.n t)]
  let pages := s.seqPages i
  let tables := s.seqTables i
  let s := pages.foldl (fun st a => giveBack st (st.pagePools t) a) s
  let s := tables.foldl (fun st a => giveBack st tp a) s
  let s := if s.get (E.sequence_state.h i) = 0 then s else giveBack s tp (s.get (E.sequence_root.h i))
  match mget? s.copying i with
  | some (_, b) =>
    let s := giveBack s (s.pagePools t) b
    giveBack { s with copying := mdel s.copying i } tp (s.get (E.sequence_root.h i))
  | none => s

/-- Does a sequence have a page, a table buffer or its root in pool p? -/
def State.seqUsesPool (s : State) (i p : Nat) : Bool :=
  s.get (E.sequence_state.h i) == 1 &&
  (s.get (E.sequence_root.h i) :: (s.seqTables i ++ s.seqPages i)).any (fun a => (s.bufOf p a).isSome)

/-- Sequences with a buffer in a pool that failed enter Failed (R412). -/
def seqsFail (s : State) (p : Nat) : State :=
  ((s.liveIdx 2).filter (fun i => s.seqUsesPool i p)).foldl (fun st i =>
    (((st.hset (E.sequence_state.h i) 2 i 2).raise 473).inc E.holdings_failed.s 1).later (.seqFailed i)) s

end Sys2Proof.Machine
end

