-- ==== Sys2Proof/Machine/Mills.lean ====
section
/-!
DEFINITION. Mill jobs (spec/12_mills.md, R317 to R351): descriptors, the dispatcher's checks, starting, the operators, and
the ends of a job.
-/

namespace Sys2Proof.Machine

/-! ### Descriptors -/

/-- The twenty words of a descriptor (R322). -/
def descWords (b : List Byte) : List Nat := (List.range 20).map fun i => leAt b (4 * i) 4

/-- Word i of a descriptor. -/
def dw (d : List Nat) (i : Nat) : Nat := d.getD i 0

/-- Operator, formats and flags of a descriptor (R322). -/
def dOp (d : List Nat) : Nat := bits (dw d 0) 7 4
/-- a_format. -/
def dFa (d : List Nat) : Nat := bits (dw d 0) 11 8
/-- b_format. -/
def dFb (d : List Nat) : Nat := bits (dw d 0) 15 12
/-- out_format. -/
def dFo (d : List Nat) : Nat := bits (dw d 0) 19 16
/-- pin_count. -/
def dPins (d : List Nat) : Nat := bits (dw d 1) 24 16
/-- The step word. -/
def dSteps (d : List Nat) : Nat := bits (dw d 1) 11 0
/-- A 52-bit address in words i and i + 1. -/
def dAddr (d : List Nat) (i : Nat) : Nat := dw d i + bits (dw d (i + 1)) 19 0 * 2 ^ 32

/-- The template's descriptor (R325). -/
def State.tmplDesc (s : State) (i : Nat) : List Nat :=
  descWords ((List.range 80).map fun k => BitVec.ofNat 8 (s.dom E.template_descriptor 0 i k))

/-- The descriptor with an argument block applied (R321). -/
def applyArgs (d : List Nat) (b : List Byte) : List Nat :=
  let a := fun (i : Nat) => leAt b (4 * i) 4
  [dw d 0, dw d 1, a 0, a 1, a 2, a 3, a 4, a 5, a 6, a 7, a 8, a 9, dw d 12, dw d 13, dw d 14, dw d 15, dw d 16, dw d 17,
    a 10, a 11]

/-- Bytes that the payload's form takes before its inline operands (R321). -/
def formBytes (h : Rill) : Nat := if h.handle = 0 then 80 else 48

/-- Are the reserved bits of a descriptor zero (R322)? -/
def descReserved (d : List Nat) : Bool :=
  bits (dw d 0) 31 24 == 0 && bits (dw d 1) 15 12 == 0 && bits (dw d 1) 31 25 == 0 &&
  ([2, 4, 6, 8].all fun i => bits (dw d (i + 1)) 31 20 == 0)

/-- Check 1 of R324: version, operator, reserved bits. DEDUCED (log 105). -/
def descOk1 (d : List Nat) : Bool := bits (dw d 0) 3 0 == 1 && decide (dOp d ≤ 5) && descReserved d

/-- Check 2 of R324: formats valid and allowed for the operator (R332 to R338). DEDUCED (log 105). -/
def descOk2 (d : List Nat) : Bool :=
  let a := dFa d
  let b := dFb d
  let o := dFo d
  decide (a ≤ 9) && decide (b ≤ 9) && (dOp d == 3 || decide (o ≤ 9)) &&
  (if dOp d = 0 ∨ dOp d = 3 then decide (a ≤ 7) && (a == 0) == (b == 0)
   else if dOp d = 1 then decide (a ≤ 3) && decide (o ≤ 2)
   else if dOp d = 2 then decide (a ≤ 3) && decide (o ≤ 2)
   else true)

/-- The block length of a format (R293). -/
def fmtBlock (f : Nat) : Nat := (fmtRow f).2.1

/-- Is a step chain allowed for a row of n elements (R338)? -/
def stepsOk (d : List Nat) (n : Nat) : Bool :=
  let w := dSteps d
  let all := [0, 1, 2, 3].map fun i => bits w (3 * i + 2) (3 * i)
  let cs := stepCodes w
  let fb := fmtBlock (dFo d)
  all.all (· != 7) && (all.drop cs.length).all (· == 0) && cs.dropLast.all (· != 6) &&
  decide ((cs.filter (fun c => c = 1 ∨ c = 2)).length ≤ 1) &&
  (!(cs.contains 6 || cs.contains 2) || fb == 1 || n % fb == 0)

/-- Bytes of one row of a matrix operand (R323). -/
def rowBytes (f k : Nat) : Nat := granules f k * 256

/-- The shape of operand A: rows, elements per row (R332 to R338). `hd` is the head dimension of the sequence. -/
def shapeA (d : List Nat) (hd : Nat) : Nat × Nat :=
  match dOp d with
  | 0 => (dw d 10, dw d 12)
  | 1 => (dw d 19 % 65536, hd)
  | 2 => (dw d 10 * (dw d 19 % 65536), hd)
  | 3 => (dw d 10, dw d 12)
  | _ => (dw d 10, dw d 11)

/-- Query heads of an attention job: param1 in decode; the chunk's A and output rows take them from the template's ratio,
carried in n (the descriptor gives no other field). DEDUCED (log 107). -/
def qHeads (d : List Nat) : Nat := if dOp d = 1 then dw d 19 % 65536 else dw d 11

/-- Rows and elements per row of A with the chunk's head count. -/
def aShape (d : List Nat) (hd : Nat) : Nat × Nat := if dOp d = 2 then (dw d 10 * qHeads d, hd) else shapeA d hd

/-- Bytes of the output and its row count and row elements. -/
def outShape (d : List Nat) (hd : Nat) : Nat × Nat :=
  match dOp d with
  | 0 => (dw d 10, dw d 11)
  | 1 => (qHeads d, hd)
  | 2 => (dw d 10 * qHeads d, hd)
  | _ => (dw d 10, dw d 11)

/-- The output bytes of a job (R329, R333). -/
def outBytes (d : List Nat) (hd : Nat) : Nat :=
  if dOp d = 1 then
    let g := ceilDiv (qHeads d) 32
    g * (32 * hd * ((fmtRow (dFo d)).1 / 8) + 256)
  else if dOp d = 3 then 0
  else (outShape d hd).1 * rowBytes (dFo d) (outShape d hd).2

/-- The sequence or collective that param0 names, live and of the partition: the slot, or the status (R324, checks 4 and
5). None where the operator names none. -/
def State.param0 (s : State) (part : Nat) (d : List Nat) : Except Nat (Option Nat) :=
  let want := if dOp d = 1 ∨ dOp d = 2 then 2 else if dOp d = 3 then 1 else 0
  if want = 0 then .ok none
  else
    let h := dw d 18
    if hType h ≠ want then .error 0x03
    else
      match s.liveAt want (hIdx h) with
      | none => .error 0x03
      | some r =>
        if r.part ≠ part then .error 0x03
        else if want = 1 ∧ s.get (E.collective_type.h (hIdx h)) ≠ 6 then .error 0x03
        else if r.gen ≠ hGen h then .error 0x04
        else .ok (some (hIdx h))

/-- The member count of a collective: the list ends at its first 0xFFFF (R227). -/
def State.memberCount (s : State) (i : Nat) : Nat :=
  ((List.range 1024).takeWhile fun j => s.domLe E.collective_members 0 i (2 * j) 2 != 0xFFFF).length

/-- KV heads, head dimension, KV format and layers of a sequence's template. -/
def State.seqShape (s : State) (i : Nat) : Nat × Nat × Nat × Nat :=
  let t := s.seqTmpl i
  (s.get (E.seqtemplate_kv_heads.n t), s.get (E.seqtemplate_head_dim.n t), s.get (E.seqtemplate_kv_format.n t),
    s.get (E.seqtemplate_layers.n t))

/-- The token range of an attention job, resolved at dispatch (R333, R334, R336): first token and end. -/
def State.tokRange (s : State) (d : List Nat) (i : Nat) : Nat × Nat :=
  let len := s.seqLen i
  if dOp d = 1 then (dw d 10, if dw d 11 = 0 then len else dw d 10 + dw d 11) else (0, dw d 19 + dw d 10)

/-- Check 3 of R324: dimensions, chain, pin count, scales, inline operands. `slot` is the handle of param0, if live.
DEDUCED (log 105). -/
def State.descOk3 (s : State) (d : List Nat) (slot : Option Nat) (inline : Nat) (form : Nat) : Bool :=
  let op := dOp d
  let m := dw d 10
  let n := dw d 11
  let k := dw d 12
  let fb := fmtBlock (dFo d)
  let dims :=
    match op with
    | 0 => decide (1 ≤ m ∧ m ≤ 65536 ∧ 1 ≤ n ∧ n ≤ 65536 ∧ 32 ≤ k ∧ k ≤ 65536) && k % 32 == 0 &&
        (dFb d != 9 || k % 64 == 0) && (fb == 1 || n % fb == 0) && stepsOk d n
    | 1 =>
      let hq := qHeads d
      decide (1 ≤ hq ∧ hq ≤ 1024) && bits (dw d 19) 31 16 == 0 && dSteps d == 0 &&
      (match slot with
       | some i =>
         let (kv, _, _, ly) := s.seqShape i
         let (a, b) := s.tokRange d i
         hq % max 1 kv == 0 && decide (k < ly) && decide (a ≤ b) && decide (b ≤ s.seqLen i)
       | none => true)
    | 2 =>
      decide (1 ≤ m ∧ m ≤ 8192) && decide (1 ≤ qHeads d ∧ qHeads d ≤ 1024) && decide (m * qHeads d ≤ 262144) &&
      (match slot with
       | some i =>
         let (kv, hd, _, ly) := s.seqShape i
         qHeads d % max 1 kv == 0 && decide (k < ly) && decide ((s.tokRange d i).2 ≤ s.seqLen i) &&
         stepsOk d hd
       | none => true)
    | 3 =>
      decide (1 ≤ n ∧ n ≤ 1024) && decide (32 ≤ k ∧ k ≤ 65536) && k % 32 == 0 && dSteps d == 0 &&
      (match slot with
       | some i =>
         let p := s.memberCount i
         p != 0 && m == p * s.get (E.collective_rows.h i) && n % p == 0 &&
         s.get (E.collective_capacity.h i) % max 1 (n / max 1 p) == 0
       | none => true)
    | 4 => decide (1 ≤ m ∧ 1 ≤ n ∧ m * n ≤ 16777216) && stepsOk d n && (fb == 1 || n % fb == 0 || !(stepCodes (dSteps d)).contains 6)
    | _ => decide (1 ≤ m ∧ 1 ≤ n ∧ m * n ≤ 16777216) && dSteps d == 0
  let hd := match slot with | some i => if op = 1 ∨ op = 2 then (s.seqShape i).2.1 else 0 | none => 0
  let aLen := (aShape d hd).1 * rowBytes (dFa d) (aShape d hd).2
  let bLen := n * rowBytes (dFb d) k
  let usesB := op == 0 || op == 3
  let scale := fun (f w : Nat) => f != 5 || scaleOk (dw d w)
  dims &&
  (!bitAt (dw d 0) 20 || (decide (1 ≤ dPins d) && decide (dPins d ≤ 256))) &&
  scale (dFa d) 13 && (!usesB || scale (dFb d) 14) && (op == 3 || scale (dFo d) 15) &&
  (!bitAt (dw d 0) 22 || (decide (form ≤ dAddr d 2) && decide (dAddr d 2 + aLen ≤ inline))) &&
  (!(usesB && bitAt (dw d 0) 23) || (decide (form ≤ dAddr d 4) && decide (dAddr d 4 + bLen ≤ inline))) &&
  (bitAt (dw d 0) 22 || dAddr d 2 % 256 == 0) && (!usesB || bitAt (dw d 0) 23 || dAddr d 4 % 256 == 0) &&
  dAddr d 6 % 256 == 0 && (bitAt (dw d 0) 21 || op == 3 || dAddr d 8 % 256 == 0)

/-- The ranges that a job reads or writes, with the right each needs (R323, R408). -/
def State.jobRanges (s : State) (d : List Nat) (slot : Option Nat) (tok : Nat × Nat) : List (Nat × Nat × Nat) :=
  let op := dOp d
  let hd := match slot with | some i => if op = 1 ∨ op = 2 then (s.seqShape i).2.1 else 0 | none => 0
  let a := if bitAt (dw d 0) 22 then [] else [(dAddr d 2, (aShape d hd).1 * rowBytes (dFa d) (aShape d hd).2, 0)]
  let b := if (op == 0 || op == 3) && !bitAt (dw d 0) 23 then [(dAddr d 4, dw d 11 * rowBytes (dFb d) (dw d 12), 0)] else []
  let c :=
    if op = 3 then (if dAddr d 6 = 0 then [] else [(dAddr d 6, dw d 10 * rowBytes 0 (dw d 11), 1)])
    else if (stepCodes (dSteps d)).any (fun x => x = 1 ∨ x = 2) then
      [(dAddr d 6, rowBytes 0 (outShape d hd).2, 0)] else []
  let o := if bitAt (dw d 0) 21 || op == 3 then [] else [(dAddr d 8, outBytes d hd, 1)]
  let pages :=
    match slot with
    | some i =>
      if op = 1 ∨ op = 2 then
        let root := s.get (E.sequence_root.h i)
        let ps := (List.range (ceilDiv tok.2 64)).filter (fun p => decide (tok.1 / 64 ≤ p))
        ps.filterMap fun p => (s.pageBuf root p).map fun x => (x, s.tmplBytes (s.seqTmpl i), 0)
      else []
    | none => []
  a ++ b ++ c ++ o ++ pages

/-- Is a physical Mill able to take shares: enabled, not failed, its group powered (R342, R345)? -/
def State.millUsable (s : State) (x : Nat) : Bool :=
  s.get (E.mill_logical.n x) != 0xFFFF && s.get (E.mill_state.n x) != 3 && s.domOn (millDomain x) &&
  s.domOn (21 + 5 * (x / 68))

/-- Is admission closed on a domain: an entry that switches it off is in progress (R522)? -/
def State.closing (s : State) (k : Nat) : Bool :=
  match s.pwr.entry with
  | some e => e.doms.contains k
  | none => false

/-- Is a physical Mill free? -/
def State.millFree (s : State) (x : Nat) : Bool :=
  s.millUsable x && s.get (E.mill_state.n x) != 2 && !s.closing (millDomain x) && !s.closing (21 + 5 * (x / 68))

/-- Is a physical Mill reserved for Weir jobs (R433)? -/
def State.millReserved (s : State) (x : Nat) : Bool :=
  s.weirRunning && decide (s.get (E.mill_logical.n x) < s.get E.weir_mills.s)

/-- The Mills of a pinned job: logical 0 to pin_count − 1 (R343). None where one of them does not exist. -/
def State.pinSet (s : State) (n : Nat) : Option (List Nat) :=
  let ms := (List.range n).map s.physMill
  if ms.any (·.isNone) then none else some (ms.filterMap id)

/-- Does the job run pinned (R322, R344)? -/
def State.jobPinned (s : State) (part : Nat) (d : List Nat) : Bool := bitAt (dw d 0) 20 || s.weirPart part

/-- Check 8 of R324 with R345, R347 and R433. -/
def State.millsOk (s : State) (part : Nat) (d : List Nat) : Bool :=
  let weir := s.weirPart part
  if s.jobPinned part d then
    match s.pinSet (max 1 (dPins d)) with
    | none => false
    | some ms => ms.all (fun x => s.millUsable x && (weir || !s.millReserved x))
  else (List.range 272).any (fun x => s.millUsable x && !s.millReserved x)

/-- The checks of R324 in order: the status of the first that fails, or the slot of param0, the token range and the
windows that the job holds. -/
def State.jobCheck (s : State) (part : Nat) (d : List Nat) (inline form : Nat) :
    Except Nat (Option Nat × (Nat × Nat) × List Nat) :=
  if !descOk1 d then .error 0x06
  else if !descOk2 d then .error 0x07
  else
    let p := s.param0 part d
    let slot := match p with | .ok x => x | .error _ => none
    if !s.descOk3 d slot inline form ∨ (s.weirRunning ∧ s.weirPart part ∧ s.get E.weir_mills.s < dPins d) then .error 0x06
    else
      match p with
      | .error e => .error e
      | .ok slot =>
        let tok := match slot with
          | some i => if dOp d = 3 then (0, 0) else s.tokRange d i
          | none => (0, 0)
        let rs := s.jobRanges d slot tok
        let ws := rs.map fun r => s.winFor part r.1 r.2.1 r.2.2
        if ws.any (·.isNone) then .error 0x05
        else
          let stOk := match slot with
            | some i => if dOp d = 3 then decide (s.get (E.collective_state.h i) ≤ 1) else s.get (E.sequence_state.h i) == 1
            | none => true
          if !stOk then .error 0x0C
          else if !s.millsOk part d then .error 0x0C
          else .ok (slot, tok, dedup (ws.filterMap id))

/-- The template checks at write: checks 1 to 3 of R324 (R349), the inline operands left to the job. -/
def State.tmplOk (s : State) (d : List Nat) : Nat :=
  if !descOk1 d then 0x06 else if !descOk2 d then 0x07
  else if !s.descOk3 d none (2 ^ 60) 0 then 0x06 else 0

/-! ### The dispatcher -/

/-- The dispatcher's state changed. -/
def State.modMill (s : State) (f : MillSt → MillSt) : State := { s with mill := f s.mill }

/-- Packet jobs accepted and not yet ended (R327). -/
def State.packetJobs (s : State) : Nat := (s.mill.jobs.filter (fun j => j.epi.isNone)).length

/-- Queue places of engine e taken by epilogue jobs (R327), those on their way among them. -/
def State.epiJobs (s : State) (e : Nat) : Nat :=
  (s.mill.jobs.filter fun j => match j.epi with
    | some (c, _) => s.get (E.collective_engine.h c) == e
    | none => false).length +
  (s.mill.runs.filter fun r => decide (r.got.length < r.want) && s.get (E.collective_engine.h r.coll) == e).length

/-- `mill.queue_depth` follows the jobs. -/
def State.depthSync (s : State) : State := s.set E.mill_queue_depth.s s.mill.jobs.length

/-- `template.state` and `template.holders` of a template: jobs and collectives that hold it (R325, R349). -/
def State.tmplSync (s : State) (i : Nat) : State :=
  let jobs := (s.mill.jobs.filter (fun j => j.tmpl = some i)).length
  let colls := ((s.liveIdx 1).filter fun c =>
    let e := s.get (E.collective_epilogue.h c)
    decide (1 ≤ s.get (E.collective_state.h c)) && e != 0 && hIdx e == i).length
  let s := s.set (E.template_holders.h i) (jobs + colls)
  let v := if jobs + colls = 0 then 0 else 1
  if s.get (E.template_state.h i) = v then s else s.hset (E.template_state.h i) 10 i v

/-- The crossbar port that carries a job's result (R21): the first of its die. DEDUCED (log 85, 187). -/
def jobPort (mills : List Nat) : Nat := match mills with | x :: _ => 72 + 2 * (x / 68) | [] => 72

/-- The 32-byte result header (R329). -/
def resultHeader (status : Nat) (d : List Nat) (last pinned : Bool) (off total : Nat) (e : Ev) (mills : Nat) : List Byte :=
  let sat := fun (x : Nat) => min x 0xFFFFFFFF
  leBytes 1 status ++ leBytes 1 (dOp d) ++ leBytes 1 (dFo d) ++
  leBytes 1 ((if last then 1 else 0) + (if pinned then 2 else 0)) ++ leBytes 4 off ++ leBytes 4 total ++
  leBytes 4 (sat e.sat) ++ leBytes 4 (sat e.flush) ++ leBytes 4 (sat e.nan) ++ leBytes 2 mills ++ leBytes 6 0

/-- The payloads of a job's result (R329): data in pieces of 4,064 bytes after each header. -/
def resultPieces (j : Job) (status : Nat) (e : Ev) (data : List Byte) (total : Nat) : List (List Byte) :=
  let pieces := if data = [] then [[]] else chunks 4064 (data.length + 1) data
  let n := pieces.length
  ((List.range n).zip pieces).map fun p =>
    resultHeader status j.desc (p.1 + 1 == n) j.pinned (4064 * p.1) total e j.mills.length ++ p.2

/-- The result packets of a job (R329). -/
def State.sendResult (s : State) (j : Job) (status : Nat) (e : Ev) (data : List Byte) (total : Nat) : State :=
  let r := { respHeader j.h 7 (s.get E.rill_origin_lifetime.s) with w10 := status * 256 }
  (resultPieces j status e data total).foldl (fun st p => st.originate (jobPort j.mills) r p) s

/-- A packet between two crossbar ports of units of the FN7 (R21, R22). -/
def State.carry (s : State) (what : Inner) (i o cls n : Nat) (b : List Byte) : State :=
  s.placeOut (mkPkt (.inner what b) i 0xFFFF 8 0 (ceilDiv n 256) s.ft) o cls

/-- The result of an epilogue job returns to its engine, over the crossbar (R29, R249, R326), behind the headers of R329.
DESIGN CHOICE (log 187). -/
def State.handBack (s : State) (j : Job) (status : Nat) (e : Ev) (data : List Byte) : State :=
  match s.mill.runs.find? (fun r => r.id = j.id) with
  | none => s
  | some r => (resultPieces j status e data data.length).foldl (fun st p =>
      st.carry (.handBack j.id) (jobPort j.mills) (64 + s.get (E.collective_engine.h r.coll)) j.cls p.length p) s

/-- What a job holds is given up: windows, sequence, Mills, template; the dispatcher forgets it. -/
def State.jobRelease (s : State) (j : Job) : State :=
  let s := s.modMill fun m => { m with jobs := m.jobs.filter (fun x => x.id != j.id) }
  let s := j.wins.foldl (fun st w => st.freeWin w) s
  let s := match j.seq with | some i => s.sub (E.sequence_holders.h i) 1 | none => s
  let s := j.mills.foldl (fun st x =>
    let st := if st.get (E.mill_state.n x) = 2 then st.set (E.mill_state.n x) 1 else st
    st.sub (E.mill_die_queue.n (x / 68)) 1) s
  let s := match j.tmpl with | some i => s.tmplSync i | none => s
  s.depthSync

/-- The Archive record of a job end (R458). -/
def State.recJob (s : State) (j : Job) (status : Nat) (e : Ev) : State :=
  s.later (.record 6 j.part j.layer j.op j.h.handle (j.mills.headD 0xFFFF)
    (leBytes 1 status ++ leBytes 1 (dOp j.desc) ++ leBytes 1 (if j.pinned then 1 else 0) ++ [0] ++
     leBytes 2 j.mills.length ++ [0, 0] ++ leBytes 8 j.at_ ++ leBytes 4 (min e.sat 0xFFFFFFFF) ++
     leBytes 4 (min e.flush 0xFFFFFFFF) ++ leBytes 4 (min e.nan 0xFFFFFFFF) ++ leBytes 4 0))

/-- A job ends (R328 to R330): counts, result, and its holds given up. `data` is the output, `ops` the operations of
R445 under format `fmt`. -/
def State.endJob (s : State) (j : Job) (status : Nat) (e : Ev) (data : List Byte) (total fmt ops : Nat) : State :=
  let s := if status = 0 then s.inc E.mill_jobs_completed.s 1 else s.inc E.mill_jobs_failed.s 1
  let s := ((s.inc E.mill_saturated.s e.sat).inc E.mill_flushed.s e.flush).inc E.mill_nan_out.s e.nan
  let s := s.attrMill j (dOp j.desc) fmt (if status = 0 then ops else 0) e.sat e.flush e.nan
  let s := match j.tmpl with
    | some i => if status = 0 then s.inc (E.template_jobs.h i) 1 else s.inc (E.template_failed.h i) 1
    | none => s
  let s := match j.seq with | some i => if status = 0 then s.inc (E.sequence_jobs.h i) 1 else s | none => s
  let s := s.recJob j status e
  let s := match j.epi with
    | some _ => s.handBack j status e data
    | none => s.sendResult j status e (if bitAt (dw j.desc 0) 21 then data else []) (if status = 0 then total else 0)
  s.jobRelease j

/-- A job ended by a failure, a timeout or a force (R328, R347). -/
def State.abortJob (s : State) (j : Job) (status : Nat) : State := s.endJob j status ev0 [] 0 0 0

/-- A job record. -/
def mkJob (s : State) (id : Nat) (h : Rill) (epi : Option (Nat × Nat)) (vals : List Nat) (tmpl : Option Nat) (d : List Nat)
    (inline : List Byte) (part cls layer op : Nat) : Job :=
  { id := id, h := h, epi := epi, vals := vals, tmpl := tmpl, desc := d, inline := inline, part := part
    cls := cls, layer := layer, op := op, at_ := s.ft, state := 0, wins := [], seq := none, tok := (0, 0), mills := []
    pinned := s.jobPinned part d, free := 0 }

/-- Is the dispatcher full for packet jobs (R327, check 13)? -/
def State.dispatcherFull (s : State) : Bool := decide (s.get E.mill_queue_limit.s ≤ s.packetJobs)

/-- A job's descriptor as the checks of R324 take it: an epilogue's A comes with it, and its output returns to the engine (R326). -/
def checkedDesc (j : Job) : List Nat :=
  if j.epi.isNone then j.desc
  else ((j.desc.set 0 (dw j.desc 0 % 2 ^ 21 + 3 * 2 ^ 21)).set 2 0).set 3 0

/-- A job is accepted or ended by its checks (R324, R325). -/
def State.acceptJob (s : State) (j : Job) (inline form : Nat) : State :=
  let s := s.inc E.mill_jobs_accepted.s 1
  match s.jobCheck j.part (checkedDesc j) inline form with
  | .error e =>
    let s := if e = 0x0C ∧ !s.millsOk j.part j.desc then s.later (.wakeEvent 5) else s
    s.endJob j e ev0 [] 0 0 0
  | .ok (slot, tok, ws) =>
    let seq := if dOp j.desc = 1 ∨ dOp j.desc = 2 then slot else none
    let j := { j with seq := seq, tok := tok, wins := ws }
    let s := s.modMill fun m => { m with jobs := m.jobs ++ [j] }
    let s := ws.foldl (fun st w => st.holdWin w) s
    let s := match seq with | some i => s.add (E.sequence_holders.h i) 1 | none => s
    let s := match j.tmpl with | some i => s.tmplSync i | none => s
    s.depthSync

/-- A Mill-job packet that passed its arrival checks (R320, R321). -/
def millPacket (s : State) (h : Rill) (payload : List Byte) : State :=
  let (t, d) :=
    if h.handle = 0 then (none, descWords payload)
    else (some (hIdx h.handle), applyArgs (s.tmplDesc (hIdx h.handle)) payload)
  let j := mkJob s s.mill.nextId h none [] t d payload h.partition h.cls h.layer h.operator
  (s.modMill fun m => { m with nextId := m.nextId + 1 }).acceptJob j payload.length (formBytes h)

/-- An epilogue job of a collective segment (R326): A is the segment's FP32 values. -/
def millEpilogue (s : State) (id c seg : Nat) (vals : List Nat) : State :=
  let t := hIdx (s.get (E.collective_epilogue.h c))
  let d := s.tmplDesc t
  let n := max 1 (dw d 11)
  let d := d.set 10 (vals.length / n)
  let part := s.partOf 1 c
  let h := { blankRill 6 (s.get (E.collective_result_class.h c)) part with handle := s.wordOf 1 c }
  s.acceptJob (mkJob s id h (some (c, seg)) vals (some t) d [] part (s.get (E.collective_result_class.h c))
    (s.get (E.collective_layer_id.h c)) (s.get (E.collective_op_id.h c))) (2 ^ 60) 0

/-- A segment's values go to the Mills over the crossbar (R29, R249, R288), in pieces of up to 4,096 bytes; engine e hands over
to port 72 + e. DESIGN CHOICE (log 187). -/
def State.sendEpilogue (s : State) (c seg : Nat) (vals : List Nat) : State :=
  let id := s.mill.nextId
  let e := s.get (E.collective_engine.h c)
  let bs := vals.flatMap (leBytes 4)
  let s := s.modMill fun m => { m with nextId := id + 1, runs := m.runs ++ [⟨id, c, seg, bs.length, [], []⟩] }
  (chunks 4096 (bs.length + 1) bs).foldl (fun st p =>
    st.carry (.handOver id) (64 + e) (72 + e) (s.get (E.collective_result_class.h c)) p.length p) s

/-- A piece of a segment has crossed to the Mills: with the last one the job is accepted (R320, R326). -/
def handedOver (s : State) (id : Nat) (b : List Byte) : State :=
  match s.mill.runs.find? (fun r => r.id = id) with
  | none => s
  | some r =>
    let got := r.got ++ b
    let s := s.modMill fun m => { m with runs := m.runs.map fun x => if x.id = id then { x with got := got } else x }
    if got.length < r.want then s
    else millEpilogue s id r.coll r.seg ((chunks 4 (got.length + 1) got).map ofLe)

/-- The segments of collective c that meet a test have no epilogue any more: those held at the engine, and those on their way. -/
def State.dropEpilogues (s : State) (c : Nat) (p : Nat → Bool) : State :=
  { s with
    epiHeld := s.epiHeld.filter fun h => h.1 != c || !p h.2.1
    mill := { s.mill with runs := s.mill.runs.filter fun r => r.coll != c || !p r.seg } }

/-! ### Placement (R30, R342, R343) -/

/-- Is a list of shares a partition of 0 to n − 1 into runs, in any order? DEDUCED (log 106). -/
def sharesOk (shares : List (Nat × Nat)) (n : Nat) : Bool :=
  let l := sortBy (fun a b => decide (a.1 < b.1)) shares
  (l.foldl (fun (acc : Option Nat) x => match acc with
    | some e => if x.1 = e ∧ 0 < x.2 then some (e + x.2) else none
    | none => none) (some 0)) == some n

/-- The shares at one place, in their order. -/
def sharesAt (shares : List Share) (p : Nat) : List (Nat × Nat) :=
  (shares.filter fun x => x.place == p).map fun x => (x.first, x.count)

/-- n units cut into at most p equal runs of whole units, in order. -/
def equalRuns (n p : Nat) : List (Nat × Nat) :=
  let w := max 1 (ceilDiv n (max 1 p))
  (List.range (ceilDiv n w)).map fun i => (i * w, min w (n - i * w))

/-- The Mill die whose stacks or SRAM hold an address (R25, R26). -/
def State.dieOf (s : State) (a : Nat) : Option Nat :=
  match s.regionOf a with
  | some (1, lo, _) => some (lo / 0x10000000 - 1)
  | some (2, _, _) => some ((s.stacksOf a 1).headD 0 / 2)
  | some (3, _, _) => some ((s.stacksOf a 1).headD 0 / 2)
  | _ => none

/-- The die that takes work on data at an address: the one that holds it, where the job has Mills there; else the die of the job's
first Mill (R30, R342). -/
def State.workDie (s : State) (mills : List Nat) (a : Nat) : Nat :=
  let ds := mills.map (· / 68)
  match s.dieOf a with
  | some d => if ds.contains d then d else ds.headD 0
  | none => ds.headD 0

/-- The pages of tokens lo to hi − 1, as a count from the first. -/
def pageCount (lo hi : Nat) : Nat := if lo < hi then (hi - 1) / 64 + 1 - lo / 64 else 0

/-- The slice of one layer in page p of a sequence (R401): its address and bytes. -/
def State.pageSlice (s : State) (slot layer p : Nat) : Option (Nat × Nat) :=
  let t := s.seqTmpl slot
  let per := 2 * s.get (E.seqtemplate_kv_heads.n t) * headBlock (s.get (E.seqtemplate_head_dim.n t)) (s.get (E.seqtemplate_kv_format.n t))
  (s.pageBuf (s.get (E.sequence_root.h slot)) p).map fun pg => (pg + layer * per, per)

/-- The pages of an attention job, per die and share (R30, R335, R342, R343). A pinned job deals equal runs to its Mills in
order. Any other gives each page to the die that holds it; `shares` splits the pages of a die among its Mills, in the order in
which their partials became ready, and a die is ready with its last share. DEDUCED (log 106). -/
def State.attnPlan (s : State) (j : Job) (slot lo hi : Nat) (shares : List Share) : List (Nat × List (List Nat)) :=
  let pages := (List.range (pageCount lo hi)).map (· + lo / 64)
  if j.pinned then
    ((equalRuns pages.length (max 1 (dPins j.desc))).zip j.mills).map fun r => (r.2 / 68, [slice pages r.1.1 r.1.2])
  else
    let at_ := pages.map fun p => (p, s.workDie j.mills (match s.pageSlice slot (dw j.desc 12) p with | some x => x.1 | none => 0))
    let used := dedup (at_.map (·.2))
    let ready := (dedup (shares.map (·.place)).reverse).reverse.filter used.contains
    (ready ++ used.filter fun d => !ready.contains d).map fun d =>
      let mine := (at_.filter fun x => x.2 == d).map (·.1)
      let own := sharesAt shares d
      let runs := if sharesOk own mine.length && decide (own.length ≤ (j.mills.filter fun x => x / 68 == d).length) then own
        else [(0, mine.length)]
      (d, runs.map fun r => slice mine r.1 r.2)

/-- What a job's Mills read (R323, R342, R343): die, address, bytes. Rows of a matrix are dealt in order; the tiles of a GEMM go
to the dies that hold their rows of B, those of a pinned job to its Mills in turn. DEDUCED (log 106). -/
def State.jobReads (s : State) (j : Job) : List (Nat × Nat × Nat) :=
  let d := j.desc
  let dies := dedup (j.mills.map (· / 68))
  let all := fun (a len : Nat) => dies.map fun x => (x, a, len)
  let hd := match j.seq with | some i => (s.seqShape i).2.1 | none => 0
  let (ra, ea) := aShape d hd
  let rbA := rowBytes (dFa d) ea
  let rbB := rowBytes (dFb d) (dw d 12)
  let dealt := fun (rows : Nat) =>
    ((equalRuns rows j.mills.length).zip j.mills).map fun x => (x.2 / 68, dAddr d 2 + rbA * x.1.1, rbA * x.1.2)
  let a :=
    if j.epi.isSome || bitAt (dw d 0) 22 then []
    else if dOp d ≤ 2 then all (dAddr d 2) (ra * rbA) else dealt ra
  let b :=
    if bitAt (dw d 0) 23 then []
    else if dOp d = 3 then all (dAddr d 4) (dw d 11 * rbB)
    else if dOp d = 0 then
      (List.range (ceilDiv (dw d 11) 96)).map fun t =>
        let at_ := dAddr d 4 + 96 * t * rbB
        (if j.pinned then j.mills.getD (t % max 1 j.mills.length) 0 / 68 else s.workDie j.mills at_, at_, min 96 (dw d 11 - 96 * t) * rbB)
    else []
  let c := if (stepCodes (dSteps d)).any (fun x => x = 1 ∨ x = 2) then all (dAddr d 6) (4 * (outShape d hd).2) else []
  let pages :=
    match j.seq with
    | some i =>
      let (lo, hi) := if dOp d = 1 then j.tok else (0, j.tok.2)
      (s.attnPlan j i lo hi []).flatMap fun die => die.2.flatten.filterMap fun p => (s.pageSlice i (dw d 12) p).map fun x => (die.1, x)
    | none => []
  a ++ b ++ c ++ pages

/-- What a job reads from the stacks of other dies, or from Tier 2, crosses to its die (R21, R22), in packets of one 4 KiB page at
most. DESIGN CHOICE (log 187). -/
def State.haul (s : State) (j : Job) : State :=
  (s.jobReads j).foldl (fun st r =>
    (pagePieces (r.2.2 / 4096 + 2) r.2.1 (List.replicate r.2.2 unlisted)).foldl (fun st p =>
      let i := s.memInp p.1
      if 72 ≤ i ∧ i < 84 ∧ (s.dieOf p.1) ≠ some r.1 then st.carry (.operand j.id) i (72 + 2 * r.1 + i % 2) j.cls p.2.length []
      else st) st) s

/-- Does something that a job reads still cross? -/
def State.hauling (s : State) (id : Nat) : Bool :=
  (s.sw.held ++ s.sw.pkts).any fun p => p.body == .inner (.operand id) []

/-- MILL_JOB_START (R327, R342, R343, R433): a queued job takes its Mills. A pinned job takes its fixed set; another
takes the Mills that the dispatcher chose. The order of R327 holds: no queued job that could start on these Mills has a
higher class, or the same class and earlier acceptance. DEDUCED (log 106). -/
def millJobStart (s : State) (id : Nat) (mills : List Nat) : State :=
  match s.mill.jobs.find? (fun j => j.id = id ∧ j.state = 0) with
  | none => s
  | some j =>
    let want := if j.pinned then (s.pinSet (max 1 (dPins j.desc))).getD [] else dedup mills
    let weir := s.weirPart j.part
    let free := want ≠ [] ∧ want.all (fun x => s.millFree x && (weir || !s.millReserved x))
    let before := s.mill.jobs.filter fun x =>
      x.state == 0 && x.id != id && s.weirPart x.part == weir &&
      (if weir then decide (x.id < id) else decide (j.cls < x.cls) || (x.cls == j.cls && decide (x.id < id)))
    let blocked := before.any fun x =>
      if x.pinned then
        j.pinned && ((s.pinSet (max 1 (dPins x.desc))).getD []).any (fun y => want.contains y)
      else true
    if !free ∨ blocked ∨ (weir && s.weirRunning && s.cyc.n != s.weir.base) then s
    else
      let idle := ((List.range 272).filter fun x => s.millFree x).length
      let s := want.foldl (fun st x =>
        ((st.set (E.mill_state.n x) 2).inc (E.mill_shares.n x) 1).add (E.mill_die_queue.n (x / 68)) 1) s
      let j := { j with state := 1, mills := want, free := idle }
      (s.modMill fun m => { m with jobs := m.jobs.map fun x => if x.id = id then j else x }).haul j

/-! ### The operators -/

/-- Rows of an operand decoded: from the payload, or from memory (R323). Counts go to the format entries. -/
def State.operand (s : State) (inline : Option (List Byte)) (a f scale rows elems : Nat) : List (List Val) × Ev × State :=
  let rb := rowBytes f elems
  (List.range rows).foldl (fun (acc : List (List Val) × Ev × State) r =>
    let (vs, e, st) := acc
    let (b, st) := match inline with
      | some p => (slice p (a + r * rb) rb, st)
      | none => st.load (a + r * rb) rb
    let o := decodeBytes f (f32 scale) b
    (vs ++ [o.vs.take elems], e.add ⟨0, o.flushed, 0⟩, st.fmtIn f o.flushed o.reserved)) ([], ev0, s)

/-- The C operand: n FP32 elements. -/
def State.operandC (s : State) (d : List Nat) (n : Nat) : List Nat × State :=
  if (stepCodes (dSteps d)).any (fun x => x = 1 ∨ x = 2) then
    ((List.range n).map fun i => ofLe (s.memRead (dAddr d 6 + 4 * i) 4), s.countRead (dAddr d 6) (4 * n))
  else ([], s)

/-- The split of every tile of a GEMM along K, in the order in which its partial sums are added (R342, R343): in equal runs
where a pinned job has more Mills than tiles; for another job as the dispatcher split it, where m rows of the tiles are fewer
than the Mills that were free. DEDUCED (log 106). -/
def gemmPlan (j : Job) (shares : List Share) : List (List (Nat × Nat)) :=
  let d := j.desc
  let g := ceilDiv (dw d 12) 32
  let tiles := ceilDiv (dw d 11) 96
  (List.range tiles).map fun t =>
    if j.pinned then (if tiles < dPins d then equalRuns g (dPins d / max 1 tiles) else [(0, g)])
    else
      let own := sharesAt shares t
      if decide (dw d 10 * tiles < j.free) && sharesOk own g then own else [(0, g)]

/-- FP32 rows as output bytes in a format, with the events of the final rounding (R338, R341). -/
def State.encodeRows (s : State) (f scale : Nat) (rows : List (List Nat)) : List Byte × Ev × State :=
  let outs := rows.map fun r => encodeVals f (f32 scale) (r.map fun c => (f32 c, false))
  let e : Ev := ⟨sumBy (·.sat) outs, sumBy (·.flush) outs, sumBy (·.nan) outs⟩
  (outs.flatMap (·.bytes), e, s.fmtOut f e.sat e.flush e.nan)

/-- The FP32 events of a job's internal roundings, in the FP32 format entries (R341). -/
def State.fp32Ev (s : State) (e : Ev) : State := s.fmtOut 0 e.sat e.flush 0

/-- The format under which a job of two operands counts (R445). -/
def widerFormat (d : List Nat) (fb : Nat) : Nat :=
  let r := fun (f : Nat) => (fmtRow f).2.2.2
  if r fb < r (dFa d) then dFa d else fb

/-- What an operator computes: output bytes, events, operations, their format, and the state its reads and counts left. -/
structure OpOut where
  data : List Byte
  ev : Ev
  fmt : Nat
  ops : Nat
  st : State

/-- GEMM (R332, R339, R340). -/
def opGemm (s : State) (j : Job) (shares : List Share) : OpOut :=
  let d := j.desc
  let m := dw d 10
  let n := dw d 11
  let k := dw d 12
  let inl := fun (i : Nat) => if bitAt (dw d 0) i then some j.inline else none
  let (a, e1, s) := s.operand (inl 22) (dAddr d 2) (dFa d) (dw d 13) m k
  let (b, e2, s) := s.operand (inl 23) (dAddr d 4) (dFb d) (dw d 14) n k
  let (c, s) := s.operandC d n
  let plan := gemmPlan j shares
  let wide := dFa d == 0
  let rows := a.map fun ra =>
    let cells := (b.zip (List.range n)).map fun p => dot wide (plan.getD (p.2 / 96) []) ra p.1
    let (r, e) := chainRow (stepCodes (dSteps d)) (dw d 16) (dw d 17) c (cells.map (·.1))
    (r, cells.foldl (fun (x : Ev) (y : Nat × Ev) => x.add y.2) e)
  let e3 := rows.foldl (fun (x : Ev) r => x.add r.2) ev0
  let s := s.fp32Ev e3
  let (data, e4, s) := s.encodeRows (dFo d) (dw d 15) (rows.map (·.1))
  let steps := (stepCodes (dSteps d)).length
  let s := s.inc (E.opcount_mill.nk 0 (dFa d)) (steps * m * n)
  ⟨data, ((e1.add e2).add e3).add e4, widerFormat d (dFb d), 2 * m * n * k, s⟩

/-- Elements of one head of one token in a page (R401): `v` is 0 for the key and 1 for the value. -/
def State.kvRow (s : State) (t page layer v head tok : Nat) : List Val :=
  let kv := s.get (E.seqtemplate_kv_heads.n t)
  let d := s.get (E.seqtemplate_head_dim.n t)
  let f := s.get (E.seqtemplate_kv_format.n t)
  let hb := headBlock d f
  let base := page + layer * (2 * kv * hb) + (v * kv + head) * hb
  let g := max 1 (granElems f)
  let lo := tok % 64 * d
  let g0 := lo / g
  let g1 := (lo + d - 1) / g
  let vs := (decodeBytes f (f32 one32) (s.memRead (base + 256 * g0) (256 * (g1 + 1 - g0)))).vs
  slice vs (lo - g0 * g) d

/-- The partial of a run of pages for one query row over tokens [lo, hi) (R335). -/
def State.attnShare (s : State) (j : Job) (slot kvHead : Nat) (q : List Val) (lo hi : Nat) (pages : List Nat) :
    Part1 × Ev :=
  let t := s.seqTmpl slot
  let (_, d, _, _) := s.seqShape slot
  let root := s.get (E.sequence_root.h slot)
  pages.foldl (fun (acc : Part1 × Ev) p =>
    match s.pageBuf root p with
    | none => acc
    | some pg =>
      let toks := ((List.range 64).map (· + 64 * p)).filter (fun x => decide (lo ≤ x ∧ x < hi))
      if toks = [] then acc
      else
        let layer := dw j.desc 12
        let kv := toks.map fun x => (x % 64, s.kvRow t pg layer 0 kvHead x, s.kvRow t pg layer 1 kvHead x)
        let (pp, e1) := pagePart (dw j.desc 16) q kv d
        let (r, e2) := foldPart acc.1 pp
        (r, (acc.2.add e1).add e2)) (emptyPart d, ev0)

/-- One query row's merged result over its shares (R335): exact when pinned; else the shares of a die folded in order, then the
dies. -/
def State.attnRow (s : State) (j : Job) (slot kvHead : Nat) (q : List Val) (lo hi : Nat) (plan : List (Nat × List (List Nat))) :
    Merged :=
  let (_, d, _, _) := s.seqShape slot
  let ps := plan.map fun die => die.2.map fun pages => s.attnShare j slot kvHead q lo hi pages
  let e := ps.flatten.foldl (fun (x : Ev) p => x.add p.2) ev0
  if j.pinned then
    let r := mergeExact d (ps.flatten.map fun p => (p.1.o.map f32, p.1.m, p.1.l))
    { r with ev := r.ev.add e }
  else
    let dies := ps.map fun l => foldParts d (l.map (·.1))
    let e := dies.foldl (fun (x : Ev) p => x.add p.2) e
    let (r, e2) := foldParts d (dies.map (·.1))
    ⟨r.o.map fun c => (f32 c, false), r.m, r.l, 0, e.add e2⟩

/-- A job's reads of the pages of its plan, counted: the slices of its layer (R385, R401). -/
def State.countPages (s : State) (j : Job) (slot : Nat) (plan : List (Nat × List (List Nat))) : State :=
  (plan.flatMap fun die => die.2.flatten).foldl (fun st p =>
    match s.pageSlice slot (dw j.desc 12) p with
    | some (a, len) => st.countRead a len
    | none => st) s

/-- Attention-decode (R333): the LSE-merge layout of R278, padded with empty heads. -/
def opDecode (s : State) (j : Job) (shares : List Share) : OpOut :=
  let d := j.desc
  match j.seq with
  | none => ⟨[], ev0, 0, 0, s⟩
  | some slot =>
    let (kv, hd, kf, _) := s.seqShape slot
    let hq := qHeads d
    let (a, e1, s) := s.operand (if bitAt (dw d 0) 22 then some j.inline else none) (dAddr d 2) (dFa d) (dw d 13) hq hd
    let (lo, hi) := j.tok
    let plan := s.attnPlan j slot lo hi shares
    let rs := ((List.range hq).zip a).map fun p => s.attnRow j slot (p.1 / max 1 (hq / max 1 kv)) p.2 lo hi plan
    let s := s.countPages j slot plan
    let e2 := rs.foldl (fun (x : Ev) r => x.add r.ev) ev0
    let s := s.fp32Ev e2
    let outs := rs.map fun r => encodeVals (dFo d) (f32 one32) r.o
    let e3 : Ev := ⟨sumBy (·.sat) outs, sumBy (·.flush) outs, sumBy (·.nan) outs⟩
    let s := s.fmtOut (dFo d) e3.sat e3.flush e3.nan
    let b := (fmtRow (dFo d)).1 / 8
    let vec := fun (i : Nat) => ((outs.map (·.bytes)).getD i []).take (hd * b)
    let grp := fun (g : Nat) =>
      (List.range 32).flatMap (fun i => padTo (hd * b) (vec (32 * g + i))) ++
      (List.range 32).flatMap (fun i => match rs[32 * g + i]? with
        | some r => leBytes 4 r.m ++ leBytes 4 r.l
        | none => leBytes 4 negInf32 ++ leBytes 4 0)
    ⟨(List.range (ceilDiv hq 32)).flatMap grp, (e1.add e2).add e3, widerFormat d kf, 2 * (2 * hq * hd * (hi - lo)), s⟩

/-- Attention-chunk (R336): query i attends tokens 0 to p + i; final outputs, then the chain. DEDUCED (log 107). -/
def opChunk (s : State) (j : Job) (shares : List Share) : OpOut :=
  let d := j.desc
  match j.seq with
  | none => ⟨[], ev0, 0, 0, s⟩
  | some slot =>
    let (kv, hd, kf, _) := s.seqShape slot
    let hq := max 1 (qHeads d)
    let m := dw d 10
    let p := dw d 19
    let (a, e1, s) := s.operand (if bitAt (dw d 0) 22 then some j.inline else none) (dAddr d 2) (dFa d) (dw d 13) (m * hq) hd
    let plan := s.attnPlan j slot 0 (p + m) shares
    let rs := ((List.range (m * hq)).zip a).map fun x =>
      s.attnRow j slot (x.1 % hq / max 1 (hq / max 1 kv)) x.2 0 (p + x.1 / hq + 1) plan
    let s := s.countPages j slot plan
    let (c, s) := s.operandC d hd
    let rows := rs.map fun r =>
      let q := r.o.map fun v => rndVal fp32 v.1 v.2
      let (row, e) := chainRow (stepCodes (dSteps d)) (dw d 16) (dw d 17) c (q.map (·.code))
      (row, (q.foldl (fun (x : Ev) (y : Rnd) => x.add y.ev) e).add r.ev)
    let e2 := rows.foldl (fun (x : Ev) r => x.add r.2) ev0
    let s := s.fp32Ev e2
    let (data, e3, s) := s.encodeRows (dFo d) (dw d 15) (rows.map (·.1))
    let toks := sumBy (fun i => p + i + 1) (List.range m)
    ⟨data, (e1.add e2).add e3, widerFormat d kf, 2 * (2 * hq * hd * toks), s⟩

/-- The k largest of a row's logits, ties to the lower expert; none where a logit is a NaN (R337). -/
def topExperts (k : Nat) (ls : List Nat) : List Nat :=
  if ls.any isNan32 then []
  else
    let idx := List.range ls.length
    let lt := fun (a b : Nat) => (f32 (ls.getD b 0)).lt (f32 (ls.getD a 0))
    (sortBy lt idx).take k

/-- The slots claimed so far, per expert how many, and the events of the weights. -/
structure RouteAcc where
  used : NMap Nat
  bytes : List Byte
  lost : Nat
  nan : Nat
  ev : Ev

/-- One row's entries of the dispatch map (R254, R337). -/
def routeRow (topk per c : Nat) (ls : List Nat) (acc : RouteAcc) : RouteAcc :=
  let es := topExperts topk ls
  let mx := match es with | e :: _ => ls.getD e 0 | [] => 0
  let w := fun (e : Nat) => expDiff (ls.getD e 0) mx
  let asc := sortBy (fun a b => decide (a < b)) es
  let (sum, e1) := sum32 (asc.map fun e => (w e).1)
  let none12 := leBytes 2 0xFFFF ++ leBytes 10 0
  let evs := es.foldl (fun (x : Ev) e => (x.add (w e).2).add (div32 (w e).1 sum).ev) e1
  let acc := { acc with ev := acc.ev.add evs }
  let acc := if es = [] ∧ ls.any isNan32 then { acc with nan := acc.nan + 1 } else acc
  let step := fun (a : RouteAcc) (e : Nat) =>
    let r := mgetD a.used e 0
    if c ≤ r then { a with bytes := a.bytes ++ none12, lost := a.lost + 1 }
    else { a with
      used := mput a.used e (r + 1)
      bytes := a.bytes ++ leBytes 2 (e / per) ++ leBytes 2 0 ++ leBytes 4 (e % per * c + r) ++ leBytes 4 (div32 (w e).1 sum).code }
  let acc := es.foldl step acc
  { acc with bytes := acc.bytes ++ (List.replicate (topk - es.length) none12).flatMap id }

/-- Expert router (R337): the dispatch map as one commit, and the logits where c_addr is not 0. -/
def opRouter (s : State) (j : Job) : OpOut :=
  let d := j.desc
  let slot := hIdx (dw d 18)
  let m := dw d 10
  let n := dw d 11
  let k := dw d 12
  let inl := fun (i : Nat) => if bitAt (dw d 0) i then some j.inline else none
  let (a, e1, s) := s.operand (inl 22) (dAddr d 2) (dFa d) (dw d 13) m k
  let (b, e2, s) := s.operand (inl 23) (dAddr d 4) (dFb d) (dw d 14) n k
  let cells := a.map fun ra => b.map fun rb => dot (dFa d == 0) [(0, ceilDiv k 32)] ra rb
  let e3 := cells.foldl (fun (x : Ev) r => r.foldl (fun (y : Ev) c => y.add c.2) x) ev0
  let logits := cells.map fun r => r.map (·.1)
  let s := if dAddr d 6 = 0 then s
    else s.store (dAddr d 6) (logits.flatMap fun r => padTo (rowBytes 0 n) (r.flatMap fun c => leBytes 4 c))
  let per := max 1 (n / max 1 (s.memberCount slot))
  let cap := s.get (E.collective_capacity.h slot) / per
  let r := logits.foldl (fun acc ls => routeRow (s.get (E.collective_topk.h slot)) per cap ls acc)
    (⟨[], [], 0, 0, ev0⟩ : RouteAcc)
  let e3 := e3.add r.ev
  let s := s.fp32Ev e3
  let s := s.inc E.mill_router_overflow.s r.lost
  let s := s.later (.routerMap slot r.bytes)
  ⟨[], ((e1.add e2).add e3).add ⟨0, 0, r.nan⟩, widerFormat d (dFb d), 2 * m * n * k, s⟩

/-- Epilogue (R338): the chain on rows of FP32 values, then the format. -/
def opEpilogue (s : State) (j : Job) : OpOut :=
  let d := j.desc
  let m := dw d 10
  let n := dw d 11
  let src : List (List Nat) × Ev × State :=
    match j.epi with
    | some _ => (chunks (max 1 n) (j.vals.length + 1) j.vals, ev0, s)
    | none =>
      let (a, e, s) := s.operand (if bitAt (dw d 0) 22 then some j.inline else none) (dAddr d 2) (dFa d) (dw d 13) m n
      let rs : List (List Rnd) := a.map fun (r : List Val) => r.map fun v => rndVal fp32 v false
      let er := rs.foldl (fun (x : Ev) r => r.foldl (fun (y : Ev) (c : Rnd) => y.add c.ev) x) ev0
      (rs.map fun r => r.map (·.code), e.add er, s.fp32Ev er)
  let (rows, e1, s) := src
  let (c, s) := s.operandC d n
  let out := rows.map fun r => chainRow (stepCodes (dSteps d)) (dw d 16) (dw d 17) c r
  let e2 := out.foldl (fun (x : Ev) r => x.add r.2) ev0
  let s := s.fp32Ev e2
  let (data, e3, s) := s.encodeRows (dFo d) (dw d 15) (out.map (·.1))
  ⟨data, (e1.add e2).add e3, dFa d, (stepCodes (dSteps d)).length * m * n, s⟩

/-- Convert (R307, R308, R338). -/
def opConvert (s : State) (j : Job) : OpOut :=
  let d := j.desc
  let m := dw d 10
  let n := dw d 11
  match j.epi with
  | some _ =>
    let rows := chunks (max 1 n) (j.vals.length + 1) j.vals
    let (data, e, s) := s.encodeRows (dFo d) (dw d 15) rows
    ⟨data, e, dFa d, m * n, s⟩
  | none =>
    let inl := if bitAt (dw d 0) 22 then some j.inline else none
    if dFa d = dFo d then
      let len := m * rowBytes (dFa d) n
      let (b, s) := match inl with | some p => (slice p (dAddr d 2) len, s) | none => s.load (dAddr d 2) len
      ⟨b, ev0, dFa d, m * n, s⟩
    else
      let (a, e1, s) := s.operand inl (dAddr d 2) (dFa d) (dw d 13) m n
      let outs := a.map fun r => encodeVals (dFo d) (f32 (dw d 15)) (r.map fun v => (v, false))
      let e2 : Ev := ⟨sumBy (·.sat) outs, sumBy (·.flush) outs, sumBy (·.nan) outs⟩
      ⟨outs.flatMap (·.bytes), e1.add e2, dFa d, m * n, s.fmtOut (dFo d) e2.sat e2.flush e2.nan⟩

/-- A job's operator. -/
def runOp (s : State) (j : Job) (shares : List Share) : OpOut :=
  match dOp j.desc with
  | 0 => opGemm s j shares
  | 1 => opDecode s j shares
  | 2 => opChunk s j shares
  | 3 => opRouter s j
  | 4 => opEpilogue s j
  | _ => opConvert s j

/-- The ranges that an accepted job reads or writes. -/
def State.rangesOf (s : State) (j : Job) : List (Nat × Nat × Nat) := s.jobRanges (checkedDesc j) j.seq j.tok

/-- MILL_JOB_COMPLETE (R330): the shares finish; the output is written, counts are added, results are emitted. It waits for what
the job reads from other dies to cross (R22) and for a stack in retention (R527); a job whose memory is down ends with 0x0C
(R377, R381). `shares` is the split of an unpinned job and the order in which its partials became ready; `cycles` the busy
cycles of each Mill. DEDUCED (log 106). -/
def millJobComplete (s : State) (id : Nat) (shares : List Share) (cycles : Nat) : State :=
  match s.mill.jobs.find? (fun j => j.id = id ∧ j.state = 1) with
  | none => s
  | some j =>
    let rs := s.rangesOf j
    if s.hauling id ∨ rs.any (fun r => s.retained r.1 r.2.1) then s
    else if rs.any (fun r => s.diesDown r.1 r.2.1 || s.cxlDown r.1 r.2.1) then s.abortJob j 0x0C
    else
    let s := j.mills.foldl (fun st x => st.inc (E.mill_busy_cycles.n x) cycles) s
    let o := runOp s j shares
    let s := if j.epi.isSome || bitAt (dw j.desc 0) 21 || dOp j.desc == 3 then o.st else o.st.store (dAddr j.desc 8) o.data
    s.endJob j 0 o.ev o.data o.data.length o.fmt o.ops

/-- MILL_JOB_TIMEOUT (R328). -/
def millJobTimeout (s : State) (id : Nat) : State :=
  let t := s.get E.mill_job_timeout.s
  match s.mill.jobs.find? (fun j => j.id = id) with
  | none => s
  | some j => if t = 0 ∨ s.ft < j.at_ + t then s else s.abortJob j 0x0A

/-- Jobs that meet a test end with a status. -/
def State.abortJobs (s : State) (p : Job → Bool) (status : Nat) : State :=
  (s.mill.jobs.filter p).foldl (fun st j => st.abortJob j status) s

/-- A Mill fails (R347, R546): the Mill is failed, and the repair record keeps it retired; its jobs end with 0x0B, queued pinned
jobs that need it end with 0x0C. -/
def millFailure (s : State) (x : Nat) (ecc : Bool) : State :=
  if s.get (E.mill_state.n x) = 3 ∨ s.get (E.mill_logical.n x) = 0xFFFF then s
  else
    let s := if ecc then s.inc (E.mill_ecc_uncorrectable.n x) 1 else s
    let s := (s.set (E.mill_state.n x) 3).repairNote
    let s := s.abortJobs (fun j => j.mills.contains x) 0x0B
    let s := s.abortJobs (fun j => j.state == 0 && j.pinned &&
      ((s.pinSet (max 1 (dPins j.desc))).getD []).contains x) 0x0C
    s.raise (384 + x / 68)

/-- MILL_FAILURE (R346, R347): a single-bit error in a Mill's SRAM is corrected and counted; any other error fails the Mill. A
row that errs is noted (R549). -/
def millStruck (s : State) (x : Nat) (what : MillError) : State :=
  match what with
  | .corrected row =>
    if s.get (E.mill_logical.n x) = 0xFFFF then s else (s.inc (E.mill_ecc_corrected.n x) 1).rowError (millRow x row)
  | .doubleBit row => (millFailure s x true).rowPending (millRow x row)
  | .selfCheck => millFailure s x false

end Sys2Proof.Machine
end

