-- ==== Sys2Proof/Machine/Confluence.lean ====
section
/-!
DEFINITION. Confluence collectives (spec/09_confluence_collectives.md, R225 to R263) with the reduction arithmetic of
spec/10_reduction_arithmetic.md (R264 to R292): arming, contributions, completion, results, end markers, peers, laggards.
-/

namespace Sys2Proof.Machine

/-! ### Run-time state -/

/-- A collective with no run-time state. -/
def collBlank : CollRt := ⟨[], [], 0, 0, 0, [], [], 0, [], [], [], [], []⟩

/-- The run-time state of collective i. -/
def State.crt (s : State) (i : Nat) : CollRt := mgetD s.coll i collBlank

/-- The run-time state of collective i changed. -/
def State.modColl (s : State) (i : Nat) (f : CollRt → CollRt) : State := { s with coll := mput s.coll i (f (s.crt i)) }

/-- A begun segment of collective i changed. -/
def State.modSeg (s : State) (i idx : Nat) (f : Seg → Seg) : State :=
  s.modColl i fun r => { r with segs := r.segs.map fun g => if g.idx = idx then f g else g }

/-- A begun segment. -/
def State.seg? (s : State) (i idx : Nat) : Option Seg := (s.crt i).segs.find? (fun g => g.idx = idx)

/-- Type and operator of a collective. -/
def State.collTy (s : State) (i : Nat) : Nat := s.get (E.collective_type.h i)
/-- Operator. -/
def State.collOp (s : State) (i : Nat) : Nat := s.get (E.collective_operator.h i)
/-- Input format. -/
def State.collIn (s : State) (i : Nat) : Nat := s.get (E.collective_in_format.h i)
/-- Output format. -/
def State.collOut (s : State) (i : Nat) : Nat := s.get (E.collective_out_format.h i)

/-- Does the type reduce (R290)? -/
def reducing (ty : Nat) : Bool := ty == 0 || ty == 1 || ty == 4 || ty == 7

/-- May a type take an operator (R225, R226)? DEDUCED (log 90). -/
def collPairOk (ty op : Nat) : Bool :=
  match ty with
  | 0 => decide (1 ≤ op ∧ op ≤ 5)
  | 1 => decide (1 ≤ op ∧ op ≤ 4)
  | 4 => decide (1 ≤ op ∧ op ≤ 5)
  | 7 => op == 4 || op == 1
  | _ => op == 0

/-- May an operator take a format pair (R264)? -/
def collFmtOk (op fi fo : Nat) : Bool :=
  if op = 0 then decide (fi ≤ 9 ∧ fo ≤ 9)
  else if op = 5 then decide (fi ≤ 2 ∧ fo ≤ 2)
  else decide (fi ≤ 7 ∧ fo ≤ 7)

/-- Does the collective run in exact mode (R244, R432)? -/
def State.collExact (s : State) (i : Nat) : Bool := s.weirPart (s.partOf 1 i) || s.get (E.collective_mode.h i) == 1

/-- The member ports, by position (R227). DEDUCED (log 91). -/
def State.collMembers (s : State) (i : Nat) : List Nat :=
  (List.range (s.memberCount i)).map fun j => s.domLe E.collective_members 0 i (2 * j) 2

/-- The peer records (R245): bundle, member count, handle. -/
def State.collPeers (s : State) (i : Nat) : List (Nat × Nat × Nat) :=
  if s.collTy i = 6 ∨ s.collTy i = 7 then []
  else
    ((List.range 15).map fun j =>
      (s.domLe E.collective_peers 0 i (8 * j) 2, s.domLe E.collective_peers 0 i (8 * j + 2) 2,
       s.domLe E.collective_peers 0 i (8 * j + 4) 4)).takeWhile fun p => p.1 != 0xFFFF

/-- The crossbar port of a collective's engine (R21). -/
def State.collPort (s : State) (i : Nat) : Nat := 64 + s.get (E.collective_engine.h i)

/-! ### Segments (R236) -/

/-- The vector, or the share that is cut into segments. -/
def State.collShare (s : State) (i : Nat) : Nat :=
  let len := s.get (E.collective_length.h i)
  if s.collTy i = 1 ∨ s.collTy i = 2 then len / max 1 (s.memberCount i) else len

/-- The path that a length takes. -/
def State.collPathOf (s : State) (i : Nat) : Nat :=
  if 5 ≤ s.collTy i ∨ s.get (E.collective_length.h i) ≤ s.get (E.collective_threshold.h i) then 0 else 1

/-- The input bytes of a full segment. -/
def State.fullSeg (s : State) (i : Nat) : Nat :=
  match s.collTy i with
  | 5 => 256
  | 6 => s.get (E.collective_rows.h i) * s.get (E.collective_row_bytes.h i)
  | 7 => s.get (E.collective_capacity.h i) * s.get (E.collective_row_bytes.h i)
  | _ => if s.collPathOf i = 0 then s.collShare i else min (s.get (E.collective_segment_size.h i)) (s.collShare i)

/-- Segments of one share. DEDUCED (log 93). -/
def State.perShare (s : State) (i : Nat) : Nat := if 5 ≤ s.collTy i then 1 else max 1 (ceilDiv (s.collShare i) (max 1 (s.fullSeg i)))

/-- Segments of a run. DEDUCED (log 93). -/
def State.segCount (s : State) (i : Nat) : Nat :=
  if s.collTy i = 1 ∨ s.collTy i = 2 then s.memberCount i * s.perShare i else s.perShare i

/-- The input bytes of segment idx. -/
def State.segBytes (s : State) (i idx : Nat) : Nat :=
  if 5 ≤ s.collTy i then s.fullSeg i
  else min (s.fullSeg i) (s.collShare i - idx % s.perShare i * s.fullSeg i)

/-- Elements in some bytes of a format's packed layout. DEDUCED (log 98). -/
def elemsIn (f bytes : Nat) : Nat := bytes / 256 * granElems f

/-- Bytes of one group of an LSE-merge vector in a format (R278). -/
def lseGroup (d f : Nat) : Nat := 32 * d * ((fmtRow f).1 / 8) + 256

/-- The head dimension. -/
def State.lseDim (s : State) (i : Nat) : Nat := s.get (E.collective_lse_dim.h i)

/-- Groups in some input bytes. -/
def State.lseGroups (s : State) (i bytes : Nat) : Nat := bytes / max 1 (lseGroup (s.lseDim i) (s.collIn i))

/-- The bytes that a segment of some input bytes takes in format f, as a result or an FP32 partial (R242, R247). -/
def State.bytesIn (s : State) (i bytes f : Nat) : Nat :=
  if s.collOp i = 5 then s.lseGroups i bytes * lseGroup (s.lseDim i) f else 256 * granules f (elemsIn (s.collIn i) bytes)

/-- The wider format of R285. DEDUCED (log 100). -/
def widerOf (f : Nat) : Option Nat :=
  if f = 3 ∨ f = 4 ∨ f = 5 then some 1 else if f = 2 then some 0 else none

/-- The position that owns a segment among the joined FN7s (R246, R247). -/
def State.ownerPos (s : State) (i idx : Nat) : Nat :=
  let p := (s.collPeers i).length
  if p = 0 then s.get (E.collective_position.h i)
  else if s.collPathOf i = 0 then 0 else idx % (p + 1)

/-- Does this FN7 own the segment? -/
def State.ownsSeg (s : State) (i idx : Nat) : Bool := s.ownerPos i idx == s.get (E.collective_position.h i)

/-- The peer record of the FN7 at position p: the records list the other FN7s in position order. -/
def State.peerAt (s : State) (i p : Nat) : Nat := if p < s.get (E.collective_position.h i) then p else p - 1

/-- Do exact contributions travel unreduced to the segment's owner (R247)? DEDUCED (log 95). -/
def State.relays (s : State) (i : Nat) : Bool :=
  s.collExact i && reducing (s.collTy i) && s.collPathOf i == 1 && !(s.collPeers i).isEmpty

/-- The member that owns a segment of an all-gather, or the root of a broadcast. -/
def State.segOwner (s : State) (i idx : Nat) : Nat :=
  if s.collTy i = 3 then s.get (E.collective_root.h i) else idx / s.perShare i

/-- The contributors of a segment and the granules that each owes. Contributors are positions, and 1,024 + j for peer j. -/
def State.needs (s : State) (i idx : Nat) : List (Nat × Nat) :=
  let n := s.segBytes i idx / 256
  let ms := List.range (s.memberCount i)
  match s.collTy i with
  | 2 => [(s.segOwner i idx, n)]
  | 3 => [(s.segOwner i idx, n)]
  | 6 => ms.map fun m => (m, n)
  | 7 =>
    let g := s.get (E.collective_row_bytes.h i) / 256
    ms.map fun m => (m, ((s.crt i).inv.filter (fun e => e.dpos = m)).length * g)
  | _ =>
    let ps := s.collPeers i
    let peers := if !s.ownsSeg i idx then [] else ((List.range ps.length).zip ps).map fun p =>
      (1024 + p.1, if s.collTy i = 5 ∨ s.collPathOf i = 0 then n
        else if s.relays i then n * p.2.2.1 else s.bytesIn i (s.segBytes i idx) 0 / 256)
    ms.map (fun m => (m, n)) ++ peers

/-- Has every contributor delivered? -/
def State.segReady (s : State) (i : Nat) (g : Seg) : Bool := (s.needs i g.idx).all fun p => decide (p.2 ≤ mgetD g.n p.1 0)

/-- The lowest segment index neither completed nor aborted. -/
def lowestOpen (ended : NMap Nat) : Nat := ended.foldl (fun n p => if p.1 = n then n + 1 else n) 0

/-- The limit that members are given (R240, R248). -/
def State.limitOf (s : State) (i : Nat) : Nat :=
  let r := s.crt i
  r.peerLim.foldl (fun l p => min l p.2) (lowestOpen r.ended + s.get (E.collective_window.h i))

/-- `collective.limit` follows. -/
def State.limitSync (s : State) (i : Nat) : State := s.set (E.collective_limit.h i) (s.limitOf i)

/-! ### Arming (R230 to R235, R267, R285) -/

/-- Contributors per segment, for the slot size (R234, R247). -/
def State.slotC (s : State) (i : Nat) : Nat :=
  let m := s.memberCount i
  let ps := s.collPeers i
  if ps = [] then m
  else if s.collPathOf i = 0 then (if s.get (E.collective_position.h i) = 0 then m + ps.length else m)
  else if s.relays i then m + sumBy (fun p => p.2.1) ps else m + ps.length

/-- Slot bytes (R234, R281). -/
def State.slotBytes (s : State) (i : Nat) : Nat :=
  let n := s.fullSeg i
  let ty := s.collTy i
  let m := s.memberCount i
  let rows := s.get (E.collective_rows.h i)
  let topk := s.get (E.collective_topk.h i)
  if ty = 2 ∨ ty = 3 then n
  else if ty = 5 then 0
  else if ty = 6 then m * rows * topk * 12
  else if ty = 7 then m * rows * s.get (E.collective_row_bytes.h i) * 2 + m * s.get (E.collective_capacity.h i) * topk * 12
  else
    let e := elemsIn (s.collIn i) n
    let d := s.lseDim i
    let a := if s.collOp i = 5 then s.lseGroups i n * (if s.collExact i then 320 * d + 448 else 128 * d + 256)
      else if s.collExact i then 10 * e else 4 * e
    s.slotC i * n + a

/-- The bytes of a Basin (R234). -/
def State.basinNeed (s : State) (i : Nat) : Nat :=
  if 5 ≤ s.collTy i then s.slotBytes i else s.get (E.collective_window.h i) * s.slotBytes i

/-- Does a live handle of a type belong to the partition of collective i? -/
def State.sameePart (s : State) (i t h : Nat) : Bool :=
  match s.liveH t h with | some r => r.part == s.partOf 1 i | none => false

/-- The 0x06 tests that stand before the Basin test: scales (R267), guard-widening (R285), formats (R264, R255), LSE
layout (R278), epilogue (R249, R326), barrier scope (R252), operator (R226) and segment count (R236). DEDUCED (log 101). -/
def State.armTests (s : State) (i : Nat) : Bool :=
  let ty := s.collTy i
  let op := s.collOp i
  let fi := s.collIn i
  let fo := s.collOut i
  let nan := fun (c : Nat) => c / 2 ^ 23 % 256 == 255
  let epi := s.get (E.collective_epilogue.h i)
  let d := s.tmplDesc (hIdx epi)
  let g := lseGroup (s.lseDim i) fi
  let segs := s.segCount i
  let last := s.collShare i - (s.perShare i - 1) * s.fullSeg i
  collPairOk ty op && collFmtOk op fi fo &&
  (fi != 5 || op == 0 || scaleOk (s.get (E.collective_in_scale.h i))) &&
  (fo != 5 || op == 0 || scaleOk (s.get (E.collective_out_scale.h i))) &&
  (op != 4 || !nan (s.get (E.collective_scale.h i))) &&
  (!s.getB (E.collective_widen.h i) || ((widerOf fo).isSome && op != 5 && op != 2 && op != 3 && epi == 0)) &&
  (op != 0 || ty == 5 || fi == fo) &&
  (op != 5 || (s.get (E.collective_length.h i) % g == 0 &&
    (s.collPathOf i == 0 || s.get (E.collective_segment_size.h i) % g == 0))) &&
  (epi == 0 || (op != 5 && (dOp d == 4 || dOp d == 5) && dFa d == 0 && dFo d == fo &&
    elemsIn fi (s.fullSeg i) % max 1 (dw d 11) == 0 && elemsIn fi last % max 1 (dw d 11) == 0)) &&
  (s.get (E.collective_barrier_scope.h i) == 0 || (ty == 5 && (s.collPeers i).isEmpty)) &&
  decide (segs ≤ 16777215)

/-- The first arm row that applies before the Basin test (R230). DEDUCED (log 90, 93). -/
def State.armCheck (s : State) (i : Nat) : Nat :=
  let ty := s.collTy i
  let m := s.memberCount i
  let len := s.get (E.collective_length.h i)
  let epi := s.get (E.collective_epilogue.h i)
  let rb := s.get (E.collective_row_bytes.h i)
  let up := fun (n : Nat) => s.get (E.port_state.n n) == 2 || s.get (E.port_state.n n) == 3
  if m = 0 ∨ (ty < 5 ∧ (len = 0 ∨ len % 256 ≠ 0)) then 0x06
  else if (ty = 3 ∨ ty = 4) ∧ m ≤ s.get (E.collective_root.h i) then 0x06
  else if (ty = 1 ∨ ty = 2) ∧ (len % m ≠ 0 ∨ len / m % 256 ≠ 0) then 0x06
  else if 6 ≤ ty ∧ (rb % 256 ≠ 0 ∨ rb = 0 ∨ s.get (E.collective_rows.h i) = 0) then 0x06
  else
    let p := s.get (E.collective_pair.h i)
    let j := hIdx p
    if ty = 7 ∧ !(s.sameePart i 1 p && s.collTy j == 6 && s.memberCount j == m &&
        s.get (E.collective_rows.h j) == s.get (E.collective_rows.h i) &&
        s.get (E.collective_topk.h j) == s.get (E.collective_topk.h i) && s.get (E.collective_row_bytes.h j) == rb) then 0x03
    else if epi ≠ 0 ∧ !s.sameePart i 10 epi then 0x03
    else if (s.collMembers i).any (fun n => !up n) ∨
        (s.collPeers i).any (fun q => (s.members q.1).all (fun x => !up x.2)) then 0x0C
    else if !s.armTests i then 0x06 else 0

/-- n buffers taken from a pool; what was taken goes back where one is missing (R235). DEDUCED (log 97). -/
def takeBuffers (s : State) (pool n : Nat) : Option (List (Nat × Nat)) × State :=
  let (ok, l, s) := (List.range n).foldl (fun (acc : Bool × List (Nat × Nat) × State) _ =>
    if !acc.1 then acc
    else match poolTake acc.2.2 pool with
      | (.ok a, st) => (true, (pool, a) :: acc.2.1, st)
      | (.error _, st) => (false, acc.2.1, st)) (true, [], s)
  if ok then (some l, s) else (none, l.foldl (fun st x => (poolFree st x.1 x.2).2) s)

/-- The Basin of collective i: granules of the region and overflow buffers (R233 to R235). None: refused. DEDUCED (log 97). -/
def allocBasin (s : State) (i : Nat) : Option (Nat × List (Nat × Nat)) × State :=
  let free := s.get E.confluence_basin_free.s
  let need := ceilDiv (s.basinNeed i) 65536
  if need ≤ free then (some (need, []), s)
  else
    let h := s.get (E.collective_overflow_pool.h i)
    let slot := max 1 (s.slotBytes i)
    if 5 ≤ s.collTy i ∨ h = 0 ∨ !s.sameePart i 3 h then (none, s)
    else
      let k := free * 65536 / slot
      let miss := s.get (E.collective_window.h i) - k
      let per := ceilDiv slot (max 1 (s.get (E.pool_buffer_size.h (hIdx h))))
      match takeBuffers s (hIdx h) (miss * per) with
      | (some l, s) => (some (ceilDiv (k * slot) 65536, l), s)
      | (none, s) => (none, s)

/-- The limits held for the peers at the start of a run (R248). -/
def State.startLimits (s : State) (i : Nat) : NMap Nat :=
  (List.range (s.collPeers i).length).map fun j => (j, s.get (E.collective_window.h i))

/-- COLLECTIVE_ARM (R230). -/
def collectiveArm (s : State) (i v : Nat) : Nat × State :=
  if v = 0 then (0, s)
  else if s.get (E.collective_state.h i) ≠ 0 then (0x0C, s)
  else
    let c := s.armCheck i
    if c ≠ 0 then (c, s)
    else
      match allocBasin s i with
      | (none, s) => (0x02, s)
      | (some (g, bufs), s) =>
        let s := s.sub E.confluence_basin_free.s g
        let held := 2048 - s.get E.confluence_basin_free.s
        let s := if s.get E.confluence_basin_peak.s < held then s.set E.confluence_basin_peak.s held else s
        let s := s.set (E.collective_path.h i) (s.collPathOf i)
        let s := s.set (E.collective_segments.h i) (s.segCount i)
        let s := s.set (E.collective_slot_bytes.h i) (if 6 ≤ s.collTy i then 0 else s.slotBytes i)
        let s := s.set (E.collective_basin_bytes.h i) (g * 65536)
        let wide := if s.getB (E.collective_widen.h i) then (widerOf (s.collOut i)).getD (s.collOut i) else s.collOut i
        let stride := if 5 ≤ s.collTy i then 0 else if s.collOp i = 0 then s.fullSeg i else s.bytesIn i (s.fullSeg i) wide
        let s := s.set (E.collective_result_stride.h i) stride
        let s := s.modColl i fun _ => { collBlank with gran := g, overBufs := bufs, peerLim := s.startLimits i }
        let s := s.limitSync i
        let s := s.hset (E.collective_state.h i) 1 i 1
        let epi := s.get (E.collective_epilogue.h i)
        (0, if epi = 0 then s else s.tmplSync (hIdx epi))

/-- The Basin goes back (R233), and what the run held is forgotten. DEDUCED (log 99). -/
def collRelease (s : State) (i : Nat) : State :=
  let r := s.crt i
  let s := s.add E.confluence_basin_free.s r.gran
  let s := r.overBufs.foldl (fun st x => (poolFree st x.1 x.2).2) s
  let s := { s with coll := mdel s.coll i }.dropEpilogues i fun _ => true
  let epi := s.get (E.collective_epilogue.h i)
  if epi = 0 then s else s.tmplSync (hIdx epi)

/-- COLLECTIVE_DISARM (R229): nothing in Created. DEDUCED (log 92). -/
def collectiveDisarm (s : State) (i v : Nat) : Nat × State :=
  if v = 0 then (0, s)
  else if s.get (E.collective_state.h i) = 0 then (0, s)
  else if s.get (E.collective_state.h i) ≠ 1 then (0x0C, s)
  else (0, collRelease (s.hset (E.collective_state.h i) 1 i 0) i)

/-- The engines that may serve a partition (R431). -/
def State.enginesFor (s : State) (part : Nat) : List Nat :=
  (List.range 8).filter fun e => bitAt (s.get E.weir_engines.s) e == s.weirPart part

/-- The engine that a CREATE assigns (R232, R431). -/
def State.engineFor (s : State) (part : Nat) : Option Nat :=
  minBy? (fun e => s.get (E.confluence_engine_handles.k e)) (s.enginesFor part)

/-! ### Results (R241 to R243) -/

/-- The segment word of the current run (R237). -/
def State.segWord (s : State) (i idx : Nat) : Nat := s.get (E.collective_run.h i) % 256 * 2 ^ 24 + idx

/-- The header that results and relays of a collective share (R242). -/
def State.collHdr (s : State) (i kind handle idx : Nat) : Rill :=
  { blankRill kind (s.get (E.collective_result_class.h i)) (s.partOf 1 i) with
    lifetime := s.get E.rill_origin_lifetime.s, hopCount := 1, handle := handle, segment := s.segWord i idx
    layer := s.get (E.collective_layer_id.h i), operator := s.get (E.collective_op_id.h i) }

/-- A result packet to the member at position m (R242), a copy of the stored packet `store`, or of none (R177). -/
def State.resultTo (s : State) (store i idx off fmt status : Nat) (bytes : List Byte) (w8 : Option Nat) (m : Nat) : State :=
  match (s.collMembers i)[m]? with
  | none => s
  | some n =>
    let h := { s.collHdr i 5 (s.wordOf 1 i) idx with
      hopPtr := 1, length := bytes.length, w8 := w8.getD off, w9 := s.limitOf i % 65536, w10 := fmt + status * 256
      route := [(s.bundleOf n).getD 0, 0, 0, 0] }
    let p := mkPkt (.rill h bytes) (s.collPort i) 0xFFFF 8 ((s.bundleOf n).getD 0) (rillCells h) s.ft
    s.placePort { p with store := store } n h.cls

/-- A packet to peer j (R245). -/
def State.toPeer (s : State) (i j kind idx off w9 w10 : Nat) (bytes : List Byte) : State :=
  match (s.collPeers i)[j]? with
  | none => s
  | some p =>
    let h := { s.collHdr i kind p.2.2 idx with w8 := off, w9 := w9, w10 := w10, route := [p.1, 0, 0, 0] }
    s.originate (s.collPort i) h bytes

/-- Bytes in packets of up to 4,096 with their offsets; one empty packet where there are none. -/
def pieces (off : Nat) (bytes : List Byte) : List (Nat × List Byte) :=
  if bytes = [] then [(off, [])]
  else ((List.range (bytes.length / 4096 + 1)).zip (chunks 4096 (bytes.length + 1) bytes)).map fun p => (off + 4096 * p.1, p.2)

/-- The members that receive data of a segment (R225). DEDUCED (log 95). -/
def State.receivers (s : State) (i idx : Nat) : List Nat :=
  let ms := List.range (s.memberCount i)
  match s.collTy i with
  | 1 => [idx / s.perShare i]
  | 3 => ms.filter (· != s.get (E.collective_root.h i))
  | 4 => [s.get (E.collective_root.h i)]
  | 7 => []
  | 6 => []
  | _ => ms

/-- The members that contribute to a segment. -/
def State.contributors (s : State) (i idx : Nat) : List Nat :=
  if s.collTy i = 2 ∨ s.collTy i = 3 then [s.segOwner i idx] else List.range (s.memberCount i)

/-- A result to every receiver, and where this FN7 owns the segment to every peer. DEDUCED (log 95). -/
def State.multicast (s : State) (i idx off fmt status : Nat) (bytes : List Byte) (peers : Bool) : State :=
  let s := (pieces off bytes).foldl (fun st p =>
    let (store, st) := st.freshStore
    (st.receivers i idx).foldl (fun st2 m => st2.resultTo store i idx p.1 fmt status p.2 none m) st) s
  if !peers then s
  else (pieces off bytes).foldl (fun st p =>
    (List.range (st.collPeers i).length).foldl (fun st2 j =>
      st2.toPeer i j 5 idx p.1 (st2.limitOf i % 65536) (fmt + status * 256) p.2) st) s

/-- Contributing members that receive no data get the new limit (R241). DEDUCED (log 95). -/
def State.limitNotes (s : State) (i idx fmt status : Nat) : State :=
  let rs := s.receivers i idx
  if 5 ≤ s.collTy i then s
  else ((s.contributors i idx).filter (fun m => !rs.contains m)).foldl (fun st m => st.resultTo 0 i idx 0 fmt status [] none m) s

/-- Largest skew of a segment and the position that arrived last, ties to the lowest (R257). -/
def segSkew (g : Seg) : Nat × Nat :=
  let l := g.last.filter (fun p => decide (p.1 < 1024))
  match maxBy? (fun p => p.2) l with
  | some p => (p.2 - g.first, p.1)
  | none => (0, 0)

/-- A segment ends (R239 to R243): it is recorded, its slot is free, the limit follows. -/
def State.endSeg (s : State) (i : Nat) (g : Seg) (status : Nat) : State :=
  let (sk, pos) := segSkew g
  let done := status != 0x0B && status != 0x0D && !g.last.isEmpty
  let s := s.modColl i fun r => { r with
    segs := r.segs.filter (fun x => x.idx != g.idx)
    ended := mput r.ended g.idx status
    skewMax := if done then max r.skewMax sk else r.skewMax
    skewSum := if done then r.skewSum + sk else r.skewSum
    skewN := if done then r.skewN + 1 else r.skewN
    lastCnt := if done then mmod r.lastCnt pos 0 (· + 1) else r.lastCnt }
  let s := match done, (s.collMembers i)[pos]? with
    | true, some n => s.inc (E.confluence_last_arrivals.n n) 1
    | _, _ => s
  let part := s.partOf 1 i
  let la := s.get (E.collective_layer_id.h i)
  let op := s.get (E.collective_op_id.h i)
  let s := s.attrConf part la op (s.collTy i) (s.collIn i) (if status = 0 then g.ops else 0) g.sat g.flush g.nan
  let s := s.later (.record 4 part la op (s.wordOf 1 i) (s.get (E.collective_engine.h i))
    (leBytes 1 (s.get (E.collective_run.h i)) ++ leBytes 1 status ++ [0, 0] ++ leBytes 4 g.idx ++ leBytes 4 sk ++ leBytes 2 pos ++
     [0, 0] ++ leBytes 8 g.first ++ leBytes 4 g.sat ++ leBytes 4 0))
  s.limitSync i

/-- The run status (R243). -/
def runStatus (aborted : Bool) (ended : NMap Nat) : Nat :=
  let has := fun (v : Nat) => ended.any (fun p => p.2 = v)
  if aborted || has 0x0B then 0x0B
  else if has 0x0D then 0x0D
  else
    match ended.find? (fun p => decide (p.2 ≠ 0 ∧ p.2 ≠ 0x0E)) with
    | some p => p.2
    | none => if has 0x0E then 0x0E else 0

/-- The combines that hold an inverse map for dispatch i (R255). -/
def State.pairedWith (s : State) (i : Nat) : List Nat :=
  (s.liveIdx 1).filter fun c => s.collTy c == 7 && hIdx (s.get (E.collective_pair.h c)) == i && (mget? s.coll c).isSome

/-- At the end of a dispatch run its inverse map becomes the one in force, where the run completed (R256). -/
def State.invLatch (s : State) (i : Nat) (ok : Bool) : State :=
  if s.collTy i = 6 then
    (s.pairedWith i).foldl (fun x c =>
      x.modColl c fun q => { q with inv := if ok then q.invNew else q.inv, invNew := [] }) s
  else s

/-- A run ends (R243, R257, R291): end markers, the run's figures, the histogram latched; the handle moves to a state.
DEDUCED (log 92). -/
def State.endRun (s : State) (i : Nat) (aborted : Bool) (marked : List Nat) (next : Nat) : State :=
  let r := s.crt i
  let segs := s.get (E.collective_segments.h i)
  let st := runStatus aborted r.ended
  let bad := segs - (r.ended.filter (fun p => p.2 = 0)).length
  let w8 := fun (m : Nat) => if s.collTy i = 6 then mgetD r.delivered m 0 else bad
  let run := s.get (E.collective_run.h i)
  let s := marked.foldl (fun x m => x.resultTo 0 i 0xFFFFFF 0 (x.collOut i) st [] (some (w8 m)) m) s
  let s := s.set (E.collective_last_status.h i) st
  let s := s.inc (E.collective_runs.h i) 1
  let s := s.set (E.collective_skew_max.h i) (r.skewMax % 2 ^ 32)
  let s := s.set (E.collective_skew_mean.h i) (r.skewSum / max 1 r.skewN % 2 ^ 32)
  let s := match maxBy? (fun p => p.2) r.lastCnt with
    | some p => s.set (E.collective_laggard_position.h i) p.1
    | none => s
  let hb := (List.range 64).flatMap fun b => leBytes 8 (mgetD r.hist b 0)
  let s := (s.domPut E.collective_histogram 0 i 0 hb).set (E.collective_histogram_run.h i) run
  let s := s.later (.record 5 (s.partOf 1 i) (s.get (E.collective_layer_id.h i)) (s.get (E.collective_op_id.h i)) (s.wordOf 1 i)
    (s.get (E.collective_engine.h i)) (leBytes 1 run ++ List.replicate 15 0 ++ hb))
  let s := s.set (E.collective_run.h i) ((run + 1) % 256)
  let s := s.invLatch i (!aborted && st == 0)
  let s := s.modColl i fun q => { collBlank with
    gran := q.gran, overBufs := q.overBufs, inv := q.inv, invNew := q.invNew, peerLim := s.startLimits i }
  (s.limitSync i).hset (E.collective_state.h i) 1 i next

/-- The rows of a combine that no entry names are sent as zeros before the end marker (R256). -/
def State.unassignedRows (s : State) (i : Nat) : State :=
  let inv := (s.crt i).inv
  let rb := s.get (E.collective_row_bytes.h i)
  let rows := s.get (E.collective_rows.h i)
  let f := s.collOut i
  let zeros := ((encodeVals f (f32 (s.get (E.collective_out_scale.h i)))
    (List.replicate (elemsIn (s.collIn i) rb) (Val.zero false, false))).bytes).take rb
  let (n, s) := (List.range (s.memberCount i)).foldl (fun (acc : Nat × State) m =>
    (List.range rows).foldl (fun (a : Nat × State) t =>
      if inv.any (fun e => e.spos = m ∧ e.srow = t) then a
      else (a.1 + 1, (pieces (t * rb) zeros).foldl (fun st p => st.resultTo 0 i 0 p.1 f 0 p.2 none m) a.2)) acc) (0, s)
  s.inc (E.collective_rows_unassigned.h i) n

/-- After a segment ended or left its reduction: the run drains and ends when nothing is left (R229, R243). -/
def State.checkRun (s : State) (i : Nat) : State :=
  let r := s.crt i
  let segs := s.get (E.collective_segments.h i)
  if r.ended.length = segs then s.endRun i false (List.range (s.memberCount i)) 1
  else if s.get (E.collective_state.h i) = 2 ∧ r.ended.length + r.segs.length = segs ∧
      r.segs.all (fun g => g.stage == 1 || g.stage == 2 || g.stage == 4) then
    s.hset (E.collective_state.h i) 1 i 3
  else s

/-! ### Folding (R265 to R281) -/

/-- One fold of R268; an empty accumulator takes the value. -/
def foldElem (op : Nat) (acc : Option Nat) (x : Nat) : Nat × Ev :=
  match acc with
  | none => (x, ev0)
  | some a =>
    if op = 2 ∨ op = 3 then
      if isNan32 a || isNan32 x then (nan32, ev0)
      else if op = 2 then (if (f32 a).lt (f32 x) then x else a, ev0)
      else (if (f32 x).lt (f32 a) then x else a, ev0)
    else let r := add32 a x; (r.code, r.ev)

/-- Decoded elements folded into accumulators from element `base` on, in FP32 (R268). -/
def foldVals (op base : Nat) (acc : NMap Nat) (vs : List Val) : NMap Nat × Ev :=
  let (m, e, _) := vs.foldl (fun (a : NMap Nat × Ev × Nat) v =>
    let r := rndVal fp32 v false
    let (c, e) := foldElem op (mget? a.1 a.2.2) r.code
    (mput a.1 a.2.2 c, (a.2.1.add r.ev).add e, a.2.2 + 1)) (acc, ev0, base)
  (m, e)

/-- Counts of a collective: saturations and flushes (R292), with the segment's own. -/
def State.collEv (s : State) (i idx : Nat) (e : Ev) : State :=
  let s := ((s.inc (E.collective_saturated.h i) e.sat).inc (E.collective_flushed.h i) e.flush).inc (E.collective_nan_results.h i) e.nan
  s.modSeg i idx fun g => { g with sat := g.sat + e.sat, flush := g.flush + e.flush, nan := g.nan + e.nan }

/-- Counts of the conversions into FP32 inside the engine (R268). -/
def State.collFp32 (s : State) (i idx : Nat) (e : Ev) : State := (s.collEv i idx e).fp32Ev e

/-- Counts of folds: on the large path only the owner of a segment counts them (R289). -/
def State.foldEv (s : State) (i idx : Nat) (e : Ev) : State :=
  if s.collPathOf i = 1 ∧ !s.ownsSeg i idx then s else s.collFp32 i idx e

/-- A head of a staged LSE group: exact vector, maximum, sum (R278). -/
def lseHead (d f : Nat) (b : List Byte) (k : Nat) : List (Val × Bool) × Nat × Nat :=
  let w := (fmtRow f).1 / 8
  ((List.range d).map fun j => fpDecode (fpOf f) (leAt b ((k * d + j) * w) w),
    leAt b (32 * d * w + 8 * k) 4, leAt b (32 * d * w + 8 * k + 4) 4)

/-- The staged bytes of a contributor from granule lo on, in order. -/
def stagedBytes (g : Seg) (who lo n : Nat) : List Byte :=
  (List.range n).flatMap fun k => match g.staged.find? (fun l => l.who = who ∧ l.off = 256 * (lo + k)) with
    | some l => l.bytes
    | none => List.replicate 256 0

/-- The contributors with staged bytes, a relayed member's copies apart. -/
def stagers (g : Seg) : List Nat := sortBy (fun a b => decide (a < b)) (dedup (g.staged.map (·.who)))

/-- A complete LSE group of a contributor folded into its heads (R280). -/
def State.foldGroup (s : State) (i idx who grp f : Nat) : State :=
  match s.seg? i idx with
  | none => s
  | some g =>
    let d := s.lseDim i
    let gb := lseGroup d f
    let lo := grp * gb / 256
    let b := stagedBytes g who lo (gb / 256)
    let have_ := (List.range (gb / 256)).all fun k => g.staged.any (fun l => l.who = who ∧ l.off = 256 * (lo + k))
    if !have_ then s
    else
      let (hs, e) := (List.range 32).foldl (fun (a : NMap Part1 × Ev) k =>
        let (o, m, l) := lseHead d f b k
        let rs := o.map fun v => rndVal fp32 v.1 false
        let e1 := rs.foldl (fun (x : Ev) r => x.add r.ev) ev0
        let old := mgetD a.1 (32 * grp + k) (emptyPart d)
        let (p, e2) := foldPart old ⟨rs.map (·.code), m, l⟩
        (mput a.1 (32 * grp + k) p, (a.2.add e1).add e2)) (g.heads, ev0)
      (s.modSeg i idx fun x => { x with heads := hs }).foldEv i idx e

/-! ### Values at completion -/

/-- What a segment's result is: bytes, what became of each element with whether it is an infinity, and counts. -/
structure ResOut where
  bytes : List Byte
  rs : List (Rnd × Bool)
  sat : Nat
  flush : Nat
  nan : Nat

/-- The exact value of one position (R270, R277). -/
def exactElem (op scale : Nat) (scaled : Bool) (xs : List Val) : Val × Bool :=
  match xs with
  | [] => (.zero false, false)
  | x :: r =>
    if op = 2 then (r.foldl Val.maxV x, false)
    else if op = 3 then (r.foldl Val.minV x, false)
    else
      let (t, st) := windowSum xs
      let isZero := match t with | .fin _ m _ => m == 0 | _ => false
      if op = 4 ∧ scaled ∧ !isZero then (t.mul (f32 scale), st) else (t, st)

/-- The values of a segment before the final rounding (R268, R270), and the events of the scale. -/
def State.segVals (s : State) (i : Nat) (g : Seg) (scaled : Bool) : List (Val × Bool) × Ev :=
  let op := s.collOp i
  let f := s.collIn i
  let n := elemsIn f (s.segBytes i g.idx)
  let sc := s.get (E.collective_scale.h i)
  if s.collExact i then
    let ws := stagers g
    let per := granElems f
    let vs := (List.range (n / max 1 per)).flatMap fun k =>
      let cols := ws.map fun w => (decodeGranule f (f32 (s.get (E.collective_in_scale.h i))) (stagedBytes g w k 1)).vs
      (List.range per).map fun j => exactElem op sc scaled (cols.map fun c => c.getD j .nan)
    (vs, ev0)
  else
    let rs := (List.range n).map fun j =>
      let a := mgetD g.acc j 0
      if op = 4 ∧ scaled then let r := mul32 sc a; (r.code, r.ev) else (a, ev0)
    (rs.map fun r => (f32 r.1, false), rs.foldl (fun (x : Ev) r => x.add r.2) ev0)

/-- Values in an output format (R273 to R284). -/
def encodeRes (f scale : Nat) (vs : List (Val × Bool)) : ResOut :=
  let o := encodeVals f (f32 scale) vs
  ⟨o.bytes, (o.rs.zip vs).map (fun p => (p.1, p.2.1.isInf)), o.sat, o.flush, o.nan⟩

/-- The heads of an LSE-merge segment (R279, R280): per head the vector, maximum, sum; truncated positions; events. -/
def State.lseHeads (s : State) (i : Nat) (g : Seg) : List Merged :=
  let d := s.lseDim i
  let f := s.collIn i
  let gb := lseGroup d f / 256
  let n := s.lseGroups i (s.segBytes i g.idx)
  if s.collExact i then
    let ws := stagers g
    (List.range n).flatMap fun q =>
      let bs := ws.map fun w => stagedBytes g w (q * gb) gb
      (List.range 32).map fun k =>
        mergeExact d (bs.map fun b => let (o, m, l) := lseHead d f b k; (o.map (·.1), m, l))
  else
    (List.range (32 * n)).map fun k =>
      let p := mgetD g.heads k (emptyPart d)
      ⟨p.o.map fun c => (f32 c, false), p.m, p.l, 0, ev0⟩

/-- An LSE-merge result in a format (R278). -/
def encodeLse (d f : Nat) (hs : List Merged) : ResOut :=
  let w := (fmtRow f).1 / 8
  let one := fun (h : Merged) => encodeVals f (f32 one32) h.o
  let grp := fun (q : List Merged) =>
    q.flatMap (fun h => (one h).bytes.take (d * w)) ++ q.flatMap (fun h => leBytes 4 h.m ++ leBytes 4 h.l)
  let outs := hs.map one
  let extra := fun (h : Merged) => (if isNan32 h.m then 1 else 0) + (if isNan32 h.l then 1 else 0)
  ⟨(chunks 32 (hs.length + 1) hs).flatMap grp,
   (outs.zip hs).flatMap (fun p => (p.1.rs.zip p.2.o).map (fun x => (x.1, x.2.1.isInf))),
   sumBy (·.sat) outs, sumBy (·.flush) outs, sumBy (·.nan) outs + sumBy extra hs⟩

/-- The histogram bin of an element (R290). DEDUCED (log 98). -/
def histBin (r : Rnd × Bool) : Nat :=
  if r.1.nan then 63
  else if r.1.sat || r.2 then 62
  else match r.1.e with
    | none => 0
    | some e => if r.1.flush then 0 else if e ≤ -30 then 1 else if 30 ≤ e then 61 else (e + 31).toNat

/-- Elements counted in the run's histogram. DEDUCED (log 99). -/
def State.histAdd (s : State) (i : Nat) (rs : List (Rnd × Bool)) : State :=
  s.modColl i fun q => { q with hist := rs.foldl (fun m r => mmod m (histBin r) 0 (· + 1)) q.hist }

/-- The counts of a result's final rounding (R287, R292, R316). -/
def State.countRes (s : State) (i idx f : Nat) (o : ResOut) : State :=
  (s.collEv i idx ⟨o.sat, o.flush, o.nan⟩).fmtOut f o.sat o.flush o.nan

/-! ### Contributions (R227, R237 to R239) -/

/-- The contributor that a packet comes from: a position, or 1,024 + j for peer j (R227, R245; check 11 of R163). -/
def State.collSender (s : State) (i port bundle hopCount : Nat) : Option Nat :=
  match (if hopCount = 0 then (s.collMembers i).findIdx? (· == port) else none) with
  | some m => some m
  | none => ((s.collPeers i).findIdx? (fun p => p.1 == bundle)).map (· + 1024)

/-- The copies of one granule that a contributor may deliver (R247). -/
def State.copies (s : State) (i who : Nat) : Nat :=
  if 1024 ≤ who ∧ s.relays i then (((s.collPeers i)[who - 1024]?).map (fun p => p.2.1)).getD 0 else 1

/-- The format that a contribution of a sender carries: FP32 partials from peers on the large path in fast mode (R247). -/
def State.wireFmt (s : State) (i who : Nat) : Nat :=
  if 1024 ≤ who ∧ s.collPathOf i = 1 ∧ !s.relays i ∧ reducing (s.collTy i) then 0 else s.collIn i

/-- The bytes of a segment as a sender lays it out. -/
def State.wireBytes (s : State) (i idx who : Nat) : Nat :=
  if 1024 ≤ who ∧ s.collPathOf i = 1 ∧ !s.relays i ∧ reducing (s.collTy i) then s.bytesIn i (s.segBytes i idx) 0
  else s.segBytes i idx

/-- The key of a contributor's granule. -/
def granKey (who g : Nat) : Nat := who * 2 ^ 32 + g

/-- The granules of a packet. -/
def pktGrans (off len : Nat) : List Nat := (List.range (ceilDiv len 256)).map (· + off / 256)

/-- Does every row of a combine contribution hold an inverse entry (R256)? -/
def State.rowsKnown (s : State) (i who off len : Nat) : Bool :=
  let rb := max 1 (s.get (E.collective_row_bytes.h i))
  (pktGrans off len).all fun k => (s.crt i).inv.any fun e => e.dpos == who && e.drow == 256 * k / rb

/-- The tests of R239 in order: the counter of the first that fails. DEDUCED (log 94). -/
def State.collTest (s : State) (i who : Nat) (h : Rill) (len : Nat) : Option Ent :=
  let idx := h.segment % 2 ^ 24
  let d := (h.segment / 2 ^ 24 + 256 - s.get (E.collective_run.h i)) % 256
  let size := s.wireBytes i idx who
  let g := s.seg? i idx
  if s.get (E.collective_state.h i) = 0 then some E.collective_not_armed
  else if h.w10 % 16 ≠ s.wireFmt i who then some E.collective_format_errors
  else if 1 ≤ d ∧ d ≤ 127 then some E.collective_early
  else if 128 ≤ d then some E.collective_late
  else if s.get (E.collective_segments.h i) ≤ idx ∨ size < h.w8 + len ∨ h.w8 % 256 ≠ 0 ∨
      (len % 256 ≠ 0 ∧ h.w8 + len ≠ size) ∨ (s.collTy i = 7 ∧ !s.rowsKnown i who h.w8 len) then some E.collective_oversize
  else if (mget? (s.crt i).ended idx).isSome then some E.collective_late
  else if s.collTy i < 6 ∧ s.get (E.collective_limit.h i) ≤ idx then some E.collective_over_credit
  else if (s.collTy i = 2 ∨ s.collTy i = 3) ∧ who ≠ s.segOwner i idx then some E.collective_not_owner
  else
    match g with
    | none => none
    | some g =>
      if (pktGrans h.w8 len).any (fun k => decide (s.copies i who ≤ mgetD g.got (granKey who k) 0)) then
        some E.collective_duplicates else none

/-- A protocol drop counted (R239, R261). -/
def State.collDrop (s : State) (i : Nat) (e : Ent) : State :=
  let en := s.get (E.collective_engine.h i)
  let s := (s.inc (e.h i) 1).inc (E.confluence_proto_drops.k en) 1
  { s with sw := { s.sw with faultCnt := mmod s.sw.faultCnt (20000 + en) 0 (· + 1) } }

/-- The first granule of a segment begins it; the first contribution of a run moves the handle to Running. -/
def State.beginSeg (s : State) (i idx : Nat) : State :=
  let s := if s.get (E.collective_state.h i) = 1 then s.hset (E.collective_state.h i) 1 i 2 else s
  match s.seg? i idx with
  | some _ => s
  | none => s.modColl i fun r => { r with segs := r.segs ++
      [⟨idx, s.ft, s.get (E.collective_laggard_timeout.h i), [], [], [], [], [], [], 0, 0, 0, 0, 0, none, []⟩] }

/-- A granule that landed is staged, with its copy number for a relay. -/
def stageGranule (who : Nat) (b : List Byte) (g : Seg) (k : Nat) : Seg :=
  let c := mgetD g.got (granKey who k) 0
  { g with got := mput g.got (granKey who k) (c + 1)
           n := mmod g.n who 0 (· + 1)
           staged := g.staged ++ [⟨who + 2 ^ 20 * c, 256 * k, b⟩] }

/-- A granule that landed, not staged. -/
def markGranule (who : Nat) (g : Seg) (k : Nat) : Seg :=
  { g with got := mmod g.got (granKey who k) 0 (· + 1), n := mmod g.n who 0 (· + 1) }

/-- The entries of the dispatch map for a source row: destination position and row, weight (R254). -/
def State.mapRow (s : State) (i m t : Nat) : List (Nat × Nat × Nat) :=
  let k := s.get (E.collective_topk.h i)
  (List.range k).filterMap fun j =>
    let a := ((m * s.get (E.collective_rows.h i) + t) * k + j) * 12
    let d := s.domLe E.collective_dispatch_map 0 i a 2
    if d = 0xFFFF then none
    else some (d, s.domLe E.collective_dispatch_map 0 i (a + 4) 4, s.domLe E.collective_dispatch_map 0 i (a + 8) 4)

/-- One granule of a dispatch forwarded, with its inverse entries (R255). -/
def State.dispatchGran (s : State) (i m k : Nat) (b : List Byte) : State :=
  let rb := max 1 (s.get (E.collective_row_bytes.h i))
  let t := 256 * k / rb
  let off := 256 * k % rb
  let es := s.mapRow i m t
  let s := es.foldl (fun st e => st.resultTo 0 i 0 (e.2.1 * rb + off) (st.collOut i) 0 b none e.1) s
  let ents := es.map fun e => (⟨e.1, e.2.1, m, t, e.2.2⟩ : InvEnt)
  let s := (s.pairedWith i).foldl (fun x c =>
    x.modColl c fun q => { q with invNew := ents.foldl (fun l e => if l.contains e then l else l ++ [e]) q.invNew }) s
  match s.seg? i 0 with
  | none => s
  | some g =>
    let all := (List.range (rb / 256)).all fun q => (mget? g.got (granKey m (t * rb / 256 + q))).isSome
    if all then s.modColl i fun q => { q with delivered := es.foldl (fun d e => mmod d e.1 0 (· + 1)) q.delivered } else s

/-- One granule of a combine folded into its source row; when every entry of the row has delivered it, it goes to the
source member (R256). DEDUCED (log 100). -/
def State.combineGran (s : State) (i m k : Nat) (b : List Byte) : State :=
  let rb := max 1 (s.get (E.collective_row_bytes.h i))
  let f := s.collIn i
  let drow := 256 * k / rb
  let q := 256 * k % rb / 256
  match (s.crt i).inv.find? (fun e => e.dpos = m ∧ e.drow = drow) with
  | none => s
  | some e =>
    let dec := decodeGranule f (f32 (s.get (E.collective_in_scale.h i))) b
    let wv : Val := if s.collOp i = 4 then f32 e.weight else .fin false 1 0
    let vs := dec.vs.map fun v => if s.collOp i = 4 then v.mul wv else v
    let key := (e.spos * s.get (E.collective_rows.h i) + e.srow) * (rb / 256) + q
    let per := granElems f
    let sum := (s.crt i).inv.filter (fun x => x.spos = e.spos ∧ x.srow = e.srow)
    let s := (s.collEv i 0 ⟨0, dec.flushed, 0⟩).fmtIn f dec.flushed dec.reserved
    let s :=
      if s.collExact i then s.modSeg i 0 fun g => { g with staged := g.staged ++ [⟨key, k * 1024 + m, b⟩] }
      else
        match s.seg? i 0 with
        | none => s
        | some g =>
          let (acc, ev) := foldVals 1 (key * per) g.acc vs
          (s.modSeg i 0 fun x => { x with acc := acc }).collFp32 i 0 ev
    let s := s.modSeg i 0 fun g => { g with rows := mmod g.rows key 0 (· + 1) }
    match s.seg? i 0 with
    | none => s
    | some g =>
      if mgetD g.rows key 0 < sum.length then s
      else
        let vals :=
          if s.collExact i then
            let cols := (g.staged.filter (fun l => l.who = key)).map fun l =>
              let dm := l.off % 1024
              let dr := 256 * (l.off / 1024) / rb
              let w := match sum.find? (fun x => x.dpos = dm ∧ x.drow = dr) with | some x => x.weight | none => one32
              (decodeGranule f (f32 (s.get (E.collective_in_scale.h i))) l.bytes).vs.map fun v =>
                if s.collOp i = 4 then v.mul (f32 w) else v
            (List.range per).map fun j => windowSum (cols.map fun c => c.getD j .nan)
          else (List.range per).map fun j => (f32 (mgetD g.acc (key * per + j) 0), false)
        let o := encodeRes (s.collOut i) (s.get (E.collective_out_scale.h i)) vals
        let s := (s.countRes i 0 (s.collOut i) o).histAdd i o.rs
        let s := s.inc (E.collective_truncated.h i) (vals.filter (·.2)).length
        (pieces (e.srow * rb + 256 * q) o.bytes).foldl (fun st p => st.resultTo 0 i 0 p.1 (st.collOut i) 0 p.2 none e.spos) s

/-- One granule of a reduction that landed (R244): folded in fast mode, staged in exact mode. -/
def State.reduceGran (s : State) (i idx who f k : Nat) (b : List Byte) : State :=
  let s := s.modSeg i idx fun g => stageGranule who b g k
  if s.collOp i = 5 then
    let fl := if 1024 ≤ who then 0 else
      let w := (fmtRow f).1 / 8
      let gb := lseGroup (s.lseDim i) f
      if 256 * k % gb < gb - 256 then
        ((List.range (256 / w)).filter fun j => (fpDecode (fpOf f) (leAt b (j * w) w)).2).length else 0
    let s := (s.collEv i idx ⟨0, fl, 0⟩).fmtIn f fl 0
    if s.collExact i then s else s.foldGroup i idx who (256 * k / max 1 (lseGroup (s.lseDim i) f)) f
  else
    let dec := decodeGranule f (f32 (s.get (E.collective_in_scale.h i))) b
    let s := if 1024 ≤ who then s else (s.collEv i idx ⟨0, dec.flushed, 0⟩).fmtIn f dec.flushed dec.reserved
    if s.collExact i then s
    else
      match s.seg? i idx with
      | none => s
      | some g =>
        let (acc, e) := foldVals (s.collOp i) (k * granElems f) g.acc dec.vs
        (s.modSeg i idx fun x => { x with acc := acc, staged := [] }).foldEv i idx e

/-- The data of an all-gather or a broadcast goes on as it lands; with its last granule the segment completes, and the limit
advances first, so that the packets carry it (R241, R251, R253). DEDUCED (log 95). -/
def State.forward (s : State) (i idx off f : Nat) (payload : List Byte) : State :=
  match (s.seg? i idx).filter (fun g => s.segReady i g) with
  | some g => (((s.endSeg i g 0).multicast i idx off f 0 payload true).limitNotes i idx (s.collOut i) 0).checkRun i
  | none => s.multicast i idx off f 0 payload true

/-- A contribution that passed its tests (R239, R241, R244, R247, R251, R253, R255, R256). -/
def State.accept (s : State) (i who : Nat) (h : Rill) (payload : List Byte) : State :=
  let idx := h.segment % 2 ^ 24
  let ty := s.collTy i
  let f := s.wireFmt i who
  let s := s.beginSeg i idx
  let s := s.inc (E.confluence_engine_bytes.k (s.get (E.collective_engine.h i))) payload.length
  let s := s.modSeg i idx fun g => { g with
    last := mput g.last who s.ft
    ops := g.ops + (if ty = 5 then 0 else elemsIn f payload.length) }
  let ks := (pktGrans h.w8 payload.length).zip (chunks 256 (payload.length + 1) payload)
  let mark := fun (st : State) => ks.foldl (fun x p => x.modSeg i idx fun g => markGranule who g p.1) st
  match ty with
  | 5 => mark s
  | 2 => (mark s).forward i idx h.w8 f payload
  | 3 => (mark s).forward i idx h.w8 f payload
  | 6 => ks.foldl (fun st p => (st.modSeg i idx fun g => markGranule who g p.1).dispatchGran i who p.1 p.2) s
  | 7 => ks.foldl (fun st p => (st.modSeg i idx fun g => markGranule who g p.1).combineGran i who p.1 p.2) s
  | _ =>
    if s.relays i ∧ !s.ownsSeg i idx then
      let dec := decodeBytes f (f32 (s.get (E.collective_in_scale.h i))) payload
      let s := if s.collOp i = 5 then s else (s.collEv i idx ⟨0, dec.flushed, 0⟩).fmtIn f dec.flushed dec.reserved
      (mark s).toPeer i (s.peerAt i (s.ownerPos i idx)) 4 idx h.w8 0 f payload
    else ks.foldl (fun st p => st.reduceGran i idx who f p.1 p.2) s

/-- A contribution that passed the arrival checks (R239). DEDUCED (log 100). -/
def State.contribute (s : State) (i who : Nat) (h : Rill) (payload : List Byte) : State :=
  match s.collTest i who h payload.length with
  | some e => s.collDrop i e
  | none => s.accept i who h payload

/-! ### Completion (R241, R246, R247, R249, R285 to R289) -/

/-- A result is emitted and its segment ends: the limit advances first, so that the packets carry it (R241). -/
def State.finish (s : State) (i : Nat) (g : Seg) (status fmt : Nat) (bytes : List Byte) : State :=
  let s := s.endSeg i g status
  let s := s.multicast i g.idx 0 fmt status bytes true
  (s.limitNotes i g.idx fmt status).checkRun i

/-- A partial goes to the segment's owner as a contribution of this FN7 (R246, R247). -/
def State.sendPartial (s : State) (i idx fmt : Nat) (bytes : List Byte) : State :=
  let j := s.peerAt i (s.ownerPos i idx)
  let s := (pieces 0 bytes).foldl (fun st p => st.toPeer i j 4 idx p.1 0 fmt p.2) s
  s.modSeg i idx fun g => { g with stage := 3 }

/-- The epilogue of a segment is handed to the Mills, or held at the engine (R249, R327). -/
def State.handEpilogue (s : State) (i idx : Nat) (vals : List Nat) : State :=
  let e := s.get (E.collective_engine.h i)
  let waiting := s.epiHeld.any (fun h => s.get (E.collective_engine.h h.1) == e)
  if s.epiJobs e < 64 ∧ !waiting then (s.modSeg i idx fun g => { g with stage := 1 }).sendEpilogue i idx vals
  else
    let s := s.modSeg i idx fun g => { g with stage := 2 }
    { (s.inc (E.confluence_epilogue_held.k e) 1) with epiHeld := s.epiHeld ++ [(i, idx, vals)] }

/-- The result of a reduction at its owner (R268, R270, R285 to R288). -/
def State.ownResult (s : State) (i : Nat) (g : Seg) : State :=
  let fo := s.collOut i
  let so := s.get (E.collective_out_scale.h i)
  if s.collOp i = 5 then
    let hs := s.lseHeads i g
    let o := encodeLse (s.lseDim i) fo hs
    let e := hs.foldl (fun (x : Ev) h => x.add h.ev) ev0
    let s := (s.collFp32 i g.idx e).inc (E.collective_truncated.h i) (sumBy (·.trunc) hs)
    let s := (s.countRes i g.idx fo o).histAdd i o.rs
    s.finish i ((s.seg? i g.idx).getD g) 0 fo o.bytes
  else
    let (vs, e) := s.segVals i g true
    let s := (s.collFp32 i g.idx e).inc (E.collective_truncated.h i) (vs.filter (·.2)).length
    if s.get (E.collective_epilogue.h i) ≠ 0 then
      let rs := vs.map fun v => (rndVal fp32 v.1 v.2, v.1.isInf)
      let e2 : Ev := if s.collExact i then rs.foldl (fun (x : Ev) r => x.add r.1.ev) ev0 else ev0
      let s := (s.collFp32 i g.idx e2).histAdd i rs
      (s.handEpilogue i g.idx (rs.map (·.1.code))).checkRun i
    else
      let o := encodeRes fo so vs
      let wide := if s.getB (E.collective_widen.h i) ∧ s.get (E.collective_widen_threshold.h i) ≤ o.sat then widerOf fo else none
      match wide with
      | none =>
        let s := (s.countRes i g.idx fo o).histAdd i o.rs
        s.finish i ((s.seg? i g.idx).getD g) 0 fo o.bytes
      | some w =>
        let o2 := encodeRes w so vs
        let s := (s.collEv i g.idx ⟨o.sat, 0, 0⟩).inc (E.collective_widened.h i) 1
        let s := (s.countRes i g.idx w o2).histAdd i o2.rs
        s.finish i ((s.seg? i g.idx).getD g) 0x0E w o2.bytes

/-- The partial of a segment that another FN7 owns (R246, R247): its FP32 state on the large path (R289), rounded into the input
format on the small one. -/
def State.ownPartial (s : State) (i : Nat) (g : Seg) : State :=
  let large := s.collPathOf i = 1
  let f := if large then 0 else s.collIn i
  if s.collOp i = 5 then
    let o := encodeLse (s.lseDim i) f (s.lseHeads i g)
    (if large then s else s.countRes i g.idx f o).sendPartial i g.idx f o.bytes
  else
    let (vs, _) := s.segVals i g false
    let o := encodeRes f (s.get (E.collective_in_scale.h i)) vs
    (if large then s else s.countRes i g.idx f o).sendPartial i g.idx f o.bytes

/-- SEGMENT_REDUCTION_DONE (R241): once every contributor's granules have landed, the reduction completes. -/
def segmentReductionDone (s : State) (i idx : Nat) : State :=
  match s.seg? i idx with
  | none => s
  | some g =>
    if g.stage ≠ 0 ∨ (s.liveAt 1 i).isNone ∨ !s.segReady i g then s
    else
      match s.collTy i with
      | 5 =>
        if !s.ownsSeg i idx then s.sendPartial i idx (s.collIn i) (List.replicate 256 0)
        else if s.get (E.collective_barrier_scope.h i) = 1 then
          mrSendRole (s.modSeg i idx fun x => { x with stage := 3 }) 1 0 (.arrive (s.wordOf 1 i))
        else s.finish i g 0 (s.collOut i) []
      | 2 => ((s.endSeg i g 0).limitNotes i idx (s.collOut i) 0).checkRun i
      | 3 => ((s.endSeg i g 0).limitNotes i idx (s.collOut i) 0).checkRun i
      | 6 => (s.endSeg i g 0).checkRun i
      | 7 => (s.unassignedRows i |>.endSeg i g 0).checkRun i
      | _ => if s.ownsSeg i idx then s.ownResult i g else if s.relays i then s else s.ownPartial i g

/-- A Millrace release of a barrier (R252). -/
def collReleased (s : State) (i : Nat) : State :=
  match s.seg? i 0 with
  | some g =>
    if s.collTy i = 5 ∧ s.get (E.collective_barrier_scope.h i) = 1 ∧ g.stage = 3 then s.finish i g 0 (s.collOut i) [] else s
  | none => s

/-- A piece of an epilogue's result has crossed to its engine (R249, R329): with the last one the result waits at the segment. -/
def handedBack (s : State) (id : Nat) (b : List Byte) : State :=
  match s.mill.runs.find? (fun r => r.id = id) with
  | none => s
  | some r =>
    let back := r.back ++ b.drop 32
    if leAt b 3 1 % 2 = 0 then
      s.modMill fun m => { m with runs := m.runs.map fun x => if x.id = id then { x with back := back } else x }
    else
      let s := s.modMill fun m => { m with runs := m.runs.filter fun x => x.id != id }
      s.modSeg r.coll r.seg fun g =>
        if g.stage = 1 then { g with stage := 4, ret := some (leAt b 0 1, ⟨back, leAt b 12 4, leAt b 16 4, leAt b 20 4⟩) } else g

/-- EPILOGUE_RESULT (R249, R288): the segment's result multicast proceeds. -/
def epilogueResult (s : State) (i idx : Nat) : State :=
  match s.seg? i idx with
  | none => s
  | some g =>
    match g.stage, g.ret with
    | 4, some (st, o) => s.finish i g st (s.collOut i) (if st = 0 then o.bytes else [])
    | _, _ => s

/-- EPILOGUE_PLACE_FREE (R327): the engine hands over the epilogue that it has held longest. -/
def epiloguePlaceFree (s : State) (e : Nat) : State :=
  if 64 ≤ s.epiJobs e then s
  else
    match s.epiHeld.find? (fun h => s.get (E.collective_engine.h h.1) == e) with
    | none => s
    | some h =>
      let s := { s with epiHeld := s.epiHeld.filter (fun x => x.1 != h.1 || x.2.1 != h.2.1) }
      (s.modSeg h.1 h.2.1 fun g => { g with stage := 1 }).sendEpilogue h.1 h.2.1 h.2.2

/-- A result from a joined FN7 (R246 to R248): its limit is held, its data goes to this FN7's receivers. DEDUCED (log 94). -/
def State.peerResult (s : State) (i who : Nat) (h : Rill) (payload : List Byte) : State :=
  let idx := h.segment % 2 ^ 24
  let d := (h.segment / 2 ^ 24 + 256 - s.get (E.collective_run.h i)) % 256
  let fmt := h.w10 % 16
  let status := h.w10 / 256 % 256
  if s.get (E.collective_state.h i) = 0 then s.collDrop i E.collective_not_armed
  else if 1 ≤ d ∧ d ≤ 127 then s.collDrop i E.collective_early
  else if 128 ≤ d then s.collDrop i E.collective_late
  else if s.get (E.collective_segments.h i) ≤ idx then s.collDrop i E.collective_oversize
  else if (mget? (s.crt i).ended idx).isSome then s.collDrop i E.collective_late
  else
    let s := s.beginSeg i idx
    let j := who - 1024
    let s := s.modColl i fun r =>
      let l := mgetD r.peerLim j 0
      { r with peerLim := mput r.peerLim j (l + (h.w9 % 65536 + 65536 - l % 65536) % 65536) }
    let s := s.limitSync i
    let key := fun (k : Nat) => granKey (4096 + who) k
    let ks := pktGrans h.w8 payload.length
    let seen := match s.seg? i idx with | some g => ks.any (fun k => (mget? g.got (key k)).isSome) | none => true
    if seen then s.collDrop i E.collective_duplicates
    else
      let s := s.modSeg i idx fun g => { g with
        got := ks.foldl (fun m k => mput m (key k) 1) g.got
        rows := mmod g.rows (2 ^ 40) 0 (· + payload.length) }
      let whole := if s.collOp i = 0 then s.segBytes i idx else s.bytesIn i (s.segBytes i idx) fmt
      match s.seg? i idx with
      | none => s
      | some g =>
        let fin := decide (s.collTy i = 5) || (status != 0 && payload.isEmpty) || decide (whole ≤ mgetD g.rows (2 ^ 40) 0)
        let s := if fin then s.endSeg i g status else s
        let s := if payload = [] ∧ s.collTy i ≠ 5 ∧ status = 0 then s else s.multicast i idx h.w8 fmt status payload false
        if fin then (s.limitNotes i idx fmt status).checkRun i else s

/-- A contribution or result that passed the arrival checks. -/
def collPacket (s : State) (port bundle : Nat) (h : Rill) (payload : List Byte) : State :=
  let i := hIdx h.handle
  match s.collSender i port bundle h.hopCount with
  | none => s
  | some who =>
    if h.kind = 4 then s.contribute i who h payload
    else if 1024 ≤ who then s.peerResult i who h payload else s

/-! ### Laggards, losses, aborts -/

/-- One segment aborts and the run goes on (R258, R260). -/
def State.abortSeg (s : State) (i : Nat) (g : Seg) (status : Nat) : State :=
  let s := s.endSeg i g status
  let s := s.multicast i g.idx 0 (s.collOut i) status [] (s.ownsSeg i g.idx)
  s.checkRun i

/-- LAGGARD_TIMEOUT (R258). DEDUCED (log 96). -/
def laggardTimeout (s : State) (i idx : Nat) : State :=
  match s.seg? i idx with
  | none => s
  | some g =>
    if g.timeout = 0 ∨ s.ft < g.first + g.timeout ∨ (g.stage ≠ 0 ∧ g.stage ≠ 3) then s
    else
      let late := (s.needs i idx).find? (fun p => decide (mgetD g.n p.1 0 < p.2))
      let pos := match late with | some p => if p.1 < 1024 then p.1 else 0xFFFF | none => 0xFFFF
      let s := (s.set (E.collective_timeout_position.h i) pos).inc (E.collective_timeouts.h i) 1
      s.abortSeg i g 0x0D

/-- The run of a collective is aborted (R231, R259): its epilogue jobs are cancelled, end markers with 0x0B go to the members
at the positions `marked`. DEDUCED (log 95). -/
def State.abortRun (s : State) (i : Nat) (marked : List Nat) (next : Nat) : State :=
  let s := s.dropEpilogues i fun _ => true
  let s := s.abortJobs (fun j => match j.epi with | some (c, _) => c == i | none => false) 0x0B
  let s := (s.crt i).segs.foldl (fun st g => st.endSeg i g 0x0B) s
  let s := s.modColl i fun r => { r with
    ended := ((List.range (s.get (E.collective_segments.h i))).filter fun k => (mget? r.ended k).isNone).foldl
      (fun m k => mput m k 0x0B) r.ended }
  s.endRun i true marked next

/-- A member port or a peer bundle is lost (R259). DEDUCED (log 96). -/
def collMemberLost (s : State) (port : Nat) : State :=
  (s.liveIdx 1).foldl (fun st i =>
    if st.get (E.collective_state.h i) = 0 then st
    else
      let pos := match (st.collMembers i).findIdx? (· == port) with
        | some m => some m
        | none =>
          match st.bundleOf port with
          | some b => if (st.collPeers i).any (fun p => p.1 == b) && (st.members b).all (fun x => !st.inService x.2) then some 0xFFFF
            else none
          | none => none
      match pos with
      | none => st
      | some p =>
        let left := (List.range (st.memberCount i)).filter (· != p)
        let st := (st.abortRun i left 0).set (E.collective_member_lost.h i) p
        collRelease st i) s

/-- The positions of the receiving members of a handle (R225). -/
def State.receiving (s : State) (i : Nat) : List Nat :=
  let ms := List.range (s.memberCount i)
  match s.collTy i with
  | 3 => ms.filter (· != s.get (E.collective_root.h i))
  | 4 => ms.filter (· == s.get (E.collective_root.h i))
  | 6 =>
    let es := List.range (s.memberCount i * s.get (E.collective_rows.h i) * s.get (E.collective_topk.h i))
    ms.filter fun m => es.any fun e => s.domLe E.collective_dispatch_map 0 i (12 * e) 2 == m
  | _ => ms

/-- The abort path of a forced destroy (R231): a running collective is aborted, its receiving members get end markers. -/
def collForce (s : State) (i : Nat) : State :=
  if 2 ≤ s.get (E.collective_state.h i) then s.abortRun i (s.receiving i) 1 else s

/-- What a destroyed collective gives back. -/
def collDestroyed (s : State) (i : Nat) : State :=
  let s := if s.get (E.collective_state.h i) = 0 then s else collRelease (s.set (E.collective_state.h i) 0) i
  s.sub (E.confluence_engine_handles.k (s.get (E.collective_engine.h i))) 1

/-- RESERVOIR_UNCORRECTABLE in slot k of a collective's Basin (R260). DEDUCED (log 96). -/
def reservoirSlot (s : State) (i k : Nat) : State :=
  match (s.crt i).segs.find? (fun g => g.idx % max 1 (s.get (E.collective_window.h i)) = k) with
  | none => s
  | some g =>
    let s := s.abortJobs (fun j => j.epi == some (i, g.idx)) 0x0B
    let s := s.dropEpilogues i (· == g.idx)
    s.abortSeg i g 0x0B

/-- Is a dispatch map within its ranges (R254)? `bytes` is the map. -/
def mapOk (m cap : Nat) (bytes : List Byte) : Bool :=
  let es := (chunks 12 (bytes.length + 1) bytes).filterMap fun b =>
    if leAt b 0 2 = 0xFFFF then none else some (leAt b 0 2, leAt b 2 2, leAt b 4 4)
  es.all (fun e => decide (e.1 < m) && e.2.1 == 0 && decide (e.2.2 < cap)) && (dedup (es.map fun e => (e.1, e.2.2))).length == es.length

/-- The bytes of the dispatch map in force. -/
def State.mapBytes (s : State) (i : Nat) : List Byte :=
  (List.range (s.memberCount i * s.get (E.collective_rows.h i) * s.get (E.collective_topk.h i) * 12)).map fun k =>
    BitVec.ofNat 8 (s.dom E.collective_dispatch_map 0 i k)

/-- Is a dispatch, or the combine that pairs with it, Running or Draining (R254)? -/
def State.mapBusy (s : State) (i : Nat) : Bool :=
  decide (2 ≤ s.get (E.collective_state.h i)) ||
  (s.liveIdx 1).any fun c => s.collTy c == 7 && hIdx (s.get (E.collective_pair.h c)) == i && decide (2 ≤ s.get (E.collective_state.h c))

/-- A write of the dispatch map (R254). -/
def mapWrite (s : State) (i off : Nat) (bytes : List Byte) : Nat × State :=
  if s.mapBusy i then (0x0C, s)
  else
    let s' := s.domPut E.collective_dispatch_map 0 i off bytes
    if mapOk (s'.memberCount i) (s'.get (E.collective_capacity.h i)) (s'.mapBytes i) then (0, s') else (0x06, s)

/-- The expert router's map, written as one commit (R337). -/
def routerMap (s : State) (i : Nat) (bytes : List Byte) : State :=
  if s.mapBusy i then s else s.domPut E.collective_dispatch_map 0 i 0 bytes

/-- Is a member list acceptable (R227)? DEDUCED (log 91). -/
def membersOk (s : State) (l : List Nat) : Bool :=
  (dedup l).length == l.length &&
  l.all fun n => s.isPort n && s.get (E.port_mode.n n) == 0 &&
    (s.get (E.port_role.n n) == 1 || s.get (E.port_role.n n) == 2 || s.get (E.port_role.n n) == 4)

end Sys2Proof.Machine
end

