-- ==== Sys2Proof/Machine/Weir.lean ====
section
/-!
DEFINITION. Weir mode and lock-step (spec/15_weir_mode_and_lock_step.md, R417 to R443).
-/

namespace Sys2Proof.Machine

/-! ### The schedule -/

/-- A flag of `weir.flags` with its source. -/
def State.weirFlag (s : State) (b : Nat) : State := (s.stick E.weir_flags.s b).raise (522 + b)

/-- The reservations of the committed table (R421): key 96 * slot + input. -/
def State.weirTable (s : State) : NMap Nat :=
  s.cat.filterMap fun p =>
    if p.1 / 2 ^ 52 = 0x8120 * 256 + 1 ∧ p.2 ≠ 0xFF ∧ p.1 % 2 ^ 32 < 96 * s.get E.weir_slots.s then
      some (p.1 % 2 ^ 32, p.2) else none

/-- Is the committed table within the limits of R421? -/
def scheduleOk (s : State) : Bool :=
  let t := s.weirTable
  t.all fun p =>
    let i := p.1 % 96
    let o := p.2
    (decide (o ≤ 85) || decide (88 ≤ o ∧ o ≤ 91)) && o != i && decide (p.1 / 96 % 32 ≠ 31) &&
    t.all fun q => q.1 == p.1 || q.1 / 96 != p.1 / 96 || q.2 != o

/-- The length of a Weir cycle in ns (R421). -/
def State.weirNs (s : State) : Nat := s.weir.s * 5 / 8

/-- The difference of FT from a cycle's place, in 0.32 ns (R424). -/
def State.weirOffset (s : State) (n : Nat) : Nat :=
  unsignedOf 32 (err32 ((s.time.now25 : Int) - ((25 * (s.get E.weir_anchor.s + n * s.weirNs) : Nat) : Int)))

/-- The committed tables are about to change on this core cycle: what stood before is kept for a cycle that begins on it (R422). -/
def State.weirNote (s : State) : State :=
  match s.weir.prior with
  | some (c, _, _) => if c = s.cyc.n then s else { s with weir := { s.weir with prior := some (s.cyc.n, s.get E.weir_slots.s, s.weirTable) } }
  | none => { s with weir := { s.weir with prior := some (s.cyc.n, s.get E.weir_slots.s, s.weirTable) } }

/-- The slots and the table of a cycle that begins now: as committed before this core cycle (R422). -/
def State.weirTables (s : State) : Nat × NMap Nat :=
  match s.weir.prior with
  | some (c, k, t) => if c = s.cyc.n then (k, t) else (s.get E.weir_slots.s, s.weirTable)
  | none => (s.get E.weir_slots.s, s.weirTable)

/-- A Weir cycle begins (R422, R424, R426): committed tables apply, pointers are reset. -/
def State.weirBegin (s : State) (n : Nat) : State :=
  let s := { s with weir := { s.weir with
    base := s.cyc.n, s := s.weirTables.1, table := s.weirTables.2, realign := none, rr := [], voq := [] } }
  (s.set E.weir_cycle.s n).set E.weir_ft_offset.s (s.weirOffset n)

/-- The schedule starts Running (R423, R424) on the tables committed at its FT, anchored at the firing cycle. DEDUCED (log 125). -/
def State.weirGo (s : State) : State :=
  let s := (s.set E.weir_state.s 3).set E.weir_anchor.s s.ft
  let s := { s with weir := { s.weir with stopping := false, prior := none } }
  s.weirBegin 0

/-- WEIR_START (R423, R77). -/
def weirStart (s : State) (ft : Nat) : Nat × State :=
  let st := s.ftTestIn ft (s.get E.weir_state.s != 0 || s.get E.weir_clock_locked.s == 0)
  if st ≠ 0 then (st, s) else (0, (s.schedule ft .weirStart).set E.weir_state.s 1)

/-- WEIR_START_ON_LAUNCH (R423). -/
def weirStartOnLaunch (s : State) (v : Nat) : Nat × State :=
  if v = 0 then (0, s)
  else if s.get E.weir_state.s ≠ 0 ∨ s.get E.weir_clock_locked.s = 0 then (0x0C, s)
  else (0, s.set E.weir_state.s 2)

/-- WEIR_START_FIRE (R424). -/
def weirStartFire (s : State) : State :=
  if s.isDue .weirStart then (s.unschedule .weirStart).weirGo else s

/-- WEIR_STOP (R423, R425): at once where the schedule is not Running, else at the end of the current cycle.
DEDUCED (log 126). -/
def weirStop (s : State) (v : Nat) : State :=
  if v = 0 then s
  else
    match s.get E.weir_state.s with
    | 1 => (s.unschedule .weirStart).set E.weir_state.s 0
    | 2 => s.set E.weir_state.s 0
    | 3 => { s with weir := { s.weir with stopping := true } }
    | _ => s

/-- A Weir packet that waits is dropped (R425, R428): stomped where its header has left. -/
def State.weirDrop (s : State) (p : Pkt) : State :=
  let s := (s.inc E.weir_hold_drops.s 1).weirFlag 2
  if p.started then
    let s := s.emit (.stomp p.out)
    let s := s.inc (E.port_tx_stomped.n p.out) 1
    (s.endFrame p.out).dropPkt p
  else s.dropPkt p

/-- The Weir packets that have not crossed whole. -/
def State.weirWaiting (s : State) : List Pkt := s.sw.pkts.filter fun p => p.weir != 0 && decide (p.crossed < p.cells)

/-- The schedule stops (R425). -/
def State.weirHalt (s : State) : State :=
  let s := s.weirWaiting.foldl (fun st p => st.weirDrop p) s
  { (s.set E.weir_state.s 0) with weir := { s.weir with stopping := false, realign := none, table := [] } }

/-- Waiting packets at a boundary into cycle n (R428): counted once, and dropped past the hold limit. DEDUCED (log 128). -/
def State.weirHold (s : State) (n : Nat) : State :=
  let ws := s.weirWaiting
  let s := s.inc E.weir_held.s (ws.filter (fun p => p.weir = n)).length
  (ws.filter (fun p => decide (p.weir - 1 + s.get E.weir_hold_limit.s ≤ n))).foldl (fun st p => st.weirDrop p) s

/-- FT was loaded while the schedule runs (R424): the cycle ends; cycles begin again where FT meets their place.
DEDUCED (log 125). -/
def weirFtLoaded (s : State) (new : Nat) : State :=
  if !s.weirRunning then s
  else
    let n := ceilDiv (new - s.get E.weir_anchor.s) (max 1 s.weirNs)
    let s := { s with weir := { s.weir with realign := some n } }
    (s.inc E.weir_realigns.s 1).weirFlag 0

/-- FT left Locked (R435, R442). -/
def weirSyncLeft (s : State) : State := if s.weirRunning then s.weirFlag 1 else s

/-- The writing of `weir.engines` (R431). -/
def weirEngines (s : State) (v : Nat) : Nat × State :=
  let old := s.get E.weir_engines.s
  if (s.liveIdx 1).any (fun i => let e := s.get (E.collective_engine.h i); bitAt old e != bitAt v e) then (0x0C, s)
  else (0, s.set E.weir_engines.s v)

/-- The writing of `weir.mills` (R433). -/
def weirMills (s : State) (v : Nat) : Nat × State := if s.weirRunning then (0x0C, s) else (0, s.set E.weir_mills.s v)

/-- The writing of `weir.clock_mode` (R420): after a change the clock slews before it is locked again. DEDUCED (log 125). -/
def weirClockMode (s : State) (v : Nat) : State :=
  if v = s.get E.weir_clock_mode.s then s else (s.set E.weir_clock_mode.s v).set E.weir_clock_locked.s 0

/-- CORE_CLOCK_LOCKED (R420). -/
def coreClockLocked (s : State) : State := if s.get E.weir_clock_mode.s = 1 then s.set E.weir_clock_locked.s 1 else s

/-- May `weir.partitions` become what state s' holds (R418)? -/
def weirPartsOk (s s' : State) : Bool :=
  (List.range 4096).all fun p =>
    s.weirPart p == s'.weirPart p ||
    (!(s.liveIdx 1).any (fun i => s.partOf 1 i == p) &&
     (!s'.weirPart p || !(s.liveIdx 8).any (fun i => s.partOf 8 i == p && s.get (E.window_state.h i) != 0 && s.get (E.window_tier.h i) == 4)))

/-- The time that a Weir segment's reduction takes (R432). -/
def State.weirReduceNs (s : State) (i idx : Nat) : Nat := 400 + ceilDiv (s.slotC i * s.segBytes i idx) 1600

/-- The landing of a segment's last granule. -/
def segLanded (g : Seg) : Nat := g.last.foldl (fun m p => max m p.2) 0

/-- When a Weir segment's reduction ends (R432). -/
def State.weirSegEnd (s : State) (i : Nat) (g : Seg) : Nat :=
  max (segLanded g) (mgetD s.weir.engEnd (s.get (E.collective_engine.h i)) 0) + s.weirReduceNs i g.idx

/-- May the engine reduce this segment of a Weir handle now (R432): no ready segment landed before it, and its time is up. -/
def State.weirSegTurn (s : State) (i : Nat) (g : Seg) : Bool :=
  let e := s.get (E.collective_engine.h i)
  let before := (s.liveIdx 1).any fun j =>
    s.get (E.collective_engine.h j) == e && (s.crt j).segs.any fun x =>
      x.stage == 0 && (j != i || x.idx != g.idx) && s.segReady j x &&
      (decide (segLanded x < segLanded g) || (segLanded x == segLanded g && (decide (j < i) || (j == i && decide (x.idx < g.idx)))))
  !before && decide (s.weirSegEnd i g ≤ s.ft)

/-- SEGMENT_REDUCTION_DONE (R241, R432). -/
def segmentDone (s : State) (i idx : Nat) : State :=
  if s.weirRunning && s.weirPart (s.partOf 1 i) then
    match s.seg? i idx with
    | some g =>
      if s.segReady i g && s.weirSegTurn i g then
        let e := s.get (E.collective_engine.h i)
        let t := s.weirSegEnd i g
        segmentReductionDone { s with weir := { s.weir with engEnd := mput s.weir.engEnd e t } } i idx
      else s
    | none => s
  else segmentReductionDone s i idx

/-! ### Lock-step -/

/-- The lock-step port set, rising (R439). -/
def State.lockPorts (s : State) : List Nat := (List.range 1024).filter fun n => s.domBit E.lockstep_ports 0 0 n

/-- The current window, once window 0 has begun. -/
def State.lockWindow (s : State) : Option Nat :=
  s.lock.w0.map fun c => (s.get E.weir_cycle.s - c) / max 1 (s.get E.lockstep_window_cycles.s)

/-- Is the window too short for the port set (R110)? -/
def State.lockShort (s : State) : Bool :=
  decide (s.get E.lockstep_window_cycles.s * (s.get E.weir_slots.s * 5 / 8) < ceilDiv s.lockPorts.length 32 * 480)

/-- The conditions of R437. -/
def State.lockReady (s : State) (bound : Bool) : Bool :=
  let p := s.get E.lockstep_peer_port.s
  decide (p < 8) && s.get (E.millrace_role.n p) == 3 && s.get (E.millrace_state.n p) == 5 && s.get E.ft_sync_state.s == 2 &&
  (s.weirRunning || (bound && s.get E.weir_state.s == 2)) && s.get E.lockstep_state.s == 0

/-- LOCKSTEP_START (R437, R438, R77). -/
def lockstepStart (s : State) (ft : Nat) : Nat × State :=
  let st := s.ftTestIn ft (!s.lockReady false)
  if st = 0x0A ∨ st = 0x06 then (st, s)
  else if s.lockShort then (0x06, s)
  else if st ≠ 0 then (st, s)
  else (0, (s.schedule ft .lockstep).set E.lockstep_state.s 1)

/-- LOCKSTEP_START_ON_LAUNCH (R437, R438). -/
def lockstepStartOnLaunch (s : State) (v : Nat) : Nat × State :=
  if v = 0 then (0, s)
  else if s.lockShort then (0x06, s)
  else if !s.lockReady true then (0x0C, s)
  else (0, s.set E.lockstep_state.s 2)

/-- Lock-step runs; window 0 begins at a cycle boundary (R438): now, where the current core cycle is one. -/
def State.lockGo (s : State) : State :=
  let s := s.set E.lockstep_state.s 3
  let w0 := if s.weirRunning ∧ s.weir.base = s.cyc.n ∧ s.weir.realign = none then some (s.get E.weir_cycle.s) else none
  { s with lock := ⟨w0, none, 0, 0, [], [], []⟩ }

/-- A scheduled lock-step start whose turn has come. DEDUCED (log 50). -/
def State.lockDue (s : State) : State := if s.isDue .lockstep then (s.unschedule .lockstep).lockGo else s

/-- After an action that stood before it on the same firing cycle, a lock-step start is next (R80). DEDUCED (log 50). -/
def State.lockFollow (s : State) : State := if s.isDue .lockstep then s.later .upkeep else s

/-- Window 0, or the window number, follows a cycle boundary. DEDUCED (log 127). -/
def State.lockBoundary (s : State) : State :=
  if s.get E.lockstep_state.s ≠ 3 then s
  else
    let s := if s.lock.w0 = none then { s with lock := { s.lock with w0 := some (s.get E.weir_cycle.s) } } else s
    s.set E.lockstep_window.s (s.lockWindow.getD 0)

/-- A frame's first byte leaves a port of the set (R439, R441). DEDUCED (log 127). -/
def lockFrame (s : State) (port : Nat) (b : Body) (weir : Bool) : State :=
  match s.get E.lockstep_state.s, s.lockWindow with
  | 3, some w =>
    if !s.domBit E.lockstep_ports 0 0 port then s
    else
      let s := if weir then s else s.inc E.lockstep_foreign_frames.s 1
      let bytes := match b with
        | .rill h p => let x := rillBytes h ++ p; x ++ List.replicate (64 - min 64 x.length) 0
        | b => bodyBytes b
      let cyc := (s.get E.weir_cycle.s - s.lock.w0.getD 0) % max 1 (s.get E.lockstep_window_cycles.s)
      let rec_ := leBytes 4 cyc ++ leBytes 2 (s.cyc.n - s.weir.base) ++ leBytes 2 (bytes.length + 4) ++ bytes
      { s with lock := { s.lock with reg := mmod s.lock.reg (1024 * w + port) (2 ^ 64 - 1) (fun r => crc64Run r rec_) } }
  | _, _ => s

/-- The local digest of a window and port (R439). -/
def State.lockDigest (s : State) (w port : Nat) : Nat := (2 ^ 64 - 1) - mgetD s.lock.reg (1024 * w + port) (2 ^ 64 - 1)

/-- The digest frames of a window (R109). -/
def State.digestFrames (s : State) (w : Nat) : List (List Byte) :=
  let ps := s.lockPorts
  let cs := chunks 32 (ps.length + 1) ps
  ((List.range cs.length).zip cs).map fun c =>
    leBytes 8 w ++ leBytes 2 (c.2.headD 0) ++ leBytes 1 c.2.length ++ leBytes 1 (if c.1 + 1 = cs.length then 1 else 0) ++
    c.2.flatMap fun p => leBytes 8 (s.lockDigest w p)

/-- The first window from w on that is not done, and the done ones after it. -/
def lockNext : Nat → Nat → List Nat → Nat × List Nat
  | 0, w, done => (w, done)
  | k + 1, w, done => if done.contains w then lockNext k (w + 1) (done.filter (fun x => x != w)) else (w, done)

/-- Window w is done: what is kept for it is forgotten. -/
def State.lockForget (s : State) (w : Nat) : State :=
  let n := lockNext (s.lock.done.length + 1) s.lock.compared (w :: s.lock.done)
  { s with lock := { s.lock with
    compared := n.1
    done := n.2
    reg := s.lock.reg.filter (fun p => p.1 / 1024 != w)
    remote := s.lock.remote.filter (fun p => p.1 / 1024 != w) } }

/-- The comparison of R440 for window w. -/
def State.lockCompare (s : State) (w : Nat) : State :=
  let bad := s.lockPorts.find? fun p => mgetD s.lock.remote (1024 * w + p) 0 != s.lockDigest w p
  let s := s.inc E.lockstep_windows.s 1
  match bad with
  | none => s.lockForget w
  | some p =>
    let loc := s.lockDigest w p
    let rem := mgetD s.lock.remote (1024 * w + p) 0
    let s := (s.inc E.lockstep_divergent.s 1).raise 520
    let s := if bitAt (s.get E.lockstep_flags.s) 0 then s
      else s.set E.lockstep_first.s (ofLe (leBytes 8 w ++ leBytes 2 p ++ leBytes 6 0 ++ leBytes 8 loc ++ leBytes 8 rem))
    let s := s.stick E.lockstep_flags.s 0
    let s := s.lockForget w
    if s.getB E.lockstep_stop_on_divergence.s then s.set E.lockstep_state.s 4 else s

/-- Is every remote digest of window w here (R110)? -/
def State.lockComplete (s : State) (w : Nat) : Bool := s.lockPorts.all fun p => (mget? s.lock.remote (1024 * w + p)).isSome

/-- Every closed window whose remote digests are all here is compared, whatever earlier windows still wait for (R110, R440). -/
def State.lockScan (s : State) : State :=
  ((List.range (s.lock.closed - s.lock.compared)).map (s.lock.compared + ·)).foldl (fun st w =>
    if st.get E.lockstep_state.s = 3 ∧ !st.lock.done.contains w ∧ st.lock.compared ≤ w ∧ st.lockComplete w then st.lockCompare w
    else st) s

/-- LOCKSTEP_WINDOW_CLOSE (R109, R438, R441): the oldest open window ended at a cycle boundary; its frames are sent. -/
def lockstepWindowClose (s : State) : State :=
  match s.get E.lockstep_state.s, s.lockWindow with
  | 3, some w =>
    let c := s.lock.closed
    if w ≤ c then s
    else
      let port := s.get E.lockstep_peer_port.s
      let s := (s.digestFrames c).foldl (fun st f => mrSend st port 0 (.digest f)) s
      let s := { s with lock := { s.lock with closed := c + 1 } }
      let s := s.lockScan
      match s.lock.stopAfter with
      | some x => if x ≤ c ∧ s.get E.lockstep_state.s = 3 then s.set E.lockstep_state.s 0 else s
      | none => s
  | _, _ => s

/-- LOCKSTEP_STOP (R441): at the end of the current window; a start that has not come is dropped. -/
def lockstepStop (s : State) (v : Nat) : State :=
  if v = 0 then s
  else
    match s.get E.lockstep_state.s with
    | 1 => (s.unschedule .lockstep).set E.lockstep_state.s 0
    | 2 => s.set E.lockstep_state.s 0
    | 3 => match s.lockWindow with
      | some w => { s with lock := { s.lock with stopAfter := some w } }
      | none => s.set E.lockstep_state.s 0
    | 4 => s.set E.lockstep_state.s 0
    | _ => s

/-- A digest frame that arrived on the peer port (R109, R110, R440). -/
def lockDigestFrame (s : State) (port : Nat) (payload : List Byte) : State :=
  if s.get E.lockstep_state.s ≠ 3 ∨ port ≠ s.get E.lockstep_peer_port.s then s
  else
    let w := leAt payload 0 8
    let first := leAt payload 8 2
    let n := min (leAt payload 10 1) 32
    let ps := (s.lockPorts.filter (fun p => decide (first ≤ p))).take n
    if w < s.lock.compared ∨ s.lock.done.contains w then s
    else
      let m := ((List.range n).zip ps).foldl (fun m x => mput m (1024 * w + x.2) (leAt payload (12 + 8 * x.1) 8)) s.lock.remote
      ({ s with lock := { s.lock with remote := m } }).lockScan

/-- DIGEST_MISSING (R110): the oldest window with a frame still missing at the end of the second window after it is counted and
skipped. DEDUCED (log 127). -/
def digestMissing (s : State) : State :=
  let w := s.lock.compared
  match s.get E.lockstep_state.s, s.lockWindow with
  | 3, some cur =>
    if cur < w + 3 ∨ s.lockComplete w then s
    else ((s.mrFlag (s.get E.lockstep_peer_port.s) 7).inc E.lockstep_missing.s 1).lockForget w
  | _, _ => s

/-- The peer port left Active (R441). -/
def lockPeerLost (s : State) : State :=
  let st := s.get E.lockstep_state.s
  let p := s.get E.lockstep_peer_port.s
  if st ≠ 0 ∧ st ≠ 4 ∧ p < 8 ∧ s.get (E.millrace_state.n p) ≠ 5 then
    let s := (s.unschedule .lockstep).set E.lockstep_state.s 0
    (s.stick E.lockstep_flags.s 1).raise 521
  else s

/-- May the lock-step ports be what they are (R439)? -/
def lockPortsOk (s : State) : Bool := s.lockPorts.all fun n => s.isPort n && s.get (E.port_mode.n n) == 0

/-! ### Cycle boundaries -/

/-- WEIR_CYCLE_BOUNDARY (R422, R424, R425, R428): the next cycle begins, or the schedule stops. -/
def weirCycleBoundary (s : State) : State :=
  if !s.weirRunning then s
  else
    match s.weir.realign with
    | some n =>
      if s.weir.stopping then s.weirHalt
      else if s.ft < s.get E.weir_anchor.s + n * s.weirNs then s
      else ((s.weirHold n).weirBegin n).lockBoundary
    | none =>
      if s.cyc.n < s.weir.base + s.weir.s then s
      else if s.weir.stopping then s.weirHalt
      else
        let n := s.get E.weir_cycle.s + 1
        ((s.weirHold n).weirBegin n).lockBoundary

end Sys2Proof.Machine
end

