-- ==== Sys2Proof/Machine/Archive.lean ====
section
/-!
DEFINITION. Scheduling snapshots and the Archive's trace sessions (spec/16_counters_histograms_archive.md, R449, R453 to
R460).
-/

namespace Sys2Proof.Machine

/-! ### SNAP_AT -/

/-- Pending snapshots. -/
def State.snaps (s : State) : List Act := s.sched.filter (fun a => a.kind == .snap)

/-- Do two FTs lie within 4,000 ns of each other? -/
def near4000 (a b : Nat) : Bool := decide (a < b + 4000) && decide (b < a + 4000)

/-- SNAP_AT (R449, R77). DEDUCED (log 130). -/
def snapAt (s : State) (ft : Nat) : Nat × State :=
  let t := if ft = 0 then s.ft else ft
  let st := if ft = 0 then (if s.pendingActs ≥ 1024 then 0x02 else 0) else s.ftTest ft
  if st ≠ 0 then (st, s)
  else if s.snaps.any (fun a => near4000 a.ft t) || (match s.snap.lastFt with | some l => near4000 l t | none => false) then
    (0x01, s)
  else (0, s.schedule t .snap)

/-! ### Sessions -/

/-- The run-time state of a session. -/
def State.trace (s : State) (i : Nat) : TraceRt := mgetD s.arc.tr i ⟨none, 0, 0, 0, 0, 0, 0, 0, [], [], 0, [], [], none⟩

/-- The run-time state of a session changed. -/
def State.modTrace (s : State) (i : Nat) (f : TraceRt → TraceRt) : State :=
  let s := { s with arc := { s.arc with tr := mput s.arc.tr i (f (s.trace i)) } }
  s.set (E.trace_queued.h i) (s.trace i).queue.length

/-- What keeps a session from opening (R454): 0 where nothing does. DEDUCED (log 132). -/
def State.traceCheck (s : State) (i : Nat) : Nat :=
  let h := s.get (E.trace_pool.h i)
  match s.liveH 3 h with
  | none => 0x03
  | some _ =>
    let p := hIdx h
    let (b, n) := s.bufArea p
    if s.get (E.pool_state.h p) ≠ 2 then 0x0C
    else if s.partOf 3 p ≠ s.partOf 7 i ∨ s.get (E.pool_buffer_size.h p) < 4096 then 0x06
    else match s.regionOf b with
      | some (2, _, hi) => if b + n ≤ hi then 0 else 0x06
      | some (3, _, hi) => if b + n ≤ hi then 0 else 0x06
      | _ => 0x06

/-- The header of a buffer (R455). -/
def traceHeader (s : State) (i : Nat) (t : TraceRt) : List Byte :=
  leBytes 8 t.first ++ leBytes 8 t.last ++ leBytes 4 (s.wordOf 7 i) ++ leBytes 4 t.bufSeq ++ leBytes 4 t.used ++
  leBytes 4 t.count ++ leBytes 4 t.lost ++ leBytes 28 0

/-! ### The Archive's traffic (R459, R460) -/

/-- Crossbar cells that the Archive has taken over the last 1,024 cell times (R459). -/
def State.arcCells (s : State) : Nat := sumBy (fun u => if s.cyc.n < u.1 + 1024 then u.2 else 0) s.arc.used

/-- The Archive takes crossbar cells. -/
def State.arcTake (s : State) (c : Nat) : State :=
  { s.inc E.archive_cells.s c with arc := { s.arc with
      used := s.arc.used.filter (fun u => decide (s.cyc.n < u.1 + 1024)) ++ [(s.cyc.n, c)] } }

/-- The crossbar port of a session's records, 90 or 91 (R21, R459). DESIGN CHOICE (log 132). -/
def arcPort (i : Nat) : Nat := 90 + i % 2

/-- The crossbar input where a record is made (R21, R459): the port group of its port, its engine, the die of its Mill, the Curator.
DEDUCED (log 187). -/
def recInput (kind source : Nat) : Nat :=
  if kind ≤ 3 ∧ source < 1024 then source / 16
  else if kind = 4 ∨ kind = 5 then 64 + source % 8
  else if kind = 6 ∧ source < 272 then jobPort [source]
  else 84

/-- Bytes for a buffer leave for Tier 1 (R459, R460): they cross from the Archive's crossbar port in ordinary matching, and take
effect where they arrive, beside the slots that `weir.t1_share` reserves (R430). -/
def State.arcWrite (s : State) (i buf addr : Nat) (bytes : List Byte) : State :=
  (pagePieces (bytes.length / 4096 + 2) addr bytes).foldl (fun st p =>
    let st := st.modTrace i fun t => { t with writes := mmod t.writes buf 0 (· + 1) }
    st.carry (.archiveWrite (st.wordOf 7 i) buf p.1) (arcPort i) (st.memInp p.1) 0 p.2.length p.2) s

/-- Full buffers are published in order, each once every write to it has taken effect (R455). -/
def State.publishFull (s : State) (i : Nat) : State :=
  let t := s.trace i
  let ready := t.full.takeWhile fun a => (mget? t.writes a).isNone
  if ready = [] then s
  else
    let s := (s.inc (E.trace_buffers.h i) ready.length).modTrace i fun t => { t with
      full := t.full.drop ready.length, queue := t.queue ++ ready }
    if s.get (E.trace_dest.h i) = 1 then ready.foldl (fun st _ => st.later .archiveRing) s else s

/-- The buffer being filled is full (R455): its header is written, and it is published after its writes. -/
def State.publish (s : State) (i : Nat) : State :=
  let t := s.trace i
  match t.buf with
  | none => s
  | some a =>
    let s := (s.arcTake 1).arcWrite i a a (traceHeader s i t)
    s.modTrace i fun t => { t with
      buf := none, used := 0, count := 0, lost := 0, bufSeq := t.bufSeq + 1, full := t.full ++ [a] }

/-- A session closes without its buffer (R456). -/
def State.traceEnd (s : State) (i : Nat) : State :=
  let s := s.modTrace i fun t => { t with buf := none, used := 0, count := 0, closing := none }
  if s.get (E.trace_state.h i) = 2 then (s.hset (E.trace_state.h i) 7 i 3).sub E.archive_sessions_open.s 1 else s

/-- The 32-byte header of a record (R457). -/
def recHeader (ft kind size source part layer op handle seq : Nat) : List Byte :=
  leBytes 8 ft ++ leBytes 1 kind ++ leBytes 1 (size / 16) ++ leBytes 2 source ++ leBytes 2 part ++ leBytes 2 layer ++
  leBytes 2 op ++ leBytes 2 0 ++ leBytes 4 handle ++ leBytes 4 seq ++ leBytes 4 0

/-- The number of a session's next record, a lost one counted too (R457). -/
def State.recNumber (s : State) (i : Nat) : Nat × State :=
  ((s.trace i).recSeq % 2 ^ 32, s.modTrace i fun t => { t with recSeq := t.recSeq + 1 })

/-- A record that finds room in the buffer being filled. -/
def State.putRecord (s : State) (i ft : Nat) (bytes : List Byte) : State :=
  let t := s.trace i
  match t.buf with
  | none => s
  | some a =>
    let s := (s.inc (E.trace_records.h i) 1).inc (E.trace_bytes.h i) bytes.length
    let s := s.modTrace i fun t => { t with
      used := t.used + bytes.length, count := t.count + 1, first := if t.count = 0 then ft else t.first, last := ft }
    s.arcWrite i a (a + t.used) bytes

/-- A record lost (R456, R459). -/
def State.loseRecord (s : State) (i : Nat) : State :=
  ((s.inc (E.trace_lost.h i) 1).modTrace i fun t => { t with lost := t.lost + 1 }).raise 768

/-- A buffer for a session (R455, R456): with records lost before, its first record is a loss marker. Answers whether the
session holds a buffer. -/
def State.traceBuffer (s : State) (i : Nat) : Bool × State :=
  let t := s.trace i
  let p := hIdx (s.get (E.trace_pool.h i))
  if 1024 ≤ t.queue.length then (false, s)
  else
    match poolTake s p with
    | (.error _, s) => (false, s)
    | (.ok a, s) =>
      let s := s.modTrace i fun t => { t with buf := some a, used := 64, count := 0 }
      if t.lost = 0 then (true, s)
      else
        let (seq, s) := s.recNumber i
        (true, (s.arcTake 1).putRecord i s.ft (recHeader s.ft 8 48 0xFFFF 0xFFFF 0 0 0 seq ++ leBytes 8 t.lost ++ leBytes 8 0))

/-- A record that the Archive has goes into the session's buffer; without one, R456 decides. -/
def State.keepRecord (s : State) (i ft : Nat) (bytes : List Byte) : State :=
  let size := s.get (E.pool_buffer_size.h (hIdx (s.get (E.trace_pool.h i))))
  let s := if (s.trace i).buf.isSome ∧ size < (s.trace i).used + bytes.length then s.publish i else s
  let (ok, s) := if (s.trace i).buf.isSome then (true, s) else s.traceBuffer i
  if ok then s.putRecord i ft bytes
  else if s.get (E.trace_full_action.h i) = 0 then s.loseRecord i
  else s.traceEnd i

/-- A window marker, which the Archive makes itself: 0 open, 1 close (R458). -/
def State.markWindow (s : State) (i ft what : Nat) : State :=
  let (seq, s) := s.recNumber i
  (s.arcTake 1).keepRecord i ft (recHeader ft 9 48 0xFFFF 0xFFFF 0 0 (s.wordOf 7 i) seq ++ leBytes 16 what)

/-- A close ends: its marker is the last record, and the buffer is published. -/
def State.traceFinish (s : State) (i : Nat) : State :=
  match (s.trace i).closing with
  | some ft => ((s.modTrace i fun t => { t with closing := none }).markWindow i ft 1).publish i
  | none => s

/-- A close that waits for records on their way ends with the last of them. DEDUCED (log 132). -/
def State.traceSettle (s : State) (i : Nat) : State := if (s.trace i).flying = 0 then s.traceFinish i else s

/-- A record has crossed to the Archive (R459). -/
def archiveRecord (s : State) (session : Nat) (b : List Byte) : State :=
  match s.liveH 7 session with
  | none => s
  | some _ =>
    let i := hIdx session
    let s := s.modTrace i fun t => { t with flying := t.flying - 1 }
    let s := if s.get (E.trace_state.h i) = 2 ∨ (s.trace i).closing.isSome then s.keepRecord i (leAt b 0 8) b
      else s.inc (E.trace_lost.h i) 1
    s.traceSettle i

/-- Bytes of a buffer have crossed to Tier 1 (R455, R459): the write takes effect, unless the buffer went back to its pool. -/
def archiveWritten (s : State) (session buf addr : Nat) (b : List Byte) : State :=
  match s.liveH 7 session with
  | none => s
  | some _ =>
    let i := hIdx session
    match mget? (s.trace i).writes buf with
    | none => s
    | some n =>
      ((s.store addr b).modTrace i fun t => { t with
        writes := if n ≤ 1 then mdel t.writes buf else mput t.writes buf (n - 1) }).publishFull i

/-- A record of an open session (R455 to R459): dropped at its source where it would pass the Archive's budget or its output
refuses it, else a packet of that source to the Archive. DEDUCED (log 132). -/
def State.emitRecord (s : State) (i kind source part layer op handle : Nat) (body : List Byte) : State :=
  let len := 32 + body.length
  let n := ceilDiv len 256
  let (seq, s) := s.recNumber i
  if s.get E.archive_budget.s * 196608 / 1000 < s.arcCells + 2 * n then (s.inc E.archive_budget_drops.s 1).loseRecord i
  else
    match s.admitInt (arcPort i) n with
    | none => (s.inc E.archive_budget_drops.s 1).loseRecord i
    | some s =>
      let s := (s.arcTake (2 * n)).modTrace i fun t => { t with flying := t.flying + 1 }
      let what := Inner.archive (s.wordOf 7 i) (decide (part < 4096) && s.weirPart part)
      s.join { mkPkt (.inner what (recHeader s.ft kind len source part layer op handle seq ++ body)) (recInput kind source)
        0xFFFF 8 0 n s.ft with out := 1024 + arcPort i }

/-- Does an event pass a session's selection (R458)? -/
def State.traceWants (s : State) (i kind part layer op port : Nat) : Bool :=
  let m := fun (f x : Nat) => f == 0xFFFF || f == x
  let k := s.get (E.trace_kinds.h i)
  s.get (E.trace_state.h i) == 2 && (bitAt k kind || decide (8 ≤ kind)) &&
  (decide (7 ≤ kind) || (m (s.get (E.trace_partition.h i)) part && m (s.get (E.trace_layer.h i)) layer &&
    m (s.get (E.trace_operator.h i)) op)) &&
  (decide (3 < kind) || (decide (port < 1024) && s.domBit E.trace_ports 0 i port))

/-- An event of R458 is shown to every open session; packets are thinned per port. -/
def traceEvent (s : State) (kind part layer op handle port : Nat) (body : List Byte) : State :=
  (s.liveIdx 7).foldl (fun st i =>
    if !st.traceWants i kind part layer op port then st
    else if kind = 1 then
      let n := mgetD (st.trace i).seen port 0 + 1
      if n < st.get (E.trace_packet_n.h i) then st.modTrace i fun t => { t with seen := mput t.seen port n }
      else (st.modTrace i fun t => { t with seen := mput t.seen port 0 }).emitRecord i kind port part layer op handle body
    else st.emitRecord i kind port part layer op handle body) s

/-- The open takes place (R454): the session is Open, its window marker written. -/
def State.traceGo (s : State) (i : Nat) : Nat × State :=
  let c := s.traceCheck i
  if c ≠ 0 then (c, s)
  else
    let s := ((s.traceFinish i).hset (E.trace_state.h i) 7 i 2).add E.archive_sessions_open.s 1
    (0, s.markWindow i s.ft 0)

/-- The close takes place (R454, R455): Closed; the window marker and the publication follow the records on their way. -/
def State.traceStop (s : State) (i : Nat) : State :=
  if s.get (E.trace_state.h i) = 2 then
    let s := (s.hset (E.trace_state.h i) 7 i 3).sub E.archive_sessions_open.s 1
    (s.modTrace i fun t => { t with closing := some s.ft }).traceSettle i
  else if s.get (E.trace_state.h i) = 1 then (s.unschedule (.traceOpen i)).hset (E.trace_state.h i) 7 i 3
  else s

/-- TRACE_OPEN_AT (R454, R77). -/
def traceOpenAt (s : State) (i ft : Nat) : Nat × State :=
  let wrong := s.get (E.trace_state.h i) != 0 && s.get (E.trace_state.h i) != 3
  if ft = 0 then (if wrong then (0x0C, s) else s.traceGo i)
  else
    let r := s.ftTestIn ft wrong
    let c := s.traceCheck i
    if r ≠ 0 then (r, s) else if c ≠ 0 then (c, s)
    else (0, (s.schedule ft (.traceOpen i)).hset (E.trace_state.h i) 7 i 1)

/-- TRACE_OPEN_FIRE (R454, R80): where the pool is no longer fit, the session is Closed. -/
def traceOpenFire (s : State) : State :=
  match s.dueAct with
  | some ⟨_, _, .traceOpen i⟩ =>
    let s := s.unschedule (.traceOpen i)
    match s.traceGo i with
    | (0, s) => s
    | (_, s) => s.hset (E.trace_state.h i) 7 i 3
  | _ => s

/-- TRACE_CLOSE_AT (R454, R77). -/
def traceCloseAt (s : State) (i ft : Nat) : Nat × State :=
  let wrong := s.get (E.trace_state.h i) != 1 && s.get (E.trace_state.h i) != 2
  if ft = 0 then (if wrong then (0x0C, s) else (0, (s.unschedule (.traceClose i)).traceStop i))
  else
    let r := s.ftTestIn ft wrong
    if r ≠ 0 then (r, s) else (0, (s.unschedule (.traceClose i)).schedule ft (.traceClose i))

/-- TRACE_CLOSE_FIRE (R454, R80). -/
def traceCloseFire (s : State) : State :=
  match s.dueAct with
  | some ⟨_, _, .traceClose i⟩ => (s.unschedule (.traceClose i)).traceStop i
  | _ => s

/-- TRACE_NEXT (R455): a read answers the oldest published buffer and removes it; 0 where there is none. -/
def traceNext (s : State) (i : Nat) : Nat × State :=
  match (s.trace i).queue with
  | a :: _ => (a, s.modTrace i fun t => { t with queue := t.queue.drop 1 })
  | [] => (0, s)

/-- The buffers that a session holds or queues go back to its pool; what was on its way to them has no effect. -/
def State.traceReturn (s : State) (i : Nat) : State :=
  let t := s.trace i
  let p := hIdx (s.get (E.trace_pool.h i))
  let l := t.queue ++ t.full ++ (match t.buf with | some a => [a] | none => [])
  let s := l.foldl (fun st a => (poolFree st p a).2) s
  s.modTrace i fun t => { t with buf := none, queue := [], full := [], writes := [], used := 0, count := 0, closing := none }

/-- A forced destroy of a session (R454). -/
def traceForce (s : State) (i : Nat) : State :=
  let s := (s.unschedule (.traceOpen i)).unschedule (.traceClose i)
  (s.traceReturn i).traceEnd i

/-- What a destroyed session leaves. -/
def traceDestroyed (s : State) (i : Nat) : State :=
  let s := (s.unschedule (.traceOpen i)).unschedule (.traceClose i)
  { s with arc := { s.arc with tr := mdel s.arc.tr i } }

/-- The sessions of a pool that failed, or is force-destroyed (R456). -/
def tracePoolLost (s : State) (p : Nat) (force : Bool) : State :=
  (s.liveIdx 7).foldl (fun st i =>
    if hIdx (st.get (E.trace_pool.h i)) ≠ p ∨ st.get (E.trace_state.h i) = 0 then st
    else
      let st := if force then st.traceReturn i else st
      if st.get (E.trace_state.h i) = 2 then st.traceEnd i
      else if force ∧ st.get (E.trace_state.h i) = 1 then (st.unschedule (.traceOpen i)).hset (E.trace_state.h i) 7 i 3
      else st) s

end Sys2Proof.Machine
end

