-- ==== Sys2Proof/Machine/Spring.lean ====
section
/-!
DEFINITION. Spring and Gauge (spec/17_spring_and_gauge.md, R463 to R474).
-/

namespace Sys2Proof.Machine

/-- The run-time state of a stream. -/
def State.stream (s : State) (i : Nat) : SpringRt := mgetD s.spring.rt i ⟨0, 0, false⟩

/-- Is the pool source of a stream valid (R467)? -/
def springPoolOk (s : State) (i : Nat) : Bool :=
  let h := s.get (E.spring_pool.h i)
  match s.liveH 3 h with
  | none => false
  | some r =>
    let p := hIdx h
    s.get (E.pool_state.h p) == 2 && r.part == s.partOf 5 i &&
    (match s.bufOf p (s.get (E.spring_payload_addr.h i)) with
     | some j => bitAt (s.bufWord p j) 31
     | none => false) &&
    decide (s.get (E.spring_payload_slots.h i) * s.get (E.spring_length.h i) ≤ s.get (E.pool_buffer_size.h p))

/-- The header of a stream's packets before the hop is taken (R466). -/
def springHeader (s : State) (i : Nat) : Rill :=
  let h := parseRill (leBytes 48 (s.get (E.spring_header.h i)))
  { h with hopPtr := 0, length := s.get (E.spring_length.h i), ret := [s.get (E.spring_return_bundle.h i), 0, 0, 0]
           hcrcOk := true }

/-- May a stream start (R464)? -/
def springOk (s : State) (i : Nat) : Bool :=
  let h := springHeader s i
  let b := h.route.getD 0 0
  let corrupt := s.get (E.spring_corrupt.h i)
  (corrupt != 0 || (headerOk h && roleAdmits 4 h.kind && payloadOk h)) &&
  h.hopCount != 0 && (s.members b).any (fun c => s.inService c.2) &&
  (corrupt == 0 || (s.members b).all (fun c => s.get (E.port_role.n c.2) == 4)) &&
  (!s.getB (E.spring_stamp.h i) || decide (16 ≤ h.length)) &&
  decide ((s.get (E.spring_burst.h i) - 1) * s.get (E.spring_spacing.h i) < s.get (E.spring_period.h i)) &&
  (s.get (E.spring_payload.h i) != 4 || springPoolOk s i)

/-- SPRING_START (R463, R464, R77). -/
def springStart (s : State) (i ft : Nat) : Nat × State :=
  let r := s.ftTestIn ft (s.get (E.spring_state.h i) != 0 && s.get (E.spring_state.h i) != 4)
  if r ≠ 0 then (r, s)
  else if !springOk s i then (0x06, s)
  else (0, (s.schedule ft (.springStart i)).hset (E.spring_state.h i) 5 i 1)

/-- SPRING_START_ON_LAUNCH (R463, R464). -/
def springBind (s : State) (i v : Nat) : Nat × State :=
  let st := s.get (E.spring_state.h i)
  if v = 0 then (0, s)
  else if st ≠ 0 ∧ st ≠ 4 then (0x0C, s)
  else if !springOk s i then (0x06, s)
  else (0, s.hset (E.spring_state.h i) 5 i 2)

/-- A stream ends with a status (R463, R467): its share is freed unless it is dropped. -/
def springDone (s : State) (i status : Nat) (freeShare : Bool) : State :=
  let p := hIdx (s.get (E.spring_pool.h i))
  let s := if (s.stream i).share && freeShare then (poolFree s p (s.get (E.spring_payload_addr.h i))).2 else s
  let s := { s with spring := { s.spring with rt := mdel s.spring.rt i } }
  (s.set (E.spring_stop_status.h i) status).hset (E.spring_state.h i) 5 i 4

/-- A stream starts Running, anchored at this FT; it shares its payload buffer (R465, R467). -/
def springGo (s : State) (i : Nat) : State :=
  let start := fun (s : State) (share : Bool) =>
    let s := { s with spring := { s.spring with rt := mput s.spring.rt i ⟨s.ft, 0, share⟩ } }
    (s.set (E.spring_next_seq.h i) 0).hset (E.spring_state.h i) 5 i 3
  if s.get (E.spring_payload.h i) = 4 then
    match poolShare s (hIdx (s.get (E.spring_pool.h i))) (s.get (E.spring_payload_addr.h i)) with
    | (0, s) => start s true
    | (_, s) => springDone s i 0x0C false
  else start s false

/-- SPRING_START_FIRE (R463, R80). -/
def springStartFire (s : State) : State :=
  match s.dueAct with
  | some ⟨_, _, .springStart i⟩ => springGo (s.unschedule (.springStart i)) i
  | _ => s

/-- Bound streams start with a launch (R463). -/
def springsLaunch (s : State) : State :=
  (s.liveIdx 5).foldl (fun st i => if st.get (E.spring_state.h i) = 2 then springGo st i else st) s

/-- SPRING_STOP (R463). -/
def springStop (s : State) (i v : Nat) : Nat × State :=
  let st := s.get (E.spring_state.h i)
  if v = 0 then (0, s)
  else if st = 0 ∨ st = 4 then (0x0C, s)
  else (0, springDone (s.unschedule (.springStart i)) i 0x0B true)

/-- The FT at which packet k of a stream is due (R465). -/
def springDue (s : State) (i k : Nat) : Nat :=
  let b := max 1 (s.get (E.spring_burst.h i))
  (s.stream i).anchor + k / b * s.get (E.spring_period.h i) + k % b * s.get (E.spring_spacing.h i)

/-- Byte i of a generated payload (R467), sources 0 to 3, as the first len bytes. -/
def patternBytes (source word seq len : Nat) : List Byte :=
  match source with
  | 0 => List.replicate len 0
  | 1 => (List.range len).map fun i => BitVec.ofNat 8 (i + seq)
  | 2 => let seed := (word ^^^ seq) % 2 ^ 31
         prbsBytes (if seed = 0 then 1 else seed) len
  | _ => (List.range len).map fun i => BitVec.ofNat 8 (word / 2 ^ (8 * (i % 4)))

/-- The payload of packet seq of a stream: the source, then the stamp over bytes 15:0 (R466, R467). -/
def springPayload (s : State) (i seq : Nat) : List Byte × State :=
  let len := s.get (E.spring_length.h i)
  let src := s.get (E.spring_payload.h i)
  let (b, s) :=
    if src = 4 then
      s.load (s.get (E.spring_payload_addr.h i) + seq % max 1 (s.get (E.spring_payload_slots.h i)) * len) len
    else (patternBytes src (s.get (E.spring_word.h i)) seq len, s)
  if s.getB (E.spring_stamp.h i) then
    (leBytes 4 (s.wordOf 5 i) ++ leBytes 4 seq ++ leBytes 8 s.ft ++ b.drop 16, s)
  else (b, s)

/-- The packet that a stream creates (R466, R468). DEDUCED (log 135). -/
def springBuild (s : State) (i : Nat) : Pkt × State :=
  let seq := s.get (E.spring_next_seq.h i)
  let h := springHeader s i
  let (b, s) := springPayload s i seq
  let c := s.get (E.spring_corrupt.h i)
  let bundle := h.route.getD 0 0
  let h := { h with hopPtr := 1, hcrcOk := c != 1 }
  let b := if c = 3 then b.take (max 16 (b.length - 64)) else b
  ({ mkPkt (.rill h b) 88 0xFFFF 8 bundle (ceilDiv (48 + b.length) 256) s.ft with stomp := c == 2 }, s)

/-- The lowest-indexed Running stream with a packet due (R465). DEDUCED (log 135). -/
def springNext (s : State) : Option Nat :=
  (s.liveIdx 5).find? fun i => s.get (E.spring_state.h i) == 3 && decide (springDue s i (s.stream i).made ≤ s.ft)

/-- SPRING_PACKET_CREATE (R465 to R468): at most one packet per core cycle. DEDUCED (log 135). -/
def springPacketCreate (s : State) : State :=
  if s.spring.lastCyc = some s.cyc.n then s
  else
    match springNext s with
    | none => s
    | some i =>
      let due := springDue s i (s.stream i).made
      let late := decide (due < s.ft) || (s.spring.lastCyc.isSome && s.spring.lastDue == due)
      let (p, s) := springBuild s i
      let s := { s with spring := { s.spring with
        wait := s.spring.wait ++ [(⟨i, s.cyc.n, p⟩ : SpringPkt)], lastCyc := some s.cyc.n, lastDue := due
        rt := mput s.spring.rt i { s.stream i with made := (s.stream i).made + 1 } } }
      let s := (s.inc (E.spring_sent.h i) 1).inc (E.spring_bytes.h i) (48 + s.get (E.spring_length.h i))
      let s := if late then s.inc (E.spring_late.h i) 1 else s
      let s := s.set (E.spring_next_seq.h i) ((s.get (E.spring_next_seq.h i) + 1) % 2 ^ 32)
      if s.get (E.spring_count.h i) = (s.stream i).made then springDone s i 0 true else s

/-- Spring's created packets are placed two core cycles after creation; a refused one is held with those of its stream
behind it, and tested again on each cell time (R466). -/
def springPlace (s : State) : State :=
  let l := s.spring.wait
  let s := { s with spring := { s.spring with wait := [] } }
  (l.foldl (fun (acc : List Nat × State) (w : SpringPkt) =>
    let keep := fun (s : State) => { s with spring := { s.spring with wait := s.spring.wait ++ [w] } }
    if acc.2.cyc.n < w.cyc + 2 || acc.1.contains w.slot then (acc.1, keep acc.2)
    else match acc.2.tryInternal w.pkt with
      | some s => (acc.1, s)
      | none =>
        let s := keep (acc.2.inc (E.spring_held.h w.slot) 1)
        (w.slot :: acc.1, if acc.1 = [] then s.inc (E.internal_held.n 24) 1 else s)) ([], s)).2

/-- The streams of a pool that failed (status 0x0C, the share dropped) or is force-destroyed (0x0B, freed first). -/
def springPoolLost (s : State) (p : Nat) (force : Bool) : State :=
  (s.liveIdx 5).foldl (fun st i =>
    if st.get (E.spring_state.h i) = 3 ∧ st.get (E.spring_payload.h i) = 4 ∧ hIdx (st.get (E.spring_pool.h i)) = p then
      springDone st i (if force then 0x0B else 0x0C) force
    else st) s

/-- A forced destroy of a stream (R463). -/
def springForce (s : State) (i : Nat) : State :=
  let st := s.get (E.spring_state.h i)
  if st = 1 ∨ st = 2 ∨ st = 3 then springDone (s.unschedule (.springStart i)) i 0x0B true else s

/-! ### Gauge -/

/-- GAUGE_ENABLE (R469): 1 makes the check Active with its statistics cleared, 0 returns it to Created. -/
def gaugeEnable (s : State) (i v : Nat) : State :=
  if v = 0 then s.hset (E.gauge_state.h i) 6 i 0
  else
    let s := [E.gauge_expected, E.gauge_missing, E.gauge_latency_max, E.gauge_latency_sum, E.gauge_received,
      E.gauge_out_of_order, E.gauge_duplicates, E.gauge_stale, E.gauge_payload_errors, E.gauge_bit_errors,
      E.gauge_negative, E.gauge_copy_lost].foldl (fun st e => st.set (e.h i) 0) s
    let s := s.set (E.gauge_latency_min.h i) 0xFFFFFFFF
    let s := (List.range 12).foldl (fun st k => st.set (E.gauge_rule.hk i k) 0) s
    let s := s.domPut E.gauge_histogram 0 i 0 (List.replicate 512 0)
    let s := { s with spring := { s.spring with seen := mdel s.spring.seen i } }
    s.hset (E.gauge_state.h i) 6 i 1

/-- A frame as Gauge sees it: port, header, the bytes after the header as they came, how the frame ended (0 good, 1 bad,
2 stomped), idle bytes before it, and the FT of its start block. -/
structure GFrame where
  tap : Nat
  port : Nat
  h : Rill
  first : List Byte
  rest : List Byte
  ending : Nat
  idle : Nat
  at_ : Nat

/-- The payload of a frame: what the length field names, as far as it arrived. -/
def GFrame.payload (f : GFrame) : List Byte := f.rest.take f.h.length

/-- The check that a frame goes to (R470). -/
def gaugeFor (s : State) (f : GFrame) : Option Nat :=
  (s.liveIdx 6).find? fun i =>
    let port := s.get (E.gauge_port.h i)
    let part := s.get (E.gauge_partition.h i)
    let str := s.get (E.gauge_stream.h i)
    s.get (E.gauge_state.h i) == 1 && s.get (E.gauge_tap.h i) == f.tap &&
    (port == f.port || (port == 0xFFFF && f.tap == 0)) && (part == 0xFFFF || part == f.h.partition) &&
    bitAt (s.get (E.gauge_kinds.h i)) f.h.kind &&
    (str == 0 || (decide (16 ≤ f.payload.length) && leAt f.payload 0 4 == str))

/-- The sequence test (R471). -/
def gaugeSequence (s : State) (i seq : Nat) : State :=
  let m := 2 ^ 32
  let e := s.get (E.gauge_expected.h i)
  let seen := mgetD s.spring.seen i 0
  let ahead := (seq + m - e) % m
  let put := fun (s : State) (n : Nat) => { s with spring := { s.spring with seen := mput s.spring.seen i n } }
  let miss := s.get (E.gauge_missing.h i)
  if ahead < 2 ^ 31 then
    let s := (s.set (E.gauge_expected.h i) ((seq + 1) % m)).set (E.gauge_missing.h i) ((miss + ahead) % 2 ^ 64)
    put s (if ahead < 63 then setBitAt (seen * 2 ^ (ahead + 1) % 2 ^ 64) 0 else 1)
  else
    let back := m - ahead
    if 64 < back then s.inc (E.gauge_stale.h i) 1
    else if bitAt seen (back - 1) then s.inc (E.gauge_duplicates.h i) 1
    else put ((s.inc (E.gauge_out_of_order.h i) 1).set (E.gauge_missing.h i) ((miss + 2 ^ 64 - 1) % 2 ^ 64))
      (setBitAt seen (back - 1))

/-- A bin of a check's histogram counts. -/
def gaugeBin (s : State) (i k : Nat) : State :=
  let n := s.domLe E.gauge_histogram 0 i (8 * k) 8
  s.domPut E.gauge_histogram 0 i (8 * k) (leBytes 8 (n + 1))

/-- The latency test (R471). -/
def gaugeLatency (s : State) (i at_ stamp : Nat) : State :=
  if at_ < stamp then gaugeBin (s.inc (E.gauge_negative.h i) 1) i 0
  else
    let l := at_ - stamp
    let s := s.set (E.gauge_latency_min.h i) (min (s.get (E.gauge_latency_min.h i)) l)
    let s := s.set (E.gauge_latency_max.h i) (min 0xFFFFFFFF (max (s.get (E.gauge_latency_max.h i)) l))
    let s := s.set (E.gauge_latency_sum.h i) ((s.get (E.gauge_latency_sum.h i) + l) % 2 ^ 64)
    gaugeBin s i (min 63 (l / max 1 (s.get (E.gauge_bin_ns.h i))))

/-- A flag of a check, with its source. -/
def gaugeFlag (s : State) (i b : Nat) : State := (s.stick (E.gauge_flags.h i) b).raise 832

/-- The payload test (R471). -/
def gaugePayload (s : State) (i seq : Nat) (payload : List Byte) : State :=
  let want := (patternBytes (s.get (E.gauge_pattern.h i)) (s.get (E.gauge_word.h i)) seq payload.length).drop 16
  let wrong := sumBy (fun (p : Byte × Byte) => popCount 8 (p.1.toNat ^^^ p.2.toNat)) (want.zip (payload.drop 16))
  if wrong = 0 then s
  else gaugeFlag ((s.inc (E.gauge_payload_errors.h i) 1).inc (E.gauge_bit_errors.h i) wrong) i 1

/-- The conformance rules that a frame breaks (R472), rising. -/
def gaugeBroken (s : State) (f : GFrame) : List Nat :=
  let h := f.h
  let role := s.get (E.port_role.n f.port)
  let used := min h.length f.rest.length
  (List.range 13).filter fun r =>
    match r with
    | 1 => !headerOk h
    | 2 => !roleAdmits role h.kind
    | 3 => !payloadOk h || f.first.length + f.rest.length != max 64 (48 + h.length)
    | 4 => h.lifetime == 0 || decide (s.get (E.rill_lifetime_max.k (role - 1)) < h.lifetime)
    | 5 => h.hopPtr == 0 && h.ret.any (· != 0)
    | 6 => (f.rest.drop used).any (· != 0) && decide (h.length < 16)
    | 7 => h.kind != 7 && !kindWordsOk h
    | 8 => h.kind == 4 && (h.w8 % 256 != 0 || h.length % 256 != 0)
    | 9 => !s.domBit E.rill_partition_sets 0 0 (4096 * f.port + h.partition)
    | 10 => f.ending == 1
    | 11 => f.ending == 2
    | 12 => f.tap == 1 && decide (f.idle < 8)
    | _ => false

/-- The conformance test (R472). -/
def gaugeConform (s : State) (i : Nat) (f : GFrame) : State :=
  match gaugeBroken s f with
  | [] => s
  | r :: rs =>
    let clear := !bitAt (s.get (E.gauge_flags.h i)) 0
    let s := (r :: rs).foldl (fun st k => st.inc (E.gauge_rule.hk i (k - 1)) 1) s
    let s := if clear then s.set (E.gauge_first.h i)
      (ofLe (leBytes 1 r ++ leBytes 7 0 ++ leBytes 8 s.ft ++ f.first)) else s
    gaugeFlag s i 0

/-- A check runs its tests on a frame (R471). DEDUCED (log 136). -/
def gaugeRun (s : State) (i : Nat) (f : GFrame) : State :=
  let tests := s.get (E.gauge_tests.h i)
  let p := f.payload
  let seq := leAt p 4 4
  let s := s.inc (E.gauge_received.h i) 1
  let s := if decide (p.length < 16) then s
    else
      let s := if bitAt tests 0 then gaugeSequence s i seq else s
      let s := if bitAt tests 1 then gaugeLatency s i f.at_ (leAt p 8 8) else s
      if bitAt tests 2 then gaugePayload s i seq p else s
  if bitAt tests 3 then gaugeConform s i f else s

/-- A copy for Gauge (R470): a packet of the port's crossbar input to output 89, charged there as green, class 0, or lost. -/
def gaugeCopy (s : State) (f : GFrame) : State :=
  match gaugeFor s f with
  | none => s
  | some i =>
    let need := max 1 (ceilDiv (f.first.length + f.rest.length) 256)
    match s.admitInt 89 need with
    | none => s.inc (E.gauge_copy_lost.h i) 1
    | some s =>
      let what := Inner.gauge (s.wordOf 6 i) f.tap f.port f.ending f.idle f.at_
      s.join { mkPkt (.inner what (f.first ++ f.rest)) (f.port / 16) f.port 0 0 need s.ft with out := 1024 + 89 }

/-- A copy has crossed to Gauge: its check runs on it, while the check is Active. -/
def gaugeCopied (s : State) (check : Nat) (f : GFrame) : State :=
  match s.liveH 6 check with
  | none => s
  | some _ => if s.get (E.gauge_state.h (hIdx check)) = 1 then gaugeRun s (hIdx check) f else s

/-- The frame that bytes show, for a port and tap. -/
def gFrame (tap port : Nat) (bytes : List Byte) (ending idle at_ : Nat) : GFrame :=
  ⟨tap, port, parseRill bytes, bytes.take 48, bytes.drop 48, ending, idle, at_⟩

/-- Tap 2: the first byte of a frame leaves a port (Todo.gaugeTx). DEDUCED (log 136). -/
def gaugeTransmit (s : State) (port : Nat) (b : Body) (stomped : Bool) : State :=
  match b with
  | .rill h p => gaugeCopy s (gFrame 2 port (padTo64 (rillBytes h ++ p)) (if stomped then 2 else 0) 8 s.ft)
  | _ => s

/-- Tap 1: a Rill frame ended on a port. DEDUCED (log 136). -/
def gaugeReceive (s : State) (port : Nat) (bytes : List Byte) (ending idle startFt : Nat) : State :=
  gaugeCopy s (gFrame 1 port bytes ending idle startFt)

/-- Tap 0: does a check claim a packet whose route ends here? -/
def gaugeClaims (s : State) (port : Nat) (h : Rill) (payload : List Byte) : Option Nat :=
  gaugeFor s ⟨0, port, h, rillBytes h, payload, 0, 8, 0⟩

/-- Tap 0: a claimed packet, or the copy of one that goes to its own end point. -/
def gaugeTerminate (s : State) (port : Nat) (h : Rill) (payload : List Byte) (startFt : Nat) : State :=
  let f : GFrame := ⟨0, port, h, rillBytes h, payload ++ List.replicate (16 - min 16 payload.length) 0, 0, 8, startFt⟩
  if h.kind = 0 then
    match gaugeFor s f with
    | some i => gaugeRun s i f
    | none => s
  else gaugeCopy s f

/-- What a destroyed check leaves. -/
def gaugeDestroyed (s : State) (i : Nat) : State := { s with spring := { s.spring with seen := mdel s.spring.seen i } }

end Sys2Proof.Machine
end

