-- ==== Sys2Proof/Machine/Sessions.lean ====
section
/-!
DEFINITION. Sessions and transactions as objects: closing, aborting, failing (spec/02_catalogue.md, R37, R49 to R53), the
restart of the general cores (R476, R477), and SESSION_OPEN (R484).
-/

namespace Sys2Proof.Machine

/-- The Curator's service changed. -/
def State.modMgmt (s : State) (f : MgmtSt → MgmtSt) : State := { s with mgmt := f s.mgmt }

/-- The owner number of a port's implicit session (R601). -/
def portOwner (n : Nat) : Nat := 2 ^ 32 + n

/-- A transaction's reserved indices return to free (R53). -/
def State.releaseHolds (s : State) (id : Nat) : State :=
  { s with hs := { s.hs with held := s.hs.held.filter (fun p => p.2 ≠ id) } }

/-- A transaction is discarded: its reservations and its pending commit go (R51, R53). DEDUCED (log 30). -/
def State.dropTx (s : State) (id : Nat) : State :=
  ((s.releaseHolds id).unschedule (.commit id)).modMgmt fun m => { m with txs := m.txs.filter (fun x => x.id ≠ id) }

/-- A session's transactions when it closes (R53): open ones abort, ended ones are discarded, scheduled ones still
commit. -/
def State.ownerClosed (s : State) (owner : Nat) : State :=
  (s.mgmt.txs.filter (fun x => x.owner = owner ∧ x.state ≠ 1)).foldl (fun st x => st.dropTx x.id) s

/-- A session closes (R53). -/
def State.closeSession (s : State) (id : Nat) : State :=
  (s.modMgmt fun m => { m with sessions := m.sessions.filter (fun x => x.id ≠ id) }).ownerClosed id

/-- Every session of a transport closes. -/
def State.closeVia (s : State) (via : Transport) : State :=
  (s.mgmt.sessions.filter (fun x => x.via = via)).foldl (fun st x => st.closeSession x.id) s

/-- The implicit session of a port closes (R601). -/
def State.controlClose (s : State) (n : Nat) : State :=
  (s.ownerClosed (portOwner n)).modMgmt fun m => { m with views := m.views.filter (· != portOwner n) }

/-- The general cores restart (R477): every session closes, every open or scheduled transaction fails and, with its session
closed, is discarded; the service is not ready. -/
def State.restartCores (s : State) : State :=
  let s := s.mgmt.txs.foldl (fun st x => st.dropTx x.id) s
  let s := s.modMgmt fun m => { m with sessions := [], views := [], parked := [], late := [], mctpOut := [], restarting := true }
  (s.set E.device_ready.s 0).inc E.curator_restarts.s 1

/-- CURATOR_SAFETY_MISMATCH (R476). -/
def curatorMismatch (s : State) : State := s.raise 0

/-- CURATOR_WATCHDOG_RESTART (R476, R477). -/
def curatorWatchdog (s : State) : State := s.restartCores.raise 1

/-- CURATOR_READY (R477): the restarted firmware is ready. -/
def curatorReady (s : State) : State :=
  if s.mgmt.restarting then
    (s.set E.device_ready.s 1).modMgmt fun m => { m with restarting := false, fwWatch := none }
  else s

/-- TX_INACTIVITY_TIMEOUT (R53): an open transaction with no activity for 10 s is aborted. DEDUCED (log 30). -/
def txInactivity (s : State) (id : Nat) : State :=
  match s.mgmt.txs.find? (fun x => x.id = id) with
  | some x => if x.state = 0 ∧ x.active + 10000000000 ≤ s.ft then s.dropTx id else s
  | none => s

/-- QUARANTINE_END (R44): the quiet interval of a destroyed index has ended. -/
def quarantineEnd (s : State) (t i : Nat) : State :=
  match mget? s.hs.quar (t * 2 ^ 20 + i) with
  | some ft => if ft ≤ s.ft then { s with hs := { s.hs with quar := mdel s.hs.quar (t * 2 ^ 20 + i) } } else s
  | none => s

/-- CREATION_QUIET_END (R46): creation opens one quiet interval after chip reset. -/
def creationQuietEnd (s : State) : State :=
  if s.hs.openAt ≤ s.ft then { s with hs := { s.hs with openAt := 0 } } else s

/-! ### SESSION_OPEN -/

/-- The key of a role, or of a partition for a Tenant, as 32 bytes; none where it is unset (R483). While the state is
Provisioned an unset Owner key counts as zeros; the secret store lists no key for Factory, whose key is a free value.
DESIGN CHOICE (log 164). -/
def State.roleKey (s : State) (role part : Nat) : Option (List Byte) :=
  let set := s.get E.sec_keys_set.s
  if role = 0 then some (leBytes 32 Config.factoryKey)
  else if role = 1 then
    if bitAt set 0 then some (leBytes 32 (s.get E.sec_owner_key.s))
    else if s.get E.lc_state.s = 2 then some (List.replicate 32 0) else none
  else if role = 2 then if bitAt set 1 then some (leBytes 32 (s.get E.sec_operator_key.s)) else none
  else if role = 4 then if bitAt set 2 then some (leBytes 32 (s.get E.sec_observer_key.s)) else none
  else if role = 3 then
    if (List.range 32).any (fun i => (mget? s.cat (E.sec_tenant_keys.loc 0 0 0 (32 * part + i)).key).isSome) then
      some ((List.range 32).map fun i => BitVec.ofNat 8 (s.dom E.sec_tenant_keys 0 0 (32 * part + i)))
    else none
  else none

/-- The offset of the open counter of a role or partition (R500). -/
def counterOff (role part : Nat) : Nat := if role = 3 then 32 + 8 * part else 8 * (role - 1)

/-- The ASCII codes of the strings of R484. -/
def strOpen : List Byte := [0x46, 0x4E, 0x37, 0x2D, 0x4F, 0x50, 0x45, 0x4E]
/-- "FN7-ACPT". -/
def strAccept : List Byte := [0x46, 0x4E, 0x37, 0x2D, 0x41, 0x43, 0x50, 0x54]
/-- "FN7-SKEY". -/
def strKey : List Byte := [0x46, 0x4E, 0x37, 0x2D, 0x53, 0x4B, 0x45, 0x59]

/-- May a role be reached by SESSION_OPEN on a transport (R35, R37)? -/
def roleReachable (s : State) (via : Transport) (role : Nat) : Bool :=
  (role != 0 || s.get E.lc_state.s == 1) &&
  match via with
  | .mctp => true
  | .udp => role == 1 || role == 2 || role == 4
  | .mailbox => role == 2 || role == 3 || role == 4
  | .control _ => false

/-- Failures within the last 60 s after one more; at 16 a lockout begins (R484). -/
def State.openFailed (s : State) : State :=
  let fs := s.ft :: s.mgmt.failures.filter (fun t => s.ft < t + 60000000000)
  let s := (s.modMgmt fun m => { m with failures := fs }).inc E.sec_open_failures.s 1
  if 16 ≤ fs.length ∧ s.mgmt.lockAt.isNone then
    ((s.modMgmt fun m => { m with lockAt := some s.ft, failures := [] }).set E.sec_lockout.s 1).raise 897
  else s

/-- SESSION_OPEN judged (R484): a status, the response data, and the state. DEDUCED (log 33, 35);
DESIGN CHOICE (log 41, 164). -/
def sessionOpen (s : State) (r : Req) (d : List Byte) : Nat × List Byte × State :=
  let role := leAt d 0 1
  let part := leAt d 2 2
  let counter := leAt d 4 8
  let nonceC := slice d 12 16
  if s.mgmt.lockAt.isSome then (0x01, [], s)
  else if d.length ≠ 60 then (0x07, [], s)
  else if 4 < role ∨ (role = 3 ∧ 4095 < part) ∨ leAt d 1 1 ≠ 0 ∨ (role ≠ 3 ∧ part ≠ 0) then (0x06, [], s)
  else if !roleReachable s r.via role then (0x05, [], s)
  else
    match s.roleKey role part with
    | none => (0x05, [], s.openFailed)
    | some k =>
      let proof := hmac k (strOpen ++ leBytes 16 Config.serial ++ d.take 12 ++ nonceC)
      let off := counterOff role part
      if slice d 28 32 ≠ proof ∨ (role ≠ 0 ∧ counter ≤ s.domLe E.sec_open_counter 0 0 off 8) then (0x05, [], s.openFailed)
      else if 64 ≤ s.mgmt.sessions.length then (0x02, [], s)
      else
        let s := if role = 0 then s else s.domPut E.sec_open_counter 0 0 off (leBytes 8 counter)
        let (n, s) := s.fresh (2 ^ 128)
        let nonceD := leBytes 16 n
        let id := s.mgmt.nextSession
        let x : Session := { id := id, via := r.via, src := r.src, role := role, part := if role = 3 then part else 0xFFFF
                             key := hmac k (strKey ++ nonceC ++ nonceD), masks := [], subVia := r.src, queued := 0
                             noteCount := 0, snapView := false, hiTag := r.tag, kept := [] }
        let s := s.modMgmt fun m => { m with
          sessions := m.sessions ++ [x], nextSession := if id + 1 < 2 ^ 32 then id + 1 else 1 }
        (0, leBytes 4 id ++ nonceD ++ hmac k (strAccept ++ leBytes 4 id ++ nonceC ++ nonceD), s)

/-- SESSION_LOCKOUT_END (R484). -/
def lockoutEnd (s : State) : State :=
  match s.mgmt.lockAt with
  | some t => if t + 60000000000 ≤ s.ft then (s.modMgmt fun m => { m with lockAt := none }).set E.sec_lockout.s 0 else s
  | none => s

end Sys2Proof.Machine
end

