-- ==== Sys2Proof/Machine/PortCode.lean ====
section
/-!
DEFINITION. The coding of the lane ports (spec/05_ports_and_lanes.md, R114, R115, R117, R118): the CRC-32 that ends a frame, the
64B/66B blocks of a frame, the 257-bit transcoded blocks, their dealing to the lanes, and the two Reed-Solomon codes. What the spec
takes from IEEE 802.3 (the block types, the transcode, the field polynomial and the generator) is PRESUMED (log 183).
-/

namespace Sys2Proof.Machine

/-! ### The check of a frame (R117, R118) -/

/-- The 32 bits that end a frame: the CRC-32 over its bytes, inverted where the frame is stomped (R117, R118). -/
def frameCrc (b : List Byte) (stomped : Bool) : Nat := if stomped then 0xFFFFFFFF - crc32 b else crc32 b

/-- How a frame ended (R117, R118): 0 with its CRC, 2 with the inverted CRC of a stomped one, 1 with any other. -/
def endingOf (b : List Byte) (check : Nat) : Nat :=
  if check = frameCrc b false then 0 else if check = frameCrc b true then 2 else 1

/-! ### Blocks (R118) -/

/-- Whole blocks of eight bytes, and what is left. -/
def dataBlocks : Nat → List Byte → List (Bool × Nat) × List Byte
  | 0, b => ([], b)
  | k + 1, b =>
    if b.length < 8 then ([], b)
    else
      let (l, r) := dataBlocks k (b.drop 8)
      ((false, ofLe (b.take 8)) :: l, r)

/-- The block type of a terminate block that carries r bytes. PRESUMED (log 183). -/
def terminateType (r : Nat) : Nat := [0x87, 0x99, 0xAA, 0xB4, 0xCC, 0xD2, 0xE1, 0xFF].getD r 0x87

/-- The blocks of a byte string (R118): a start block of type 0x78 with the first 7 bytes, data blocks, a terminate block with the
rest. The mark says that a block is a control block. -/
def blocksOf (b : List Byte) : List (Bool × Nat) :=
  let (l, r) := dataBlocks (b.length + 1) (b.drop 7)
  (true, ofLe ((0x78 : Byte) :: b.take 7)) :: (l ++ [(true, ofLe (BitVec.ofNat 8 (terminateType r.length) :: r))])

/-- The blocks of a frame on its port (R118, R120): a Rill packet from its first header byte, an Ethernet frame after its preamble
and delimiter, each with its CRC-32, sent least significant byte first. -/
def frameBlocks (body : Body) (stomped : Bool) : List (Bool × Nat) :=
  match body with
  | .rill h p =>
    let b := padTo64 (rillBytes h ++ p)
    blocksOf (b ++ leBytes 4 (frameCrc b stomped))
  | .eth b => blocksOf (List.replicate 6 0x55 ++ [0xD5] ++ b ++ leBytes 4 (frameCrc b stomped))
  | .inner _ _ => []

/-! ### The 257-bit blocks (R114) -/

/-- Four blocks as one of 257 bits: a first bit 1 and the four data words, or a first bit 0, four bits that mark the data
blocks, and the words with the second half of the first control block's type left out. PRESUMED (log 183). -/
def transcode (bs : List (Bool × Nat)) : Nat :=
  let word := fun i => (bs.getD i (false, 0)).2 % 2 ^ 64
  let ctrl := fun i => (bs.getD i (false, 0)).1
  if !ctrl 0 && !ctrl 1 && !ctrl 2 && !ctrl 3 then
    1 + (word 0 + word 1 * 2 ^ 64 + word 2 * 2 ^ 128 + word 3 * 2 ^ 192) * 2
  else
    let marks := sumBy (fun i => if ctrl i then 0 else 2 ^ i) [0, 1, 2, 3]
    let c := ([0, 1, 2, 3].find? ctrl).getD 0
    let cut := fun i => if i = c then word i % 16 + word i / 256 * 16 else word i
    let width := fun i => if i = c then 60 else 64
    let (v, _) := [0, 1, 2, 3].foldl (fun (acc : Nat × Nat) i => (acc.1 + cut i * 2 ^ acc.2, acc.2 + width i)) (0, 0)
    marks * 2 + v * 2 ^ 5

/-- Block i of a port goes to lane i mod w, counted from its lowest active lane (R115): the blocks of lane k. -/
def dealtTo (w k : Nat) (blocks : List Nat) : List Nat :=
  (List.range blocks.length).filterMap fun i => if i % max 1 w = k then blocks[i]? else none

/-- The 257 data symbols that ten 257-bit blocks make (R114), the first bits first. -/
def dataSymbols (ten : List Nat) : List Nat :=
  let v := (ten.take 10).foldr (fun b acc => b % 2 ^ 257 + acc * 2 ^ 257) 0
  (List.range 257).map fun i => v / 2 ^ (10 * i) % 1024

/-! ### The Reed-Solomon codes (R115) -/

/-- A product in GF(2^10), by the bits of the second factor. -/
def gfMulN : Nat → Nat → Nat → Nat
  | 0, _, _ => 0
  | k + 1, a, b =>
    let a2 := if a * 2 < 1024 then a * 2 else (a * 2) ^^^ 1033
    (if b % 2 = 1 then a else 0) ^^^ gfMulN k a2 (b / 2)

/-- The product in GF(2^10) with field polynomial x^10 + x^3 + 1. PRESUMED (log 183). -/
def gfMul (a b : Nat) : Nat := gfMulN 10 a b

/-- A power of an element. -/
def gfPow (a : Nat) : Nat → Nat
  | 0 => 1
  | k + 1 => gfMul a (gfPow a k)

/-- The inverse of an element: its power 1,022. -/
def gfInv (a : Nat) : Nat :=
  -- 1022 = 2 + 4 + … + 512
  (List.range 9).foldl (fun (acc : Nat × Nat) _ => let q := gfMul acc.2 acc.2; (gfMul acc.1 q, q)) (1, a) |>.1

/-- Parity symbols of a code: 15 for RS(272,257), 30 for RS(544,514). -/
def fecParity (fec : Nat) : Nat := if fec = 1 then 15 else 30

/-- Symbols of a codeword. -/
def fecLength (fec : Nat) : Nat := if fec = 1 then 272 else 544

/-- The symbols that a code corrects in a codeword: 7 for RS(272,257), 15 for RS(544,514) (R115). -/
def fecLimit (fec : Nat) : Nat := fecParity fec / 2

/-- The generator polynomial, highest power first: the product of x + α^i for i below the parity count. -/
def fecGenerator (parity : Nat) : List Nat :=
  (List.range parity).foldl (fun g i =>
    let r := gfPow 2 i
    ((g ++ [0]).zip (0 :: g)).map fun (p : Nat × Nat) => p.1 ^^^ gfMul r p.2) [1]

/-- The parity of data symbols, the first symbol the highest power: the remainder by the generator. -/
def fecParityOf (parity : Nat) (data : List Nat) : List Nat :=
  let g := (fecGenerator parity).drop 1
  data.foldl (fun reg d =>
    let f := d ^^^ reg.headD 0
    ((reg.drop 1 ++ [0]).zip g).map fun (p : Nat × Nat) => p.1 ^^^ gfMul f p.2) (List.replicate parity 0)

/-- The codeword of data symbols. -/
def fecEncode (fec : Nat) (data : List Nat) : List Nat := data ++ fecParityOf (fecParity fec) data

/-- The codewords of lane k of a port of w active lanes under RS(272,257) (R115): whole codewords of its own, ten blocks each. -/
def laneCodewords (w k : Nat) (blocks : List Nat) : List (List Nat) :=
  let mine := dealtTo w k blocks
  (List.range (mine.length / 10)).map fun j => fecEncode 1 (dataSymbols (mine.drop (10 * j)))

/-- A received word at a power of α. -/
def fecEval (word : List Nat) (x : Nat) : Nat := word.foldl (fun acc c => gfMul acc x ^^^ c) 0

/-- The syndromes of a received word. -/
def fecSyndromes (parity : Nat) (word : List Nat) : List Nat := (List.range parity).map fun i => fecEval word (gfPow 2 i)

/-- One step of the search for the shortest register that makes the syndromes: the register, the register before its last change
with the discrepancy then, the length, and the steps since that change. -/
def locatorStep (syn : List Nat) (st : List Nat × List Nat × Nat × Nat × Nat) (n : Nat) : List Nat × List Nat × Nat × Nat × Nat :=
  let (c, b, d0, len, m) := st
  let d := (List.range (len + 1)).foldl (fun acc i => acc ^^^ gfMul (c.getD i 0) (syn.getD (n - i) 0)) 0
  if d = 0 then (c, b, d0, len, m + 1)
  else
    let f := gfMul d (gfInv d0)
    let shifted := List.replicate m 0 ++ b.map (gfMul f)
    let size := max c.length shifted.length
    let c' := (List.range size).map fun i => c.getD i 0 ^^^ shifted.getD i 0
    if 2 * len ≤ n then (c', c, d, n + 1 - len, 1) else (c', b, d0, len, m + 1)

/-- The error locator of syndromes, lowest power first, and its degree. -/
def locator (syn : List Nat) : List Nat × Nat :=
  let (c, _, _, len, _) := (List.range syn.length).foldl (locatorStep syn) ([1], [1], 1, 0, 1)
  (c, len)

/-- How many symbols of a received word the code corrects; none where the word cannot be corrected (R115, R117): the locator has a
root for each symbol that it counts, at a place within the word. -/
def fecDecode (fec : Nat) (word : List Nat) : Option Nat :=
  let syn := fecSyndromes (fecParity fec) word
  if syn.all (· == 0) then some 0
  else
    let (c, len) := locator syn
    let roots := (List.range word.length).filter fun j =>
      -- the place of power j: the locator vanishes at α^(−j)
      c.foldr (fun a acc => gfMul acc (gfPow (gfInv 2) j) ^^^ a) 0 == 0
    if len ≤ fecLimit fec ∧ roots.length = len then some len else none

/-- What FEC did to received codewords: symbols corrected, and codewords that could not be corrected (R117). -/
def fecCount (fec : Nat) (words : List (Nat × List Nat)) : Nat × Nat :=
  words.foldl (fun acc w => match fecDecode fec w.2 with
    | some k => (acc.1 + k, acc.2)
    | none => (acc.1, acc.2 + 1)) (0, 0)

/-! ### Test patterns (R135) -/

/-- The bits of a test pattern that are wrong: after the first `deg` bits, which set the checker, each bit against the one that the
polynomial x^deg + … predicts from the bits before it, tap by tap. -/
def patternErrors (deg : Nat) (taps : List Nat) (bits : List Bool) : Nat :=
  (bits.foldl (fun (acc : Nat × List Bool) b =>
    if acc.2.length < deg then (acc.1, b :: acc.2)
    else
      let want := taps.foldl (fun x t => x != acc.2.getD (t - 1) false) false
      (if want != b then acc.1 + 1 else acc.1, want :: acc.2.take (deg - 1))) (0, [])).1

/-- The errors of a lane in the pattern of `port.prbs`: PRBS31Q for 1, PRBS13Q for 2. PRESUMED (log 183). -/
def prbsErrors (prbs : Nat) (bits : List Bool) : Nat :=
  if prbs = 1 then patternErrors 31 [31, 28] bits else patternErrors 13 [13, 12, 2, 1] bits

end Sys2Proof.Machine
end

