-- ==== Sys2Proof/Machine/Ports.lean ====
section
/-!
DEFINITION. Ports and lanes (spec/05_ports_and_lanes.md, R112 to R119, R128 to R138, R602): lane loss, bring-up, width
degrade and restore, lane-status blocks, loopbacks and link notices.
-/

namespace Sys2Proof.Machine

/-- A lane map with every lane of a width. -/
def fullMap (w : Nat) : Nat := 2 ^ w - 1

/-- The aligned sets of a port of width w, widest first and lowest first within a width (R131). -/
def alignedSets (w : Nat) : List (Nat × Nat) :=
  ([8, 4, 2, 1].filter (fun v => v ≤ w)).foldr
    (fun v l => (List.range (w / v)).map (fun i => (v, i * v)) ++ l) []

/-- The largest aligned set inside a map: its width and first lane (R131). -/
def largestSet (w map : Nat) : Option (Nat × Nat) :=
  (alignedSets w).find? fun p => bits map (p.2 + p.1 - 1) p.2 == fullMap p.1

/-- The map of an aligned set. -/
def setMap (p : Nat × Nat) : Nat := fullMap p.1 * 2 ^ p.2

/-- The set S of R131 for port n: within own good lanes and the partner's rx_good, at least `port.min_width` wide. -/
def State.setS (s : State) (n : Nat) : Option (Nat × Nat) :=
  let w := s.get (E.port_width.n n)
  let r := s.prt n
  match largestSet w (r.good &&& r.partner) with
  | some p => if p.1 < s.get (E.port_min_width.n n) then none else some p
  | none => none

/-- The port that holds a lane, if one is configured there. -/
def State.portOf (s : State) (l : Nat) : Option Nat :=
  [8, 4, 2, 1].findSome? fun w => let n := l / w * w; if s.get (E.port_width.n n) = w then some n else none

/-- A link notice of a kind (R136): `port.notice`, the sticky flag, and the fault source of the kind. DEDUCED (log 64). -/
def State.linkNotice (s : State) (n kind : Nat) : State :=
  let map := (s.prt n).txMap
  let s := s.set (E.port_notice.n n) (kind + s.width n * 2 ^ 8 + map % 256 * 2 ^ 16 + s.ft * 2 ^ 64)
  (s.stick (E.port_flags.n n) kind).raise (64 + kind)

/-- The lanes of port n set to a lane state. -/
def State.lanesTo (s : State) (n w st : Nat) : State :=
  (List.range w).foldl (fun acc k => acc.set (E.lane_state.n (n + k)) st) s

/-- `port.rx_good` follows the maps (R137). -/
def State.rxGood (s : State) (n : Nat) : State :=
  let r := s.prt n
  s.set (E.port_rx_good.n n) (r.good % 256 + r.partner % 256 * 2 ^ 8)

/-- The transmit set of port n switches (R131, R132): the capacity reported to bundle weighting changes with it, and so
does the line rate of its shapers. -/
def State.txSet (s : State) (n : Nat) (p : Nat × Nat) : State :=
  let s := s.touchPort n
  let s := s.modPort n fun r => { r with txMap := setMap p }
  let s := (s.set (E.port_active_width.n n) p.1).retime n
  let s := s.set (E.port_active_first_lane.n n) (n + p.2)
  s.emit (.markerSwitch n p.1 (n + p.2))

/-- Port n leaves service (R130, R152, R259): its packets re-enter link choice, collectives that list it lose it, and no lane
is in use. DEDUCED (log 64). -/
def State.leave (s : State) (n st : Nat) : State :=
  let was := s.inService n
  let s := s.set (E.port_state.n n) st
  let s := s.modPort n fun r => { r with
    trainAt := s.ft, partialAt := none, ready := false, holdAt := none, partnerFlag := false, loopLocked := false
    restoring := false }
  let s := if was then (s.requeuePort n).later (.memberLost n) else s
  s.set (E.port_active_width.n n) 0

/-- Port n goes Down (R130, R131): a link notice, and training starts anew. -/
def State.goDown (s : State) (n : Nat) : State :=
  let s := s.leave n 4
  let w := s.get (E.port_width.n n)
  let s := s.modPort n fun r => { r with partner := fullMap w }
  s.linkNotice n 1

/-- The shapers of port n start at their bursts, its own and its queues' (R206, R207). -/
def State.fullCredit (s : State) (n : Nat) : State :=
  let s := s.modTx n fun t => { t with credit := ((s.get (E.sched_port_burst.n n) * 65536 : Nat) : Int), rem := 0, at_ := s.ft }
  { s with qs := { s.qs with q := s.qs.q.map fun x => if x.1 / 16 = n then
      (x.1, { x.2 with credit := ((s.get (E.queue_burst.h x.1) * 65536 : Nat) : Int), rem := 0, at_ := s.ft }) else x } }

/-- Port n comes up on a set of lanes (R130, R131, R133, R134, R206, R602): Up with every lane, Degraded with fewer. An
Ethernet-mode port that retrained by `port.restore` has regained its full width. DEDUCED (log 61). -/
def State.comeUp (s : State) (n : Nat) (p : Nat × Nat) : State :=
  let w := s.get (E.port_width.n n)
  let back := (s.prt n).restoring && p.1 == w
  let s := s.modPort n fun r =>
    let good := r.good ||| setMap p
    { r with
      good := good, rxMap := setMap p, partialAt := none, markAt := s.ft * 10 + 32768, noted := p.1, restoring := false
      holdAt := if good = fullMap w then some (r.holdAt.getD s.ft) else none }
  let s := s.lanesTo (n + p.2) p.1 2
  let s := s.txSet n p
  let s := s.rxGood n
  let s := s.fullCredit n
  if p.1 = w then
    let s := (s.set (E.port_state.n n) 2).linkNotice n 0
    (if back then s.linkNotice n 3 else s).enterService n
  else
    let s := (s.set (E.port_state.n n) 3).inc (E.port_degrades.n n) 1
    (s.linkNotice n 2).enterService n

/-- Degrade or restore completes once both directions have switched (R131, R133). DEDUCED (log 60, 61). -/
def State.widthSettled (s : State) (n : Nat) : State :=
  let w := s.get (E.port_width.n n)
  let r := s.prt n
  let st := s.get (E.port_state.n n)
  let narrow := r.txMap ≠ fullMap w ∧ r.rxMap ≠ fullMap w
  if st = 2 ∧ narrow then
    let s := (s.set (E.port_state.n n) 3).inc (E.port_degrades.n n) 1
    (s.modPort n fun r => { r with noted := s.width n }).linkNotice n 2
  else if st = 3 ∧ narrow ∧ s.width n < r.noted ∧ popCount 8 r.rxMap < r.noted then
    (s.modPort n fun r => { r with noted := s.width n }).linkNotice n 2
  else if st = 3 ∧ r.txMap = fullMap w ∧ r.rxMap = fullMap w then
    let s := s.modPort n fun r => { r with noted := w, ready := false, partnerFlag := false }
    (s.set (E.port_state.n n) 2).linkNotice n 3
  else s

/-- Lanes 0 to 7 from lane n that no port holds are idle (R138). -/
def State.lanesIdle (s : State) (n : Nat) : State :=
  (List.range 8).foldl (fun acc k =>
    if laneFitted s.part (n + k) ∧ (s.portOf (n + k)).isNone ∧ s.get (E.lane_state.n (n + k)) ≠ 0 then
      acc.set (E.lane_state.n (n + k)) 0 else acc) s

/-- The state a port takes when its configuration is (re)applied (R129, R130, R135). While the general cores restart no training
starts: it waits Down (R477). -/
def State.startPort (s : State) (n : Nat) : State :=
  let w := s.get (E.port_width.n n)
  let off := w = 0 ∨ s.get (E.port_role.n n) = 0 ∨ s.get E.lc_state.s = 4
  let st := if off then 0 else if s.get (E.port_prbs.n n) ≠ 0 then 6 else if s.get (E.port_loopback.n n) ≠ 0 then 5
    else if s.mgmt.restarting then 4 else 1
  let s := s.set (E.port_state.n n) st
  let s := s.lanesTo n w (if st = 0 then 0 else 1)
  let s := { s with ports := mput s.ports n ⟨0, fullMap w, false, 0, 0, false, none, s.ft, none, false, 0, 0, w, false⟩ }
  let s := s.set (E.port_active_width.n n) (if st = 5 then w else 0)
  let s := s.set (E.port_active_first_lane.n n) (if st = 0 then 0 else n)
  let s := if st = 6 then s.emit (.pattern n (s.get (E.port_prbs.n n))) else s
  s.rxGood n

/-- The entries of R129 take effect: the port's packets are dropped, it stops, and training restarts; lanes that a narrower
width gives up are idle (R138). -/
def State.reconfigure (s : State) (n : Nat) : State :=
  let was := s.inService n
  let up := s.get (E.port_state.n n)
  let s := s.lanesIdle n
  let s := s.flushPort n
  let s := if was then s.later (.memberLost n) else s
  let s := s.later (.controlClose n)
  let s := s.startPort n
  if up = 2 ∨ up = 3 then s.linkNotice n 1 else s

/-- Does a role allow a mode (R128)? -/
def roleMode (role mode : Nat) : Bool :=
  if role = 1 ∨ role = 2 then mode == 0 else if role = 3 then mode == 1 else true

/-- Does a port of width w at lane n lie aligned and clear of every other port (R23)? -/
def portFits (s : State) (n w : Nat) : Bool :=
  n % w == 0 && decide (n + w ≤ 1024) && (List.range w).all (fun k => laneFitted s.part (n + k)) &&
  s.portList.all fun m => m == n || decide (m + s.get (E.port_width.n m) ≤ n ∨ n + w ≤ m)

/-- The effect of writing `port.width` (R23, R129, R190): alignment, overlap and the shared pool are tested; a width of 0
removes the port, whose queue handles cease to exist (R41). -/
def widthWrite (s : State) (n w : Nat) : Nat × State :=
  if w = 0 then
    let up := s.get (E.port_state.n n)
    let was := s.inService n
    let s := s.flushPort n
    let s := if was then s.later (.memberLost n) else s
    let s := s.later (.controlClose n)
    let old := s.get (E.port_width.n n)
    let s := s.lanesTo n old 0
    let s := if up = 2 ∨ up = 3 then s.linkNotice n 1 else s
    let s := { s with cat := s.cat.filter (fun p =>
      ¬ (p.1 / 2 ^ 60 = 0x2000 + n ∨ p.1 / 2 ^ 60 = 0x4C00 + n ∨
         (p.1 / 2 ^ 60 = 0x4100 ∧ p.1 / 2 ^ 32 % 2 ^ 20 / 16 = n))) }
    (0, { s with ports := mdel s.ports n })
  else if !portFits s n w then (0x06, s)
  else
    let s' := s.set (E.port_width.n n) w
    if s'.sharedCells < 65536 then (0x02, s) else (0, s'.reconfigure n)

/-- The effect of writing `port.mode` (R115, R128, R129). -/
def modeWrite (s : State) (n v : Nat) : Nat × State :=
  if !roleMode (s.get (E.port_role.n n)) v ∨ (v = 1 ∧ s.get (E.port_fec.n n) = 1) then (0x06, s)
  else (0, (s.set (E.port_mode.n n) v).reconfigure n)

/-- The effect of writing `port.fec` (R115, R129). -/
def fecWrite (s : State) (n v : Nat) : Nat × State :=
  if v = 1 ∧ s.get (E.port_mode.n n) = 1 then (0x06, s) else (0, (s.set (E.port_fec.n n) v).reconfigure n)

/-- The effect of writing `port.role` (R127, R128, R129). -/
def portRoleWrite (s : State) (n v : Nat) : Nat × State :=
  if !roleMode v (s.get (E.port_mode.n n)) ∨ (v = 3 ∧ s.get (E.port_mtu.n n) < 4214) then (0x06, s)
  else (0, (s.set (E.port_role.n n) v).reconfigure n)

/-- The effect of writing `port.an` (R129). -/
def anWrite (s : State) (n v : Nat) : State := (s.set (E.port_an.n n) v).reconfigure n

/-- The effect of writing `port.mtu` (R120, R127). -/
def mtuWrite (s : State) (n v : Nat) : Nat × State :=
  if v < 4214 ∧ s.get (E.port_role.n n) = 3 then (0x06, s) else (0, s.set (E.port_mtu.n n) v)

/-- The effect of writing `port.loopback` or `port.prbs` (R135): the port enters or leaves Loopback or Pattern; what was queued
to it re-enters link choice once it has left service (R152). DEDUCED (log 63). -/
def loopWrite (s : State) (n : Nat) (l : Loc) (v : Nat) : State :=
  let was := s.inService n
  let up := s.get (E.port_state.n n)
  let s := s.set l v
  if up = 0 then s
  else
    let s := s.startPort n
    let s := if was then (s.requeuePort n).later (.memberLost n) else s
    if up = 2 ∨ up = 3 then s.linkNotice n 1 else s

/-- TRAINING_DONE (R130, R134, R135, R602): the lanes of the map have reached codeword and alignment lock. In Loopback they
lock the loop; a port that a lost reference took out of Loopback or Pattern goes back to it (R112). -/
def trainingDone (s : State) (n map : Nat) : State :=
  let w := s.get (E.port_width.n n)
  let st := s.get (E.port_state.n n)
  let die := n / 256
  if w = 0 ∨ s.refLost.contains die ∨ s.groupsOut.contains (n / 16) then s
  else if st = 5 then
    if map % 2 ^ w = fullMap w ∧ s.get (E.port_loopback.n n) ≠ 3 then
      ((s.modPort n fun r => { r with loopLocked := true, good := fullMap w }).lanesTo n w 2 |>.fullCredit n).enterService n
    else s
  else if st = 4 ∧ (s.get (E.port_loopback.n n) ≠ 0 ∨ s.get (E.port_prbs.n n) ≠ 0) then s.startPort n
  else if st = 1 ∨ st = 4 then
    let m := map % 2 ^ w
    let s := s.modPort n fun r => { r with good := m }
    if m = fullMap w then s.comeUp n (w, 0)
    else
      match largestSet w m with
      | none => s
      | some p =>
        if p.1 < s.get (E.port_min_width.n n) then s
        else if s.get (E.port_mode.n n) = 0 then
          s.modPort n fun r => { r with partialAt := match r.partialAt with | some t => some t | none => some s.ft }
        else if s.getB (E.port_degrade_enable.n n) then s.comeUp n p
        else s
  else s

/-- TRAINING_TIMEOUT (R115, R130): training not complete within 500,000,000 ns is retried; ends whose FEC differs set
`fec_mismatch`. -/
def trainingTimeout (s : State) (n : Nat) (fecMismatch : Bool) : State :=
  let st := s.get (E.port_state.n n)
  if (st = 1 ∨ st = 4) ∧ (s.prt n).trainAt + 500000000 ≤ s.ft then
    let s := s.modPort n fun r => { r with trainAt := s.ft, partialAt := none, good := 0 }
    let s := s.set (E.port_state.n n) 1
    if fecMismatch then s.linkNotice n 5 else s
  else s

/-- PARTIAL_TRAINING_DEGRADE (R602): lanes still missing 100,000,000 ns after a partial set locked. -/
def partialDegrade (s : State) (n : Nat) : State :=
  let st := s.get (E.port_state.n n)
  match (s.prt n).partialAt with
  | some t =>
    if (st = 1 ∨ st = 4) ∧ t + 100000000 ≤ s.ft ∧ s.get (E.port_mode.n n) = 0 then
      match s.setS n with
      | some p => s.comeUp n p
      | none => s
    else s
  | none => s

/-- An Ethernet-mode port after a lane loss (R130, R134): it retrains as the widest type that fits when degrade is enabled, and
goes Down otherwise, or where no aligned set of `port.min_width` is good. -/
def State.etherLoss (s : State) (n : Nat) : State :=
  let fits := match largestSet (s.get (E.port_width.n n)) (s.prt n).good with
    | some p => decide (s.get (E.port_min_width.n n) ≤ p.1)
    | none => false
  if s.getB (E.port_degrade_enable.n n) && fits && !s.mgmt.restarting then (s.leave n 1).linkNotice n 1 else s.goDown n

/-- A lane that is not in a receive-good state any more; its port degrades or goes Down (R113, R131, R133, R134). -/
def State.laneOut (s : State) (l : Nat) : State :=
  match s.portOf l with
  | none => s
  | some n =>
    let st := s.get (E.port_state.n n)
    let s := s.modPort n fun r => { r with good := clearBitAt r.good (l - n), ready := false, holdAt := none }
    let s := s.rxGood n
    if st = 2 ∨ st = 3 then
      if s.get (E.port_mode.n n) = 1 then
        if bitAt (s.prt n).txMap (l - n) then s.etherLoss n else s
      else
        match s.setS n with
        | none => s.goDown n
        | some _ => s
    else if st = 5 then
      let was := s.inService n
      let s := s.modPort n fun r => { r with loopLocked := false }
      if was then (s.requeuePort n).later (.memberLost n) else s
    else s

/-- LANE_LOST (R113, R131). -/
def laneLost (s : State) (l : Nat) : State :=
  if !laneFitted s.part l ∨ s.get (E.lane_state.n l) = 3 ∨ s.get (E.lane_state.n l) = 0 then s
  else ((s.set (E.lane_state.n l) 3).inc (E.lane_losses.n l) 1).laneOut l

/-- LANE_GOOD (R113, R133): a lane is good again, with its signal-to-noise estimate; when every lane of the port is good
the restore hold starts. DEDUCED (log 62). -/
def laneGood (s : State) (l snr : Nat) : State :=
  if !laneFitted s.part l then s
  else
    let s := { s with refLost := s.refLost.filter (fun d => d ≠ l / 256) }
    let s := s.set (E.lane_snr.n l) snr
    match s.portOf l with
    | none => s
    | some n =>
      let s := s.set (E.lane_state.n l) 2
      let s := s.modPort n fun r => { r with good := setBitAt r.good (l - n) }
      let s := s.rxGood n
      let w := s.get (E.port_width.n n)
      if (s.prt n).good = fullMap w ∧ (s.prt n).holdAt.isNone then
        s.modPort n fun r => { r with holdAt := some s.ft }
      else s

/-- RESTORE_HOLD_EXPIRE (R133): every lane good for `port.restore_hold`; the end is ready when `port.auto_restore` is 1. -/
def restoreHold (s : State) (n : Nat) : State :=
  match (s.prt n).holdAt with
  | some t =>
    if s.get (E.port_state.n n) = 3 ∧ s.get (E.port_mode.n n) = 0 ∧ t + s.get (E.port_restore_hold.n n) ≤ s.ft ∧
        s.getB (E.port_auto_restore.n n) ∧ (s.prt n).good = fullMap (s.get (E.port_width.n n)) then
      s.modPort n fun r => { r with ready := true }
    else s
  | none => s

/-- The effect of writing `port.restore` 1 (R133, R134). -/
def restoreWrite (s : State) (n : Nat) : Nat × State :=
  let w := s.get (E.port_width.n n)
  let st := s.get (E.port_state.n n)
  if (s.prt n).good ≠ fullMap w ∨ st ≠ 3 then (0x0C, s)
  else if s.get (E.port_mode.n n) = 1 then
    let s := (s.leave n 1).linkNotice n 1
    (0, s.modPort n fun r => { r with restoring := true })
  else (0, s.modPort n fun r => { r with ready := true })

/-- The lane-status block of lane k (R119). -/
def laneBlock (tx rx k seq flags : Nat) : List Byte :=
  let b := leBytes 1 tx ++ leBytes 1 rx ++ leBytes 1 k ++ leBytes 1 seq ++ leBytes 1 flags ++ leBytes 1 0x0A
  leBytes 1 0x4B ++ b ++ leBytes 1 (crc8 b)

/-- LANE_STATUS_MARKER (R119, R131, R133): once per marker period each active lane sends its block; the transmit set
switches here: to S where it is not wider, or where a lane of the present set is lost (R133), and to a wider S when both ends are
ready to restore. DEDUCED (log 60). -/
def laneMarker (s : State) (n : Nat) : State :=
  let st := s.get (E.port_state.n n)
  let r := s.prt n
  if (st ≠ 2 ∧ st ≠ 3) ∨ s.get (E.port_mode.n n) ≠ 0 ∨ s.ft * 10 + 9 < r.markAt then s
  else
    let holds := r.txMap &&& (r.good &&& r.partner) == r.txMap
    let next := match s.setS n with
      | some p =>
        if setMap p = r.txMap then none
        else if popCount 8 r.txMap < p.1 ∧ holds ∧ ¬ (r.ready ∧ r.partnerFlag) then none else some p
      | none => none
    let tx := match next with | some p => setMap p | none => r.txMap
    let s := (bitList 8 r.txMap).foldl (fun acc k =>
      acc.emit (.laneStatus n (laneBlock tx r.good k r.markSeq (if r.ready then 1 else 0)))) s
    let s := s.modPort n fun r => { r with
      markSeq := (r.markSeq + 1) % 256
      markAt := if r.markAt + 32768 < s.ft * 10 then s.ft * 10 + 32768 else r.markAt + 32768 }
    match next with
    | some p => (s.txSet n p).widthSettled n
    | none => s

/-- LANE_STATUS_BLOCK (R119, R131): a good block updates the partner's maps and its restore flag; a bad one is counted. -/
def laneStatusBlock (s : State) (n : Nat) (b : List Byte) : State :=
  if crc8 (slice b 1 6) ≠ leAt b 7 1 then s.inc (E.port_marker_errors.n n) 1
  else
    let st := s.get (E.port_state.n n)
    if st ≠ 2 ∧ st ≠ 3 then s
    else
      let s := s.modPort n fun r => { r with
        rxMap := leAt b 1 1, partner := leAt b 2 1, partnerFlag := leAt b 5 1 % 2 == 1 }
      let s := s.rxGood n
      match s.setS n with
      | none => s.goDown n
      | some _ => s.widthSettled n

/-- The limit of R116, in errors per 10^9 symbols. -/
def State.berLimit (s : State) (n : Nat) : Nat :=
  let lim := s.get (E.port_ber_limit.n n)
  if lim = 0 then (if s.get (E.port_fec.n n) = 1 then 2000 else 200000) else lim

/-- FEC_DEGRADED (R116, R135, R138): a window of 1 s. Each lane has its own pre-FEC symbol error rate, and the mean of the
lanes, the port's rate, is held against the limit; in state Pattern the bits of each lane are checked against the pattern. -/
def fecDegraded (s : State) (n : Nat) (win : LaneWindow) : State :=
  let w := s.get (E.port_width.n n)
  match win with
  | .errors rates =>
    let s := (List.range w).foldl (fun acc k => acc.set (E.lane_pre_fec_ber.n (n + k)) (rates.getD k 0)) s
    if w ≠ 0 ∧ s.berLimit n * w < sumBy (fun k => rates.getD k 0) (List.range w) then s.linkNotice n 4 else s
  | .pattern bits =>
    let prbs := s.get (E.port_prbs.n n)
    if s.get (E.port_state.n n) ≠ 6 then s
    else (List.range w).foldl (fun acc k => acc.inc (E.lane_prbs_errors.n (n + k)) (prbsErrors prbs (bits.getD k []))) s

/-- REFERENCE_LOST (R112): every lane of the die loses lock, every port of the die goes Down with a link notice, in whatever
state it was but Off. -/
def referenceLost (s : State) (die : Nat) : State :=
  let s := { s with refLost := if s.refLost.contains die then s.refLost else die :: s.refLost }
  let mine := s.portList.filter (fun n => n / 256 = die ∧ s.get (E.port_state.n n) ≠ 0)
  mine.foldl (fun acc n =>
    let w := acc.get (E.port_width.n n)
    let acc := acc.lanesTo n w 3
    let acc := (List.range w).foldl (fun a k => a.inc (E.lane_losses.n (n + k)) 1) acc
    let acc := acc.modPort n fun r => { r with good := 0 }
    let acc := acc.rxGood n
    let acc := if acc.get (E.port_state.n n) = 2 ∨ acc.get (E.port_state.n n) = 3 then acc.goDown n
      else (acc.leave n 4).modPort n fun r => { r with partner := fullMap w }
    acc.linkNotice n 6) s

/-- Port groups out of service when a join keeps too few modules (R19): their ports are Off, give their packets back (R152) and send
a link notice. What `port.state` such a port reads is not stated: Off, as it neither sends nor trains. DESIGN CHOICE (log 185). -/
def groupsOutOfService (s : State) (gs : List Nat) : State :=
  let fresh := gs.filter (fun g => !s.groupsOut.contains g)
  let ports := s.portList.filter (fun n => fresh.contains (n / 16))
  let were := ports.filter fun n => s.inService n
  let s := { s with groupsOut := s.groupsOut ++ fresh }
  let s := ports.foldl (fun acc n => (acc.set (E.port_state.n n) 0).set (E.port_active_width.n n) 0) s
  let s := were.foldl (fun acc n => (acc.requeuePort n).later (.memberLost n)) s
  ports.foldl (fun acc n => acc.linkNotice n 7) s

end Sys2Proof.Machine
end

