-- ==== Sys2Proof/Machine/Transmit.lean ====
section
/-!
DEFINITION. The start and end of a frame's transmission (R117, R125, R135, R160, R161, R175, R200, R205, R206, R213), and the bridge
(R120 to R126): MAC learning, VLANs, flooding, encapsulation.
-/

namespace Sys2Proof.Machine

/-- The flow hash of a tunnelled packet covers the partition key, the class and the handle (R125); its function is not
given: a free value of the three. -/
def flowHash (h : Rill) : Nat := Config.flowHash h.partition h.cls h.handle

/-- The Ethernet frame that carries a Rill packet through a tunnel, without FCS (R125). -/
def encapsulate (s : State) (n b : Nat) (h : Rill) (payload : List Byte) : List Byte :=
  let inner := rillBytes h ++ payload ++ List.replicate (64 - min 64 (48 + h.length)) 0
  let vlan := s.get (E.tunnel_vlan.n b)
  let hash := flowHash h
  let tc := s.get (E.tunnel_dscp.k h.cls) * 4 + (if s.getB (E.port_ecn_enable.n n) then 2 else 0)
  let udpLen := 8 + inner.length
  leBytes 6 (s.get (E.tunnel_next_hop_mac.n b)) ++ leBytes 6 (s.get (E.port_mac.n n)) ++
  (if vlan = 0 then [] else beBytes 2 0x8100 ++ beBytes 2 (h.cls * 8192 + vlan)) ++
  beBytes 2 0x86DD ++ beBytes 4 (6 * 2 ^ 28 + tc * 2 ^ 20 + hash % 2 ^ 20) ++ beBytes 2 udpLen ++ leBytes 1 17 ++
  leBytes 1 (s.get (E.port_tunnel_hop_limit.n n)) ++ leBytes 16 (s.get (E.port_tunnel_src.n n)) ++
  leBytes 16 (s.get (E.tunnel_dst.n b)) ++ beBytes 2 (49152 + hash % 16384) ++ beBytes 2 (s.get E.tunnel_udp_port.s) ++
  beBytes 2 udpLen ++ beBytes 2 0 ++ inner

/-- The header as it leaves: lifetime reduced by residence and link allowance (R160). None: it would reach 0 (R161). -/
def leaving (s : State) (p : Pkt) (h : Rill) : Option Rill :=
  let charge := residenceUnits p.arrFt s.ft + s.get (E.bundle_link_allowance.n p.bundle)
  if h.lifetime ≤ charge then none else some { h with lifetime := h.lifetime - charge }

/-- The frame counts of a start (R151, R200, R213, R220): packets, bytes, sojourn, and the port's sojourns for its bundle. -/
def countStart (s : State) (n : Nat) (p : Pkt) : State :=
  let f := qSlot n p.queue
  let soj := s.ft - p.admFt
  let s := s.inc (E.queue_tx_packets.h f) 1
  let s := s.inc (E.queue_tx_bytes.h f) (s.wireLen n p)
  let s := s.modQ n p.queue fun r => { r with
    departs := r.departs + 1, sojSum := r.sojSum + soj, sojMax := max r.sojMax soj, waited := false }
  let (a, c) := mgetD s.sw.delaySum n (0, 0)
  { s with sw := { s.sw with delaySum := mput s.sw.delaySum n (a + soj, c + 1) } }

/-- A time-notice reply of this FN7 is stamped as its start block leaves (R166). -/
def stampNotice (s : State) (p : Pkt) (h : Rill) (payload : List Byte) : List Byte :=
  if h.kind = 9 ∧ h.w10 % 2 = 1 ∧ p.ingress = 0xFFFF then
    payload.take 8 ++ leBytes 8 s.ft ++ payload.drop 16 else payload

/-- Replace a packet in the list by id. -/
def State.setPkt (s : State) (p : Pkt) : State :=
  { s with sw := { s.sw with pkts := s.sw.pkts.map fun x => if x.id = p.id then p else x } }

/-- The codewords that carry a frame of k bytes over a near-end serial loop, each with free errors: the serial path is not stated
(R135). DESIGN CHOICE (log 186). -/
def State.loopWords (s : State) (n k : Nat) : List (Nat × List Nat) × State :=
  let fec := s.get (E.port_fec.n n)
  let len := fecLength fec
  (List.range (ceilDiv (k + 12) (if fec = 1 then 320 else 640))).foldl (fun acc i =>
    let (e, s) := acc.2.fresh (len + 1)
    (acc.1 ++ [(i % max 1 (s.width n), List.replicate e 1 ++ List.replicate (len - e) 0)], s)) ([], s)

/-- A frame of a looped port comes back to its receiver (R135): before the FEC encoder in loopback 1, through FEC in loopback 2. -/
def State.loopReturn (s : State) (n : Nat) (body : Body) (stomp : Bool) : State :=
  if s.get (E.port_state.n n) ≠ 5 then s
  else
    let bytes := match body with | .rill h p => padTo64 (rillBytes h ++ p) | .eth b => b | .inner _ b => b
    let (words, s) := if s.get (E.port_loopback.n n) = 2 then s.loopWords n bytes.length else ([], s)
    match body with
    | .rill _ _ => s.later (.arrive n bytes (frameCrc bytes stomp) words 8 s.ft)
    | _ => s.later (.arriveEth n bytes (frameCrc bytes stomp) words s.ft)

/-- The first byte of a packet leaves port n (R118, R205, R206): the credits of its queue and port fall from now, the header is
rewritten, the frame goes out in its blocks, but stays within the block in loopback 1; a looped port takes it back (R135).
DEDUCED (log 82, 84). -/
def startTx (s : State) (n : Nat) (p : Pkt) : State :=
  let len := s.wireLen n p + s.overhead n
  let s := s.touchPort n
  let finish := fun (s : State) (body : Body) =>
    let s := s.setPkt { p with started := true, body := body }
    let s := countStart s n p
    let s := s.modQ n p.queue fun r => { r with mode := 2 }
    let s := s.modTx n fun t => { t with
      named := none, txPkt := some p.id, startAt := s.ft * 1000, endAt := s.ft * 1000 + s.frameTime n len
      left := len * 65536, leftAt := s.ft }
    let s := s.emptied n p.queue
    let s := s.sampleSee n 1 0 p.queue body s.ft
    let s := if p.stomp ∧ p.inp ≠ 88 then s.inc (E.port_tx_stomped.n n) 1 else s
    let s := s.later (.gaugeTx n body p.stomp)
    let s := s.later (.digest n body (p.weir != 0))
    let s := if s.get (E.port_state.n n) = 5 ∧ s.get (E.port_loopback.n n) = 1 then s
      else s.emit (.frame n body p.stomp (frameBlocks body p.stomp))
    s.loopReturn n body p.stomp
  match p.body with
  | .rill h payload =>
    match leaving s p h with
    | none =>
      let s := s.dropPkt p
      let s := s.modTx n fun t => { t with named := none }
      (s.inc (E.bundle_expired.n p.bundle) 1).recDropR (0x3000 + p.bundle) 0x44 n p.ingress h
    | some h =>
      let payload := stampNotice s p h payload
      let s := if p.member = 0xFFFF then s else s.inc (E.bundle_forwarded.n p.bundle) 1
      finish s (if s.get (E.port_role.n n) = 3 then .eth (encapsulate s n p.bundle h payload) else .rill h payload)
  | b => finish s b

/-- PACKET_TRANSMITTED (R175, R176, R206): the last cell has left; the account's cells are released. -/
def packetTransmitted (s : State) (n : Nat) : State :=
  match (s.ptx n).txPkt with
  | none => s
  | some id =>
    if s.ft * 1000 + 999 < (s.ptx n).endAt then s
    else
      match s.sw.pkts.find? (fun p => p.id = id) with
      | none => s.endFrame n
      | some p => if p.crossed < p.cells then s else (s.endFrame n).dropPkt p

/-! ### The bridge -/

/-- A MAC table record: slot, MAC, VLAN, port, static (R139). -/
structure MacRec where
  slot : Nat
  mac : Nat
  vlan : Nat
  port : Nat
  static_ : Bool

/-- The valid records of the MAC table. -/
def State.macTable (s : State) : List MacRec :=
  let slots := dedup (s.cat.filterMap fun p =>
    if p.1 / 2 ^ 52 = 0x3A01 * 256 + 1 ∧ p.1 % 16 = 10 ∧ bitAt p.2 1 then some (p.1 % 2 ^ 32 / 16) else none)
  slots.map fun i =>
    { slot := i, mac := s.domLe E.bridge_mac_table 0 0 (16 * i) 6, vlan := s.domLe E.bridge_mac_table 0 0 (16 * i + 6) 2
      port := s.domLe E.bridge_mac_table 0 0 (16 * i + 8) 2
      static_ := bitAt (s.dom E.bridge_mac_table 0 0 (16 * i + 10)) 0 }

/-- A MAC table record written. -/
def State.macPut (s : State) (r : MacRec) : State :=
  s.domPut E.bridge_mac_table 0 0 (16 * r.slot) (leBytes 6 r.mac ++ leBytes 2 r.vlan ++ leBytes 2 r.port ++
    leBytes 1 ((if r.static_ then 1 else 0) + 2) ++ leBytes 5 0)

/-- A MAC table record removed. -/
def State.macDel (s : State) (slot : Nat) : State := s.domPut E.bridge_mac_table 0 0 (16 * slot) (List.replicate 16 0)

/-- The key of a learnt record's age: its slot. -/
def State.macAge (s : State) (slot : Nat) : Nat := mgetD s.macSeen slot 0

/-- Learning of a source address (R122). The frames of one core cycle come in ascending order of their ports, so the first learn
of an address on a cycle is the one that counts; an entry that software wrote on this cycle is not learnt. -/
def State.learn (s : State) (mac vlan n : Nat) : State :=
  if bitAt mac 0 ∨ s.macWritten.contains (mac, vlan) then s
  else
    let tab := s.macTable
    let seen := fun (s : State) (slot : Nat) => { s with macSeen := mput s.macSeen slot s.ft, macLearnt := slot :: s.macLearnt }
    match tab.find? (fun r => r.mac = mac ∧ r.vlan = vlan) with
    | some r =>
      if r.static_ ∨ s.macLearnt.contains r.slot then s
      else if r.port = n then seen s r.slot
      else seen ((s.macPut { r with port := n }).inc E.bridge_station_moves.s 1) r.slot
    | none =>
      if tab.length ≥ 262144 then s.inc E.bridge_learn_refused.s 1
      else
        let slot := ((List.range (tab.length + 1)).find? (fun i => !tab.any (fun r => r.slot = i))).getD tab.length
        let s := s.macPut ⟨slot, mac, vlan, n, false⟩
        seen (s.set E.bridge_mac_count.s (tab.length + 1)) slot

/-- MAC_AGEING (R121, R122): learnt entries not seen for `bridge.ageing_time` leave the table; static ones stay. -/
def macAgeing (s : State) : State :=
  let t := s.get E.bridge_ageing_time.s
  if t = 0 then s
  else
    let old := s.macTable.filter (fun r => !r.static_ && decide (s.macAge r.slot + t * 1000000000 ≤ s.ft))
    let s := old.foldl (fun st r => st.macDel r.slot) s
    s.set E.bridge_mac_count.s s.macTable.length

/-- The bit of port n in a byte of VLAN v's record that nothing has written (R139): every Ethernet-mode port is a member of VLAN 1,
untagged. -/
def State.vlanDefault (s : State) (v n : Nat) : Bool := v == 1 && s.isPort n && s.get (E.port_mode.n n) == 1

/-- Is port n a member of VLAN v (half 0), and untagged in it (half 1) (R121, R139)? -/
def State.vlanBit (s : State) (v n half : Nat) : Bool :=
  match mget? s.cat (catKey 0x3A02 1 0 (256 * v + 128 * half + n / 8)) with
  | some b => bitAt b (n % 8)
  | none => s.vlanDefault v n

/-- Byte `off` of `bridge.vlan_table` (R139). -/
def State.vlanByte (s : State) (off : Nat) : Nat :=
  ofBitList ((List.range 8).filter fun k => s.vlanBit (off / 256) (off % 128 * 8 + k) (off / 128 % 2))

/-- Ethernet-mode ports that can send on a VLAN, but the ingress. -/
def State.vlanPorts (s : State) (v inPort : Nat) : List Nat :=
  s.portList.filter fun n => n ≠ inPort ∧ s.get (E.port_mode.n n) = 1 ∧ s.vlanBit v n 0 ∧ s.inService n ∧
    s.get (E.port_stp_state.n n) = 0

/-- A frame's tag: VLAN, PCP and DEI, or none where it is untagged. -/
def frameTag (b : List Byte) : Option (Nat × Nat × Nat) :=
  if beAt b 12 2 = 0x8100 then
    let t := beAt b 14 2
    some (t % 4096, t / 8192, t / 4096 % 2)
  else none

/-- The ECN field of an IPv4 or IPv6 packet inside a frame, with the offset of its byte (R124). -/
def frameEcn (b : List Byte) : Option (Nat × Nat × Nat) :=
  let o := if (frameTag b).isSome then 16 else 12
  if beAt b o 2 = 0x0800 then some (4, o + 3, beAt b (o + 3) 1 % 4)
  else if beAt b o 2 = 0x86DD then some (6, o + 3, beAt b (o + 3) 1 / 16 % 4)
  else none

/-- One's complement sum of 16-bit words. -/
def onesSum : Nat → List Byte → Nat
  | 0, _ => 0
  | fuel + 1, b =>
    match b with
    | x :: y :: r => let t := x.toNat * 256 + y.toNat + onesSum fuel r; t % 65536 + t / 65536
    | [x] => x.toNat * 256
    | [] => 0

/-- A frame marked CE, with the IPv4 header checksum updated (R124). None: not ECN-capable. -/
def markCe (b : List Byte) : Option (List Byte) :=
  match frameEcn b with
  | some (v, i, e) =>
    if e = 0 then none
    else if e = 3 then some b
    else
      let x := beAt b i 1
      if v = 6 then some (setAt b i (BitVec.ofNat 8 (setBitAt (setBitAt x 4) 5)))
      else
        let b := setAt b i (BitVec.ofNat 8 (setBitAt (setBitAt x 0) 1))
        let h := i - 1
        let b := setAt (setAt b (h + 10) 0) (h + 11) 0
        let len := beAt b h 1 % 16 * 4
        let sum := 0xFFFF - onesSum 64 (slice b h len)
        some (setAt (setAt b (h + 10) (BitVec.ofNat 8 (sum / 256))) (h + 11) (BitVec.ofNat 8 sum))
  | none => none

/-- A frame as it leaves a port: untagged where the VLAN says so for the port, tagged otherwise, its DEI bit as it came (R121,
R210). -/
def egressFrame (s : State) (b : List Byte) (v pcp dei n : Nat) : List Byte :=
  let bare := match frameTag b with | some _ => b.take 12 ++ b.drop 16 | none => b
  if s.vlanBit v n 1 then bare
  else bare.take 12 ++ beBytes 2 0x8100 ++ beBytes 2 (pcp * 8192 + dei * 4096 + v) ++ bare.drop 12

/-- One copy of an Ethernet frame to a port (R177, R183, R186, R188): early drop marks or drops it, the buffer test admits
it or drops it by colour. The charge is the ingress port's mtu; the surplus is released with the last byte (R175). `store` numbers
the stored frame. -/
def ethCopy (s : State) (f : EthIn) (colour store n : Nat) : State :=
  let q := s.queueOf n f.cls colour
  let h := qSlot n q
  let b := egressFrame s f.bytes f.vlan f.pcp f.dei n
  let (act, s) := s.earlyDrop n q colour
  let marked := if act ∧ s.getB (E.port_ecn_enable.n n) then markCe b else none
  if act ∧ marked.isNone then
    let s := s.inc (E.queue_early_drops.h h) 1
    (s.recDrop 0x4100 0x54 0xFF b.length n 0xFFFF 0 0 0 f.port).sampleDrop n 2 q (.eth b)
  else
    let s := if act then s.inc (E.queue_ecn_marked.h h) 1 else s
    let b := marked.getD b
    let cells := ethCells b
    let charge := max cells (ceilDiv (s.get (E.port_mtu.n f.port)) 256)
    let whole := landedBy (ethCells f.bytes) (s.width f.port) f.cyc s.cyc.n == ethCells f.bytes
    match s.admitQ n q charge colour with
    | none =>
      let (e, sub) := if colour = 0 then (E.queue_drop_green, 0x51) else if colour = 1 then (E.queue_drop_yellow, 0x52)
        else (E.queue_drop_red, 0x53)
      let s := s.inc (e.h h) 1
      (s.recDrop 0x4100 sub 0xFF b.length n 0xFFFF 0 0 0 f.port).sampleDrop n 1 q (.eth b)
    | some s =>
      let s := if whole then s.releaseQ n q (charge - cells) colour else s
      let s := s.inc (E.queue_admitted.h h) 1
      s.join { mkPkt (.eth b) (f.port / 16) f.port (if whole then 0 else s.width f.port) 0 cells f.startFt with
        out := n, queue := q, charged := if whole then cells else charge, store := store, colour := colour
        arrCyc := f.cyc, stomp := f.stomp, member := 0xFFFF }

/-- A frame in a VLAN is learnt from, then forwarded to its port or flooded (R121). -/
def bridgeFrame (s : State) (f : EthIn) (colour : Nat) : State :=
  let dst := ofLe (f.bytes.take 6)
  let stp := s.get (E.port_stp_state.n f.port)
  let s := if stp = 2 then s else s.learn (leAt f.bytes 6 6) f.vlan f.port
  if stp ≠ 0 then s
  else
    let ports := s.vlanPorts f.vlan f.port
    let hit := if bitAt dst 0 then none else s.macTable.find? (fun r => r.mac = dst ∧ r.vlan = f.vlan)
    let out := match hit with
      | some r => ports.filter (fun m => m = r.port)
      | none => ports
    let (store, s) := s.freshStore
    out.foldl (fun st m => ethCopy st f colour store m) s

/-- An Ethernet frame comes to its placement (R185, R208 to R211): its policer colours or drops it, then it is bridged. -/
def placeFrame (s : State) (f : EthIn) : State :=
  let (col, drop, s) := s.police f.port f.cls f.dei (f.bytes.length + 4) f.startFt
  if drop then s else bridgeFrame s f (if (s.policerOf f.port f.cls).isSome then col else 0)

/-- Does an Ethernet-mode port take whole frames only: is any class of it bound to a policer (R208)? -/
def State.storesFrames (s : State) (n : Nat) : Bool := (List.range 8).any fun c => (s.policerOf n c).isSome

/-- What ends a received frame. DEDUCED (log 65). -/
def dropRx (s : State) (n : Nat) : State := s.inc (E.port_rx_dropped.n n) 1

/-- The IPv6/UDP fields of a frame: the offset of the IPv6 header where the EtherType says IPv6. -/
def ip6Off (b : List Byte) : Option Nat :=
  let o := if (frameTag b).isSome then 16 else 12
  if beAt b o 2 = 0x86DD then some (o + 2) else none

/-- A datagram that this port's tunnel receives (R126): its CE mark is counted, its checksum judged, and the Rill packet inside
arrives. A wrong checksum drops what has not left and stomps what has (R117). `o` is the offset of the IPv6 header, `bad` says
that the frame ended bad after its head had left. -/
def tunnelReceive (s : State) (n o : Nat) (bytes : List Byte) (left bad : Bool) (startFt : Nat) : State :=
  let src := leAt bytes (o + 8) 16
  let ce := beAt bytes (o + 1) 1 / 16 % 4 == 3
  let s := match s.ingressBundle n (some src) with
    | some b =>
      if ce then
        { s.inc (E.tunnel_ce_received.n b) 1 with sw := { s.sw with ceSeen := mmod s.sw.ceSeen b 0 (· + 1) } }
      else s
    | none => s
  let inner := bytes.drop (o + 48)
  let sum := beAt bytes (o + 46) 2
  let pseudo := slice bytes (o + 8) 32 ++ beBytes 4 (beAt bytes (o + 44) 2) ++ beBytes 4 17
  let wrong := sum != 0 && onesSum 8192 (pseudo ++ bytes.drop (o + 40)) != 0xFFFF
  if wrong && !bad then
    if left then (s.inc (E.port_rx_stomped.n n) 1).later (.arriveTunnel n inner src true startFt) else dropRx s n
  else s.later (.arriveTunnel n inner src bad startFt)

/-- A frame of the bridge (R121, R174, R208): its VLAN and class; it comes to its placement when the core cycle ends, or from the
landing reserve once its last byte has arrived. -/
def bridgeReceive (s : State) (n : Nat) (bytes : List Byte) (bad : Bool) (startFt : Nat) : State :=
  let pvid := s.get (E.port_pvid.n n)
  let (v, pcp, dei) := match frameTag bytes with
    | some (v, p, d) => (if v = 0 then pvid else v, p, d)
    | none => (pvid, 0, 0)
  let tagged := match frameTag bytes with | some (v, _, _) => v != 0 | none => false
  let cls := match frameTag bytes with
    | some (_, p, _) => bits (s.get (E.sched_pcp_map.n n)) (3 * p + 2) (3 * p)
    | none => s.get (E.sched_default_class.n n)
  if v = 0 ∨ 4094 < v ∨ !s.vlanBit v n 0 ∨ (tagged ∧ s.get (E.port_vlan_mode.n n) = 0 ∧ v ≠ pvid) then
    if bad then s else dropRx s n
  else
    let f : EthIn := ⟨n, bytes, v, pcp, dei, cls, startFt, s.cyc.n, bad⟩
    if s.storesFrames n then { s with sw := { s.sw with landing := s.sw.landing ++ [f] } } else s.addTry n (.eth f)

/-- ETHERNET_FRAME_RECEIVE (R115, R117, R120 to R126): FEC and the FCS are judged; control addresses go to the host, PAUSE is
dropped, a tunnelled frame is decapsulated, every other frame is bridged. A frame that ends bad is dropped, or goes on stomped
where its head had left. `bytes` is the frame without FCS. In far-end loopback the lanes send it back (R135). -/
def ethReceive (s : State) (n : Nat) (bytes : List Byte) (fcs : Nat) (left : Bool) (words : List (Nat × List Nat)) (startFt : Nat) :
    State :=
  let len := bytes.length + 4
  if s.get (E.port_mode.n n) ≠ 1 then s
  else if s.get (E.port_state.n n) = 5 ∧ s.get (E.port_loopback.n n) = 3 then s.emit (.laneReturn n bytes fcs)
  else if !s.inService n then s
  else
    let (fixed, lost) := fecCount 0 words
    let s := (s.inc (E.port_fec_corrected.n n) fixed).inc (E.port_fec_uncorrectable.n n) lost
    let ending := endingOf bytes fcs
    let bad := lost != 0 || ending != 0 || decide (len < 64) || decide (s.get (E.port_mtu.n n) < len)
    let dst := beAt bytes 0 6
    let et := if (frameTag bytes).isSome then beAt bytes 16 2 else beAt bytes 12 2
    let control := decide (0x0180C2000000 ≤ dst) && decide (dst ≤ 0x0180C200000F)
    let tunnelled := if s.get (E.port_role.n n) = 3 then ip6Off bytes else none
    let o := tunnelled.getD 0
    let mine : Bool := tunnelled.isSome && leAt bytes (o + 24) 16 == s.get (E.port_tunnel_src.n n)
    let icmp := mine && beAt bytes (o + 6) 1 == 58
    if bad && (!left || s.storesFrames n || control || icmp) then
      if lost = 0 ∧ ending = 2 then s.inc (E.port_rx_stomped.n n) 1 else dropRx s n
    else
      let s := if bad then s.inc (E.port_rx_stomped.n n) 1 else s.sampleSee n 0 0 0xFFFF (.eth bytes) startFt
      if control then
        if et = 0x8808 then s.inc (E.port_pause_dropped.n n) 1 else s.later (.hostRecord 0 0 n 0 0 bytes)
      else if mine && beAt bytes (o + 6) 1 == 17 && beAt bytes (o + 42) 2 == s.get E.tunnel_udp_port.s then
        tunnelReceive s n o bytes left bad startFt
      else if icmp then s.later (.hostRecord 0 0 n 0 0 bytes)
      else bridgeReceive s n bytes bad startFt

end Sys2Proof.Machine
end

