-- ==== Sys2Proof/Machine/Host.lean ====
section
/-!
DEFINITION. Firmware, life cycle, attestation, the sideband, the management port and the PCIe host endpoint
(spec/18_host_management_curator.md, R478 to R500).
-/

namespace Sys2Proof.Machine

/-! ### Firmware -/

/-- The slot that runs (R498). -/
def State.fwSlot (s : State) : Nat := s.get E.fw_running.s % 256

/-- Bytes of a slot's image (R478). -/
def State.fwBytes (s : State) (slot off len : Nat) : List Byte :=
  (List.range len).map fun i => BitVec.ofNat 8 (s.dom E.fw_image 0 slot (off + i))

/-- A write to `fw.image` goes to the inactive slot and clears `fw.verify_status` to 0x0C (R479). -/
def fwImageWrite (s : State) (off : Nat) (b : List Byte) : State :=
  (s.domPut E.fw_image 0 (1 - s.fwSlot) off b).set E.fw_verify_status.s 0x0C

/-- What the tests of R478 give for a slot: 0x00 good, 0x05 signature or digest, 0x06 security version. DEDUCED (log 142). -/
def fwTest (s : State) (slot : Nat) : Nat :=
  let h := s.fwBytes slot 0 160
  let len := leAt h 12 4
  let magic : List Byte := [0x53, 0x56, 0x46, 0x57]
  if h.take 4 ≠ magic ∨ 33554432 - 4096 < len ∨ !Config.fwSignature (ofLe (h.take 64)) (ofLe (slice h 64 96)) then 0x05
  else if sha384 (s.fwBytes slot 4096 len) ≠ slice h 16 48 then 0x05
  else if leAt h 8 4 < s.get E.fw_min_security.s then 0x06
  else 0

/-- FW_VERIFY (R479): writing 1 tests the inactive slot. DEDUCED (log 142). -/
def fwVerify (s : State) (v : Nat) : State :=
  if v = 0 then s else s.set E.fw_verify_status.s (fwTest s (1 - s.fwSlot))

/-- FW_ACTIVATE (R479, R77). -/
def fwActivate (s : State) (ft : Nat) : Nat × State :=
  let r := s.ftTestIn ft (s.get E.fw_verify_status.s != 0)
  if r ≠ 0 then (r, s)
  else (0, s.schedule ft (.fwActivate 0))

/-- A slot becomes the running one (R498), and the conditions that its image lifts no longer apply (R599). DEDUCED (log 142);
DESIGN CHOICE (log 191). -/
def State.runSlot (s : State) (slot : Nat) : State :=
  let h := s.fwBytes slot 0 64
  (s.set E.fw_running.s (slot + leAt h 4 4 * 2 ^ 32 + leAt h 8 4 * 2 ^ 64)).set E.device_conditions.s
    (16383 - (16383 &&& Config.conditionsLifted (ofLe h)))

/-- FW_ACTIVATE_FIRE (R480): the general cores, or the chip, restart on the new slot. -/
def fwActivateFire (s : State) : State :=
  match s.dueAct with
  | some ⟨_, _, .fwActivate m⟩ =>
    let s := s.unschedule (.fwActivate m)
    let old := s.fwSlot
    let s := (s.runSlot (1 - old)).set E.fw_verify_status.s 0x0C
    let s := s.modMgmt fun m => { m with fwWatch := some (s.ft, old) }
    if s.get E.fw_activate_mode.s = 0 then s.restartCores else s.later (.chipReset 3)
  | _ => s

/-- FW_FALLBACK (R480): not ready within 10 s of the activation, the boot ROM starts the previous slot. -/
def fwFallback (s : State) : State :=
  match s.mgmt.fwWatch with
  | some (t, old) =>
    if t + 10000000000 ≤ s.ft ∧ s.get E.device_ready.s = 0 then
      let s := (s.runSlot old).modMgmt fun m => { m with fwWatch := none }
      ((s.stick E.fw_flags.s 0).raise 896).restartCores
    else s
  | none => s

/-- FW_COMMIT (R480): the running slot is permanent and its security version becomes the minimum. -/
def fwCommit (s : State) (v : Nat) : State :=
  if v = 0 then s
  else
    let s := s.set E.fw_min_security.s (max (s.get E.fw_min_security.s) (s.get E.fw_running.s / 2 ^ 64 % 2 ^ 32))
    s.modMgmt fun m => { m with fwWatch := none }

/-! ### Life cycle -/

/-- LC_ADVANCE (R482): the next state, by its role; every other write is 0x0C. -/
def lcAdvance (s : State) (role v : Nat) : Nat × State :=
  let st := s.get E.lc_state.s
  let go := (0, s.set E.lc_pending.s v)
  if v ≠ st + 1 ∨ st = 0 ∨ 4 ≤ st then (0x0C, s)
  else if st = 1 then if role ≠ 0 then (0x05, s) else if s.mgmt.identity then go else (0x0C, s)
  else if role ≠ 1 then (0x05, s)
  else if st = 2 then if bitAt (s.get E.sec_keys_set.s) 0 then go else (0x0C, s)
  else if s.get E.lc_confirm.s = 0x52455455 then go else (0x0C, s)

/-! ### Attestation -/

/-- SPDM_REQUEST (R486): in every state except Blank, over MCTP. Response codes and the order of the requests are those of
DSP0274 version 1.2; the bodies that hold keys, certificates, hashes and signatures are free. DEDUCED (log 137). -/
def spdmRequest (s : State) (eid : Nat) (b : List Byte) : State :=
  if s.get E.lc_state.s = 0 ∨ s.mgmt.sbFailed then s
  else
    let ver := leAt b 0 1
    let code := leAt b 1 1
    let stage := s.mgmt.spdm
    let reply := fun (s : State) (st v rc n : Nat) =>
      let (body, s) := s.freshBytes n
      (s.modMgmt fun m => { m with spdm := st }).emit (.mctp eid (leBytes 1 0x05 ++ leBytes 1 v ++ leBytes 1 rc ++
        leBytes 2 0 ++ body))
    let error := fun (e : Nat) => s.emit (.mctp eid (leBytes 1 0x05 ++ leBytes 1 0x12 ++ leBytes 1 0x7F ++ leBytes 1 e ++
      leBytes 1 code))
    if code = 0x84 then
      (s.modMgmt fun m => { m with spdm := 1 }).emit (.mctp eid (leBytes 1 0x05 ++ leBytes 1 0x10 ++ leBytes 1 0x04 ++
        leBytes 2 0 ++ leBytes 1 0 ++ leBytes 1 1 ++ leBytes 2 0x1200))
    else if ver ≠ 0x12 then error 0x41
    else if code = 0xE1 then if 1 ≤ stage then reply s 2 0x12 0x61 14 else error 0x04
    else if code = 0xE3 then if 2 ≤ stage then reply s 3 0x12 0x63 32 else error 0x04
    else if code = 0x81 ∨ code = 0x82 ∨ code = 0x83 ∨ code = 0xE0 then
      if stage < 3 then error 0x04
      else if code ≠ 0x81 ∧ leAt b (if code = 0xE0 then b.length - 1 else 2) 1 % 16 ≠ 0 ∧ code ≠ 0xE0 then error 0x01
      else if code = 0xE0 ∧ 4 < leAt b 3 1 ∧ leAt b 3 1 ≠ 0xFF then error 0x01
      else if code = 0x81 then reply s 3 0x12 0x01 48
      else if code = 0x82 then reply s 3 0x12 0x02 (leAt b 6 2)
      else if code = 0x83 then reply s 3 0x12 0x03 224
      else reply s 3 0x12 0x60 224
    else error 0x07

/-! ### The sideband -/

/-- SET_ENDPOINT_ID (R487): the endpoint ID reads in `mctp.eid`. -/
def setEndpointId (s : State) (eid : Nat) : State :=
  if s.mgmt.sbFailed ∨ eid = 0 ∨ 255 ≤ eid then s else s.set E.mctp_eid.s eid

/-- SIDEBAND_STUCK (R488): SB_SDA low for 10 ms with SB_SCL high. -/
def sidebandStuck (s : State) : State :=
  if s.mgmt.sbFailed ∨ s.mgmt.stuckAt.isSome then s
  else
    let s := s.modMgmt fun m => { m with stuckAt := some (s.ft - 10000000), recoverAt := s.ft + 5000000 }
    (s.inc E.mctp_recoveries.s 1).emit (.device 1 [9])

/-- SIDEBAND_RECOVERY_ROUND (R488): nine pulses and a STOP every 5 ms while the line is low; released, it is no longer
stuck. DEDUCED (log 138). -/
def sidebandRound (s : State) (low : Bool) : State :=
  match s.mgmt.stuckAt with
  | none => s
  | some t =>
    if s.mgmt.sbFailed then s
    else if !low then s.modMgmt fun m => { m with stuckAt := none }
    else if s.ft < s.mgmt.recoverAt ∨ t + 35000000 ≤ s.ft then s
    else (s.modMgmt fun m => { m with recoverAt := m.recoverAt + 5000000 }).emit (.device 1 [9])

/-- SIDEBAND_FAILED (R488): a line still stuck at 35 ms, or SB_SCL alone low for 35 ms. -/
def sidebandFailed (s : State) (sclAlone : Bool) : State :=
  let due := match s.mgmt.stuckAt with | some t => decide (t + 35000000 ≤ s.ft) | none => false
  if s.mgmt.sbFailed ∨ !(sclAlone || due) then s
  else
    let s := s.modMgmt fun m => { m with sbFailed := true, stuckAt := none }
    let s := (s.stick E.mctp_flags.s 0).raise 2
    (s.closeVia .mctp).emit (.device 1 [0])

/-- MCTP_RESTART (R488): a write of 1 from another path ends the failure. -/
def mctpRestart (s : State) (v : Nat) : State :=
  if v = 0 then s else s.modMgmt fun m => { m with sbFailed := false, stuckAt := none }

/-! ### The management port -/

/-- The port's IPv6 addresses (R489): the static one, and the link-local one formed from the MAC. -/
def State.mgmtIp6 (s : State) : List (List Byte) :=
  let m := leBytes 6 Config.commMac
  let eui := leBytes 1 ((leAt m 0 1) ^^^ 2) ++ slice m 1 2 ++ beBytes 2 0xFFFE ++ m.drop 3
  [(leBytes 36 (s.get E.comm_ipv6.s)).take 16, beBytes 8 0xFE80000000000000 ++ eui]

/-- The Ethernet header of an answer. DEDUCED (log 138). -/
def mgmtEth (b : List Byte) (et : Nat) : List Byte := slice b 6 6 ++ leBytes 6 Config.commMac ++ beBytes 2 et

/-- The one's complement checksum of bytes. -/
def inetSum (b : List Byte) : Nat := 0xFFFF - onesSum (b.length + 1) b

/-- An IPv6 answer with an ICMPv6 body whose checksum field is zero. -/
def icmp6Reply (b src : List Byte) (dst : List Byte) (body : List Byte) : List Byte :=
  let pseudo := src ++ dst ++ beBytes 4 body.length ++ beBytes 4 58
  let sum := inetSum (pseudo ++ body)
  mgmtEth b 0x86DD ++ beBytes 4 (6 * 2 ^ 28) ++ beBytes 2 body.length ++ leBytes 1 58 ++ leBytes 1 255 ++ src ++ dst ++
  body.take 2 ++ beBytes 2 sum ++ body.drop 4

/-- The rate limit of 20,000 datagrams a second (R489). -/
def State.dgRoom (s : State) : Bool × State :=
  let s := if s.mgmt.dgAt + 1000000000 ≤ s.ft then s.modMgmt fun m => { m with dgAt := s.ft, dgCount := 0 } else s
  if 20000 ≤ s.mgmt.dgCount then (false, s) else (true, s.modMgmt fun m => { m with dgCount := m.dgCount + 1 })

/-- MGMT_FRAME_RECEIVE (R489, R58): ARP, neighbour discovery and echo are answered, UDP on `comm.udp_port` is served, every
other frame is dropped and counted. `b` is the frame without FCS. DEDUCED (log 138). -/
def mgmtFrame (s : State) (b : List Byte) : State :=
  let drop := s.inc E.comm_dropped.s 1
  let et := beAt b 12 2
  let ip4 := (leBytes 12 (s.get E.comm_ipv4.s)).take 4
  let udp := fun (src : Nat) (seg : List Byte) =>
    if beAt seg 2 2 ≠ s.get E.comm_udp_port.s then drop
    else match s.dgRoom with
      | (false, s) => s.inc E.comm_dropped.s 1
      | (true, s) => s.later (.datagram src ((seg.take (beAt seg 4 2)).drop 8))
  if et = 0x0806 then
    if beAt b 20 2 = 1 ∧ slice b 38 4 = ip4 ∧ ofLe ip4 ≠ 0 then
      s.emit (.mgmtFrame (mgmtEth b 0x0806 ++ slice b 14 6 ++ beBytes 2 2 ++ leBytes 6 Config.commMac ++ ip4 ++
        slice b 22 10))
    else drop
  else if et = 0x0800 then
    let hl := beAt b 14 1 % 16 * 4
    let seg := (b.drop 14 |>.take (beAt b 16 2)).drop hl
    if slice b 30 4 ≠ ip4 ∨ ofLe ip4 = 0 ∨ beAt b 20 2 % 16384 ≠ 0 then drop
    else if beAt b 23 1 = 1 ∧ beAt seg 0 1 = 8 then
      let body := leBytes 4 0 ++ seg.drop 4
      let body := body.take 2 ++ beBytes 2 (inetSum body) ++ body.drop 4
      let h := beBytes 1 0x45 ++ beBytes 1 0 ++ beBytes 2 (20 + body.length) ++ beBytes 4 0 ++ beBytes 2 0x4001 ++
        beBytes 2 0 ++ ip4 ++ slice b 26 4
      s.emit (.mgmtFrame (mgmtEth b 0x0800 ++ h.take 10 ++ beBytes 2 (inetSum h) ++ h.drop 12 ++ body))
    else if beAt b 23 1 = 17 then udp (beAt b 26 4 * 65536 + beAt seg 0 2) seg
    else drop
  else if et = 0x86DD then
    let mine := s.mgmtIp6
    let dst := slice b 38 16
    let src := slice b 22 16
    let seg := (b.drop 54).take (beAt b 18 2)
    let nh := beAt b 20 1
    if nh = 58 ∧ beAt seg 0 1 = 135 ∧ mine.contains (slice seg 8 16) then
      let tgt := slice seg 8 16
      s.emit (.mgmtFrame (icmp6Reply b tgt src (beBytes 1 136 ++ beBytes 1 0 ++ beBytes 2 0 ++ beBytes 4 0x60000000 ++ tgt ++
        beBytes 2 0x0201 ++ leBytes 6 Config.commMac)))
    else if !mine.contains dst then drop
    else if nh = 58 ∧ beAt seg 0 1 = 128 then
      s.emit (.mgmtFrame (icmp6Reply b dst src (beBytes 1 129 ++ beBytes 3 0 ++ seg.drop 4)))
    else if nh = 17 then udp ((2 ^ 128 + ofBe src) * 65536 + beAt seg 0 2) seg
    else drop
  else drop

/-! ### The aperture -/

/-- May an aperture access go on (R491, check 12 of R163)? -/
def apertureOk (s : State) (a len right : Nat) : Bool :=
  let h := s.get E.host_aperture_window.s
  match s.liveH 8 h with
  | some r => r.part == s.get E.host_aperture_partition.s && s.winCovers (hIdx h) a len right && !s.diesDown a len &&
    !s.cxlDown a len
  | none => false

/-- APERTURE_ACCESS (R491): a host write takes effect as a memory write without cpl_req; a read follows every earlier
write. DEDUCED (log 139). -/
def apertureAccess (s : State) (write : Bool) (off len : Nat) (data : List Byte) : State :=
  if !s.hostOn ∨ 1073741824 < off + (if write then data.length else len) then s
  else
    let a := s.get E.host_aperture_base.s + off
    if s.ms.apHeld ≠ [] ∨ s.retained a (if write then data.length else len) then
      (s.modMs fun m => { m with apHeld := m.apHeld ++ [⟨write, off, len, data⟩] }).later (.wakeEvent 2)
    else if write then
      if apertureOk s a data.length 1 then s.store a data else s.inc E.host_aperture_errors.s 1
    else if apertureOk s a len 0 then
      let (b, s) := s.load a len
      s.emit (.hostReadData b)
    else (s.inc E.host_aperture_errors.s 1).emit (.hostReadData (List.replicate len 0xFF))

/-- The held accesses are served in arrival order, as far as their stacks are usable (R527). DEDUCED (log 139). -/
def State.apServe (s : State) : State :=
  if s.ms.apHeld.any (fun x => s.retained (s.get E.host_aperture_base.s + x.off) (max x.len x.data.length)) then s
  else
    let l := s.ms.apHeld
    l.foldl (fun st x => apertureAccess st x.write x.off x.len x.data) (s.modMs fun m => { m with apHeld := [] })

/-! ### Host rings -/

/-- The state of ring r. -/
def State.ring (s : State) (r : Nat) : RingRt := mgetD s.rings r ⟨0, 0, 0, false, [], [], none, [], []⟩

/-- The state of ring r changed. -/
def State.modRing (s : State) (r : Nat) (f : RingRt → RingRt) : State := { s with rings := mput s.rings r (f (s.ring r)) }

/-- Does ring r run: enabled, not stopped, the host domain on? -/
def State.ringOn (s : State) (r : Nat) : Bool := s.getB (E.hring_enable.n r) && !(s.ring r).stopped && s.hostOn

/-- The items of a NOTIFY leave its session's queue (R511). -/
def State.unqueue (s : State) (sess cnt : Nat) : State :=
  s.modMgmt fun m => { m with sessions := m.sessions.map fun x => if x.id = sess then { x with queued := x.queued - cnt } else x }

/-- A record for ring 0 or 1 is held whole in a buffer of the ring's pool (R493), or dropped. -/
def hostStage (s : State) (r typ port sess cnt : Nat) (b : List Byte) : State :=
  if !s.ringOn r then s.unqueue sess cnt
  else
    let h := s.get (E.hring_pool.n r)
    let lost := fun (s : State) => (s.inc (E.hring_no_stage.n r) 1).unqueue sess cnt
    match s.liveH 3 h with
    | none => lost s
    | some _ =>
      if s.get (E.pool_buffer_size.h (hIdx h)) < b.length then lost s
      else match poolTake s (hIdx h) with
        | (.error _, s) => lost s
        | (.ok a, s) => (s.store a b).modRing r fun x => { x with staged := x.staged ++ [⟨a, hIdx h, typ, port, sess, cnt, b⟩] }

/-- A record leaves its staging buffer. -/
def State.unstage (s : State) (x : RingRec) : State := (poolFree s x.pool x.buf).2.unqueue x.sess x.cnt

/-- The first write-back not yet signalled starts the holdoff (R493). DEDUCED (log 140). -/
def State.signal (s : State) (r : Nat) : State :=
  s.modRing r fun x => { x with irqAt := match x.irqAt with | some t => some t | none => some s.ft }

/-- How a record fills posted descriptors: chunks with the descriptor each takes, and the bytes left over. -/
def fillBuffers : List (List Byte) → List Byte → List (List Byte × List Byte) × List Byte
  | _, [] => ([], [])
  | [], b => ([], b)
  | d :: ds, b =>
    let n := max 1 (leAt d 8 2)
    let (l, rest) := fillBuffers ds (b.drop n)
    ((d, b.take n) :: l, rest)

/-- A record is written into posted buffers (R493, R494). DEDUCED (log 140). -/
def ringWrite (s : State) (r : Nat) (x : RingRec) : State :=
  let rt := s.ring r
  let size := s.get (E.hring_size.n r)
  let (used, rest) := fillBuffers rt.posted x.bytes
  let s := (s.modRing r fun t => { t with staged := t.staged.drop 1 }).unstage x
  match used with
  | [] => (s.inc (E.hring_no_buffer.n r) 1).modRing r fun t => { t with flags := setBitAt t.flags 1 }
  | _ =>
    let n := used.length
    let put := fun (acc : Nat × State) (u : List Byte × List Byte) =>
      let i := acc.1
      let last := i + 1 == n
      let fl := 1 + (if i = 0 then 2 else 0) + (if last then 4 else 0) + (if last && rest.length != 0 then 8 else 0)
      let st := acc.2.emit (.hostWrite (leAt u.1 0 8) u.2)
      (i + 1, st.emit (.hostWrite (s.get (E.hring_base.n r) + 16 * ((rt.head + i) % max 1 size) + 10)
        (leBytes 2 u.2.length ++ leBytes 1 fl ++ leBytes 1 x.typ ++ leBytes 2 x.port)))
    let (_, s) := used.foldl put (0, s)
    let s := (s.modRing r fun t => { t with
      head := (t.head + n) % max 1 size, posted := t.posted.drop n }).signal r
    let s := s.inc (E.hring_records.n r) 1
    if rest = [] then s
    else
      let s := (s.inc (E.hring_truncated.n r) 1).inc (E.hring_dropped_bytes.n r) rest.length
      s.modRing r fun t => { t with flags := setBitAt t.flags 0 }

/-- The next published Archive buffer goes to a posted entry of ring 2 (R497). -/
def ringArchive (s : State) : State :=
  if !s.ringOn 2 ∨ (s.ring 2).posted = [] then s
  else
    match (s.liveIdx 7).find? (fun i => s.get (E.trace_dest.h i) == 1 && (s.trace i).queue.length != 0) with
    | none => s
    | some i =>
      let a := ((s.trace i).queue).headD 0
      let used := ofLe (s.memRead (a + 24) 4)
      let s := s.modTrace i fun t => { t with queue := t.queue.drop 1 }
      let head := (s.ring 2).head
      let s := s.emit (.hostWrite (s.get (E.hring_base.n 2) + 16 * head)
        (leBytes 8 a ++ leBytes 4 (s.wordOf 7 i) ++ leBytes 3 used ++ leBytes 1 1))
      let s := s.modRing 2 fun t => { t with
        head := (t.head + 1) % max 1 (s.get (E.hring_size.n 2)), posted := t.posted.drop 1 }
      (s.inc (E.hring_records.n 2) 1).signal 2

/-- The record in front of ring 0 or 1 takes its descriptors. -/
def ringTake (s : State) (r : Nat) : State :=
  if !s.ringOn r then s
  else match (s.ring r).staged with
    | x :: _ => ringWrite s r x
    | [] => s

/-- Do the posted buffers of a ring hold the record in front? -/
def ringFits (s : State) (r : Nat) : Bool :=
  match (s.ring r).staged with
  | x :: _ => (s.ring r).posted != [] && (fillBuffers (s.ring r).posted x.bytes).2 == []
  | [] => true

/-- RING_RECORD_DELIVER (R492 to R494, R497): a record for which the posted entries do not do is judged as the core cycle ends,
since a ring_tail write of this cycle comes before the take. DEDUCED (log 140). -/
def ringDeliver (s : State) (r : Nat) : State :=
  if r = 2 then ringArchive s
  else if ringFits s r then ringTake s r
  else if s.cyc.rings.contains r then s
  else { s with cyc := { s.cyc with rings := s.cyc.rings ++ [r] } }

/-- RING_TAIL (R490, R492): the host clears flags of the ring and posts entries. -/
def ringTail (s : State) (r : Nat) (post : Post) (entries : List (List Byte)) : State :=
  if !s.hostOn then s
  else
    let size := max 1 (s.get (E.hring_size.n r))
    let t := s.ring r
    let new := (post.tail % size + size - t.tail % size) % size
    s.modRing r fun t => { t with
      flags := t.flags &&& (7 ^^^ (post.clear % 8))
      tail := post.tail % size, posted := t.posted ++ (entries ++ List.replicate new (leBytes 16 0)).take new }

/-- RING_IRQ_HOLDOFF (R493): the ring's vector is raised. -/
def ringIrq (s : State) (r : Nat) : State :=
  match (s.ring r).irqAt with
  | some t =>
    if t + s.get (E.hring_irq_holdoff.n r) ≤ s.ft ∧ s.hostOn then
      (s.modRing r fun x => { x with irqAt := none }).emit (.irq (1 + r))
    else s
  | none => s

/-- What a ring that stops holds goes back. -/
def State.ringClear (s : State) (r : Nat) : State :=
  let s := (s.ring r).staged.foldl (fun st x => st.unstage x) s
  s.modRing r fun x => { x with staged := [], acc := [], accBytes := [] }

/-- HRING_ENABLE (R492): a ring stops after the record in progress; a frame of ring 3 that has begun is still sent.
DEDUCED (log 140). -/
def hringEnable (s : State) (r v : Nat) : State :=
  let s := s.set (E.hring_enable.n r) v
  let s := s.modRing r fun x => { x with stopped := false }
  if v = 0 ∧ r ≠ 3 then s.ringClear r else s

/-- Rings of a pool that failed or is force-destroyed stop (R495). -/
def ringPoolLost (s : State) (p : Nat) : State :=
  [0, 1].foldl (fun st r =>
    let h := st.get (E.hring_pool.n r)
    if h ≠ 0 ∧ hIdx h = p ∧ st.getB (E.hring_enable.n r) ∧ !(st.ring r).stopped then
      let st := st.ringClear r
      (st.modRing r fun x => { x with stopped := true, flags := setBitAt x.flags 2 }).raise 898
    else st) s

/-- A whole transmit-ring frame is sent (R496). Answers the status. -/
def ringSend (s : State) (kind port : Nat) (b : List Byte) : Nat × State :=
  if kind = 0 then
    if port < 1024 ∧ s.isPort port ∧ s.get (E.port_mode.n port) = 1 then
      let cls := s.get (E.sched_default_class.n port)
      (0, s.placePort (mkPkt (.eth b) 85 0xFFFF 8 0 (ceilDiv (b.length + 4) 256) s.ft) port cls)
    else (0x06, s)
  else
    let h := parseRill b
    let bundle := h.route.getD 0 0
    if kind ≠ 1 ∨ b.length < 48 ∨ h.hopCount = 0 ∨ !((s.members bundle).any fun c => s.inService c.2) then (0x06, s)
    else
      let p := (b.drop 48).take h.length
      (0, s.placeInternal (mkPkt (.rill { h with hopPtr := 1 } p) 85 0xFFFF 8 bundle (ceilDiv (48 + p.length) 256) s.ft))

/-- TX_DESCRIPTOR (R496): the next posted descriptor of ring 3, with the bytes that the host's buffer holds.
DEDUCED (log 140). -/
def txDescriptor (s : State) (data : List Byte) : State :=
  let t := s.ring 3
  match t.posted with
  | [] => s
  | d :: ds =>
    if !(s.ringOn 3 || (s.hostOn && t.acc != [])) then s
    else
      let size := max 1 (s.get (E.hring_size.n 3))
      let fl := leAt d 12 1
      let len := leAt d 8 2
      let bytes := (data ++ List.replicate len 0).take len
      let fresh := bitAt fl 1
      let acc := (if fresh then [] else t.acc) ++ [(t.head, d)]
      let all := (if fresh then [] else t.accBytes) ++ bytes
      let s := s.modRing 3 fun t => { t with head := (t.head + 1) % size, posted := ds, acc := acc, accBytes := all }
      if !bitAt fl 2 then s
      else
        let (st, s) := ringSend s (leAt d 13 1) (leAt d 10 2) all
        let s := s.modRing 3 fun t => { t with acc := [], accBytes := [] }
        let s := acc.foldl (fun st2 e => st2.emit (.hostWrite (s.get (E.hring_base.n 3) + 16 * e.1 + 12)
          (leBytes 1 (setBitAt (leAt e.2 12 1) 0) ++ slice e.2 13 1 ++ leBytes 2 st))) s
        (if st = 0 then s.inc (E.hring_records.n 3) 1 else s).signal 3

end Sys2Proof.Machine
end

