-- ==== Sys2Proof/Machine/Faults.lean ====
section
/-!
DEFINITION. Block resets, the chip-reset reaction and the FAULT_N pin (spec/19_faults_and_reactions.md, R506 to R513).
-/

namespace Sys2Proof.Machine

/-- Is the FAULT_N line low: driven by the FN7 on this core cycle (R507), by its boot ROM (R568), or from outside? -/
def State.lineLow (s : State) : Bool :=
  s.flt.drive || s.flt.extLow || (s.get E.boot_stage.s == 1 && (s.get E.boot_code.s == 1 || s.get E.boot_code.s == 2))

/-- `fault.pin_level` (R508). -/
def State.pinLevel (s : State) : Nat := if s.lineLow then 0 else 1

/-- The low period of the line begins or ends (R509); its level leaves at the pin. -/
def State.pinTrack (s : State) : State :=
  if s.lineLow then
    match s.flt.lowSince with
    | some _ => s
    | none => ({ s with flt := { s.flt with lowSince := some s.ft } }).emit (.pin 0 false)
  else
    match s.flt.lowSince with
    | some _ => ({ s with flt := { s.flt with lowSince := none } }).emit (.pin 0 true)
    | none => s

/-- FAULT_N_EXTERNAL (R508): the level that the other devices give the line; low for 1,000 ns while the FN7 samples and does
not drive raises source 641. DEDUCED (log 146). -/
def faultNExternal (s : State) (low : Bool) : State :=
  let s := { s with flt := { s.flt with extLow := low } }
  if low && !s.flt.drive then
    let s := { s with flt := { s.flt with lowSince := match s.flt.lowSince with | some t => some t | none => some (s.ft - 1000) } }
    if s.get E.fault_pin_sampling.s = 1 then s.raise 641 else s
  else s.pinTrack

/-- FAULT_N_STUCK (R509). DEDUCED (log 146). -/
def faultNStuck (s : State) : State :=
  match s.flt.lowSince with
  | some t =>
    if s.get E.fault_pin_sampling.s = 1 ∧ s.lineLow ∧ max t s.flt.samplingSince + 10000000 ≤ s.ft then
      (s.set E.fault_pin_sampling.s 0).raise 640
    else s
  | none => s

/-- FAULT_PIN_REARM (R509). -/
def faultPinRearm (s : State) (v : Nat) : Nat × State :=
  if v = 0 then (0, s)
  else if s.lineLow then (0x0C, s)
  else (0, { (s.set E.fault_pin_sampling.s 1) with flt := { s.flt with samplingSince := s.ft } })

/-- FAULT_INJECT (R513): the source is raised on the next core cycle. -/
def faultInject (s : State) (v : Nat) : Nat × State :=
  if sourceKnown v then (0, { s with flt := { s.flt with injected := s.flt.injected ++ [v] } }) else (0x06, s)

/-- FAULT_SETTING (R502, R503, R506): the conditions of these sources occur on one cycle. -/
def faultSetting (s : State) (srcs : List Nat) : State := s.raiseAll (srcs.filter sourceKnown)

/-- What port n was receiving is lost, and counted in `port.rx_dropped` (R506): frames not placed yet, and packets whose cells still
arrive, stomped where their header has left. DEDUCED (log 147). -/
def State.cutRx (s : State) (n : Nat) : State :=
  let mine := fun (t : Try) => match t.kind with | .rill m .. => m == n | .eth f => f.port == n | .again _ => false
  let lost := (s.sw.tries.filter mine).length + (s.sw.landing.filter fun f => f.port == n).length
  let s := (s.inc (E.port_rx_dropped.n n) lost)
  let s := { s with sw := { s.sw with tries := s.sw.tries.filter fun t => !mine t, landing := s.sw.landing.filter fun f => f.port != n } }
  (s.sw.pkts.filter fun p => p.ingress == n && decide (arrivedCells p s.cyc.n < p.cells)).foldl (fun st p =>
    let st := st.inc (E.port_rx_dropped.n n) 1
    let st := if p.started then (st.inc (E.port_tx_stomped.n p.out) 1).emit (.stomp p.out) |>.endFrame p.out else st
    st.dropPkt p) s

/-- The status and the flags of port n and its lanes as at reset (R15, R506). -/
def State.portFresh (s : State) (n : Nat) : State :=
  let s := (s.set (E.port_notice.n n) 0).set (E.port_flags.n n) 0
  (List.range (s.get (E.port_width.n n))).foldl (fun st k => (st.set (E.lane_snr.n (n + k)) 0).set (E.lane_pre_fec_ber.n (n + k)) 0) s

/-- A block reset puts a unit's status and flags to their reset values (R15, R506) and runs its abort path. DEDUCED (log 147). -/
def resetUnit (s : State) (u : Nat) : State :=
  if u < 4 then
    (s.portList.filter (fun n => n / 256 = u ∧ s.get (E.port_state.n n) ≠ 0)).foldl (fun st n =>
      let up := st.get (E.port_state.n n)
      let was := st.inService n
      let st := ((st.cutRx n).flushPort n).portFresh n
      let st := if was then st.later (.memberLost n) else st
      let st := st.startPort n
      if up = 2 ∨ up = 3 then st.linkNotice n 1 else st) s
  else if u < 12 then
    (s.liveIdx 1).foldl (fun st i =>
      if st.get (E.collective_engine.h i) = u - 4 ∧ 2 ≤ st.get (E.collective_state.h i) then st.abortRun i (List.range (st.memberCount i)) 1 else st) s
  else if u < 16 then
    let d := u - 12
    let s := s.abortJobs (fun j => j.mills.any (fun x => x / 68 == d)) 0x0B
    (List.range 68).foldl (fun st x => if st.get (E.mill_state.n (68 * d + x)) = 2 then st.set (E.mill_state.n (68 * d + x)) 1 else st) s
  else if u < 24 then
    let c := u - 16
    if s.get (E.cxl_enable.n c) = 0 then s else s.cxlDisable c
  else
    let h := u - 24
    let accs := s.ms.accs.filter fun a => (s.stacksOf (rillAddr a.h) (accLen a.h)).contains h
    let s := accs.foldl (fun st a => st.endAcc a 0x0C []) s
    if s.get (E.hbm_state.n h) = 3 then s else s.set (E.hbm_state.n h) 1

/-- A block reset requested for a unit (R506, R512): merged with one in progress, refused after four in a second.
DEDUCED (log 147). -/
def blockReset (s : State) (u : Nat) : State :=
  if s.flt.resetting.contains u then s
  else
    let recent := s.flt.history.filter (fun p => s.ft < p.2 + 1000000000)
    if 4 ≤ (recent.filter (fun p => p.1 = u)).length then (s.inc E.fault_storm_refused.s 1).raise 642
    else
      let s := { s with flt := { s.flt with history := recent ++ [(u, s.ft)], resetting := u :: s.flt.resetting } }
      resetUnit (s.inc E.fault_block_resets.s 1) u

/-- BLOCK_RESET_DONE (R506): the unit is back in service; a retrained stack reads active. DEDUCED (log 147). -/
def blockResetDone (s : State) (u : Nat) : State :=
  if !s.flt.resetting.contains u then s
  else
    let s := { s with flt := { s.flt with resetting := s.flt.resetting.filter (· ≠ u) } }
    if 24 ≤ u ∧ u < 32 ∧ s.get (E.hbm_state.n (u - 24)) = 1 then s.set (E.hbm_state.n (u - 24)) 2 else s

/-- CHIP_RESET_REACTION (R506): 10,000 ns after the setting the chip reset begins. -/
def chipResetReaction (s : State) : State :=
  match s.flt.pendingReset with
  | some (src, t) =>
    if t ≤ s.ft then
      let s := (s.set E.fault_last_reset_cause.s src).inc E.fault_chip_resets.s 1
      ({ s with flt := { s.flt with pendingReset := none } }).later (.chipReset 2)
    else s
  | none => s

end Sys2Proof.Machine
end

