-- ==== Sys2Proof/Machine/Power.lean ====
section
/-!
DEFINITION. Power domains and states (spec/20_power_domains_and_states.md, R516 to R538).
-/

namespace Sys2Proof.Machine

/-- The power manager changed. -/
def State.modPwr (s : State) (f : PwrSt → PwrSt) : State := { s with pwr := f s.pwr }

/-- Is k one of MILLdG1 to MILLdG4? -/
def millGroup (k : Nat) : Bool := decide (21 ≤ k ∧ k ≤ 40) && (k - 21) % 5 != 0

/-- Does a state leave domain k off, or in retention (R516, R518)? -/
def offIn (st k : Nat) : Bool :=
  if k < 3 then false
  else if st = 0 then false
  else if st = 1 then millGroup k
  else if st = 2 then millGroup k || decide (9 ≤ k ∧ k ≤ 16) || decide (21 ≤ k ∧ k ≤ 40) || decide (41 ≤ k ∧ k ≤ 48)
  else true

/-- May domain k be switched off by its own request (R516, R521)? -/
def requestable (k : Nat) : Bool := decide (9 ≤ k ∧ k ≤ 20) || millGroup k || decide (49 ≤ k ∧ k ≤ 56)

/-- The domain that domain k needs (R516). -/
def needOf (k : Nat) : Option Nat :=
  if k ≤ 3 then none
  else if millGroup k then some (k - (k - 21) % 5)
  else if 41 ≤ k ∧ k ≤ 48 then some (21 + 5 * ((k - 41) / 2))
  else some 3

/-- The fitted domains that match a test, rising. -/
def State.domsThat (s : State) (p : Nat → Bool) : List Nat := (List.range 57).filter fun k => domFitted s.part k && p k

/-- Domain k's status (R538). -/
def State.dstat (s : State) (k : Nat) : Nat := s.get (E.pwr_dom_status.n k)

/-- The settings of domain k in a state, where R519 gives any: the rail off where the state leaves it off. The Reservoir's SRAM
lies in RSV0 to RSV3, the staging SRAM in MILLdG0, a Mill's SRAM in its group. -/
def domSet (st k : Nat) : Option DomSet :=
  if k = 1 then some (if st = 3 then ⟨700, -150, true, true⟩ else ⟨750, 0, false, false⟩)
  else if offIn st k then (if 3 ≤ k ∧ k ≤ 16 ∨ 21 ≤ k ∧ k ≤ 40 then some ⟨0, 0, false, false⟩ else none)
  else if millGroup k then some ⟨800, 100, false, false⟩
  else if 5 ≤ k ∧ k ≤ 8 ∨ 21 ≤ k ∧ k ≤ 40 then some ⟨750, 0, true, false⟩
  else if 3 ≤ k ∧ k ≤ 16 then some ⟨750, 0, false, false⟩
  else none

/-- Settings of some domains change (R519): at the commit step of an entry, and at a restore. -/
def State.setDoms (s : State) (f : Nat → Option DomSet) (ks : List Nat) : State :=
  s.modPwr fun p => { p with sets := ks.foldl (fun m k => match f k with | some x => mput m k x | none => m) p.sets }

/-- The settings of a domain, off where it has none (R519). -/
def State.settings (s : State) (k : Nat) : DomSet := mgetD s.pwr.sets k ⟨0, 0, false, false⟩

/-- A refusal or an abort in `pwr.log`, newest first (R524). -/
def State.pwrLog (s : State) (outcome target kind refuser : Nat) : State :=
  let old := (List.range 1008).map fun i => BitVec.ofNat 8 (s.dom E.pwr_log 0 0 i)
  s.domPut E.pwr_log 0 0 0 (leBytes 1 outcome ++ leBytes 1 target ++ leBytes 1 kind ++ leBytes 1 0 ++ leBytes 4 refuser ++
    leBytes 8 s.ft ++ old)

/-! ### Entry -/

/-- The Mill domains whose memory a range touches (R523 row 5). -/
def State.millDoms (s : State) (a len : Nat) : List Nat :=
  match s.regionOf a with
  | some (1, lo, _) =>
    let d := lo / 0x10000000 - 1
    let off := a - lo
    let gs := (slotsOf off len).filterMap fun j => (s.physMill (4 * j + d)).map millDomain
    if 0xC000000 < off + len then (21 + 5 * d) :: gs else gs
  | _ => []

/-- The lowest live handle of a type that meets a test, as its word. -/
def State.firstHandle (s : State) (t : Nat) (p : Nat → Bool) : Option Nat := ((s.liveIdx t).find? p).map (s.wordOf t)

/-- Of some handle words, the lowest. -/
def lowest (l : List (Option Nat)) : Option Nat := (l.filterMap id).foldl (fun (m : Option Nat) x =>
  match m with | none => some x | some y => some (min x y)) none

/-- Does a range touch Tier 1? -/
def State.inT1 (s : State) (r : Nat × Nat) : Bool := r.2 != 0 && !(s.stacksOf r.1 r.2).isEmpty

/-- Why an entry that takes domains off toward a target is refused (R523): the kind and the refuser. -/
def State.pwrRefuse (s : State) (target : Nat) (doms : List Nat) : Option (Nat × Nat) :=
  let mills := doms.any millGroup
  let handle := fun (o : Option Nat) => o.map fun h => ((2, h) : Nat × Nat)
  let weir := s.weirRunning && (target == 2 || target == 3 || (mills && (List.range 272).any fun x =>
    s.millReserved x && s.get (E.mill_logical.n x) != 0xFFFF && doms.contains (millDomain x)))
  if s.pwr.entry.isSome || s.pwr.exit_.isSome then some (3, 4)
  else if s.pwr.wakeCyc == some s.cyc.n then some (3, 3)
  else if weir then some (3, 1)
  else if target == 3 && s.get E.lockstep_state.s != 0 then some (3, 1)
  else
    let r5 := if !doms.any (fun k => decide (21 ≤ k ∧ k ≤ 40)) then none else s.firstHandle 8 fun i =>
      (s.get (E.window_state.h i) == 1 || s.get (E.window_state.h i) == 2) &&
      (s.millDoms (s.get (E.window_base.h i)) (s.get (E.window_size.h i))).any doms.contains
    let r6 := s.firstHandle 1 fun i =>
      let st := s.get (E.collective_state.h i)
      (st == 1 || st == 2 || st == 3) && doms.contains (9 + s.get (E.collective_engine.h i))
    let r7 := if target != 2 then none else lowest [
      s.firstHandle 7 fun i => s.get (E.trace_state.h i) == 2,
      s.firstHandle 3 fun i => s.get (E.pool_state.h i) == 1 && (s.inT1 (s.bufArea i) || s.inT1 (s.ringArea i))]
    let r8 := if target != 3 then none else lowest [
      s.firstHandle 8 fun i => s.get (E.window_state.h i) == 1 || s.get (E.window_state.h i) == 2,
      s.firstHandle 5 fun i => let st := s.get (E.spring_state.h i); st == 1 || st == 2 || st == 3,
      s.firstHandle 9 fun i => s.get (E.gate_state.h i) != 0,
      s.firstHandle 6 fun i => s.get (E.gauge_state.h i) == 1]
    let iod := doms.find? fun k => target == 0xFF && decide (17 ≤ k ∧ k ≤ 20) &&
      s.portList.any (fun n => n / 256 == k - 17 && s.get (E.port_state.n n) != 0)
    let cxl := doms.find? fun k => target == 0xFF && decide (49 ≤ k) &&
      (s.get (E.cxl_state.n (k - 49)) == 2 || s.get (E.cxl_state.n (k - 49)) == 4)
    match r5, r6, r7, r8, iod, cxl with
    | some h, _, _, _, _, _ => handle (some h)
    | none, some h, _, _, _, _ => handle (some h)
    | none, none, some h, _, _, _ => handle (some h)
    | none, none, none, some h, _, _ => handle (some h)
    | none, none, none, none, some k, _ => some (1, k)
    | none, none, none, none, none, some k => some (1, k)
    | none, none, none, none, none, none => none

/-- An entry begins, or is refused (R522 steps 1 and 2). -/
def State.pwrBegin (s : State) (target : Nat) (doms : List Nat) : Nat × State :=
  match s.pwrRefuse target doms with
  | some (kind, who) => (0x0C, (s.inc E.pwr_refusals.s 1).pwrLog 1 target kind who)
  | none =>
    let accs := if target = 2 then (s.ms.accs.filter fun a => !(s.stacksOf (rillAddr a.h) (accLen a.h)).isEmpty).map (·.id) else []
    let s := s.modPwr fun p => { p with entry := some ⟨target, doms, s.ft, accs⟩ }
    (0, s.set E.pwr_phase.s 1)

/-- The phase when nothing is in progress. -/
def State.pwrRest (s : State) : State := s.set E.pwr_phase.s (if s.pwr.shed then 3 else 0)

/-! ### Exit and restore -/

/-- Does anything keep domain k off in state st: the state, its request, shedding, a failure? -/
def State.keptOff (s : State) (st k : Nat) : Bool :=
  offIn st k || s.get (E.pwr_dom_request.n k) == 1 || (s.pwr.shed && millGroup k) || s.dstat k == 4

/-- Domains queued for restore, in ascending k (R528); the state that is reached with them. -/
def State.restore (s : State) (dest : Nat) (ks : List Nat) : State :=
  let new := ks.filter fun k => !s.pwr.waiting.contains k && !s.pwr.ramps.any (fun r => r.dom == k)
  let s := s.modPwr fun p => { p with
    waiting := new.foldl (fun l k => insertBy (fun a b => decide (a < b)) k l) p.waiting, exit_ := some dest }
  s.set E.pwr_phase.s 2

/-- An exit or a restore that has nothing left to wait for has reached its state. -/
def State.exitCheck (s : State) : State :=
  match s.pwr.exit_ with
  | some d =>
    if s.pwr.waiting = [] ∧ s.pwr.ramps = [] then
      ((s.set E.pwr_state.s d).modPwr fun p => { p with exit_ := none }).pwrRest
    else s
  | none => s

/-- An exit toward a lower state. -/
def State.pwrExit (s : State) (dest : Nat) : State :=
  let cur := s.get E.pwr_state.s
  let ks := s.domsThat fun k => (s.dstat k == 1 || s.dstat k == 2) && !s.keptOff dest k
  let ks := ks.filter fun k => offIn cur k
  let s := if s.get E.st_state.s = 3 then s.set E.st_state.s 0 else s
  (s.restore dest ks).exitCheck

/-- An entry is abandoned (R522, R524): as if it had never begun. -/
def State.pwrAbandon (s : State) (rule : Nat) : State :=
  match s.pwr.entry with
  | some e => (((s.modPwr fun p => { p with entry := none }).inc E.pwr_aborts.s 1).pwrLog 2 e.target 3 rule).pwrRest
  | none => s

/-- A wake event is taken (R525): an entry is abandoned at its abort point, and an exit goes toward the destination. -/
def State.wake (s : State) (dest : Nat) : State :=
  if s.get E.boot_stage.s ≠ 0 ∨ s.pwr.trip = true then s
  else
    let s := s.modPwr fun p => { p with wakeCyc := some s.cyc.n }
    let cur := s.get E.pwr_state.s
    let entering := s.pwr.entry.isSome
    if !entering && decide (cur ≤ dest) then s
    else if s.get E.st_state.s = 2 then
      if s.st.woken then s else { s.inc E.pwr_wakes.s 1 with st := { s.st with woken := true } }
    else
      let s := s.inc E.pwr_wakes.s 1
      let s := if entering then s.pwrAbandon 3 else s
      match s.pwr.exit_ with
      | some d => if dest < d then s.pwrExit dest else s
      | none => if dest < cur then s.pwrExit dest else s

/-- WAKE_EVENT (R525): source 0 Millrace, 1 a held request, 2 a held Tier 1 access, 4 a lane signal (P3), 5 a Mill job. -/
def wakeEvent (s : State) (src : Nat) : State :=
  let st := s.get E.pwr_state.s
  let entering := s.pwr.entry.isSome
  let active := if src = 4 then st == 3
    else if src = 5 then s.getB E.pwr_wake_on_job.s && (st == 1 || st == 2 || entering)
    else if src = 2 then st == 2 || entering
    else true
  if active then s.wake (s.get E.pwr_wake_state.s) else s

/-- LANE_SIGNAL_WAKE (R525): a signal on a wake lane for 10,000 ns in P3. -/
def laneSignalWake (s : State) (l : Nat) : State :=
  if s.domBit E.pwr_wake_lanes 0 0 l ∧ laneFitted s.part l then wakeEvent s 4 else s

/-- A power state is requested (R520). -/
def State.pwrRequest (s : State) (target : Nat) : Nat × State :=
  let cur := s.get E.pwr_state.s
  if s.pwr.trip = true then (0x0C, s)
  else
    let lower : Bool := match s.pwr.entry with
      | some e => e.target != 0xFF && decide (target < e.target)
      | none => decide (target < cur)
    if lower then (0, s.wake target)
    else if target = cur ∧ s.pwr.entry.isNone then (0, s)
    else s.pwrBegin target (s.domsThat fun k => offIn target k && s.dstat k == 0)

/-- PWR_ENTER_AT (R520, R77). -/
def pwrEnterAt (s : State) (ft target : Nat) : Nat × State :=
  if 3 < target then (0x06, s)
  else
    let r := s.ftTestIn ft s.pwr.trip
    if r ≠ 0 then (r, s) else (0, s.schedule ft (.pwrEnter target))

/-- PWR_ENTER_FIRE (R520, R522, R542): a scheduled request, or an orderly shut-down, fires. -/
def pwrEnterFire (s : State) : State :=
  match s.dueAct with
  | some ⟨ft, q, .pwrEnter t⟩ => (State.pwrRequest { s with sched := s.sched.erase ⟨ft, q, .pwrEnter t⟩ } t).2
  | some ⟨_, _, .shutdown⟩ =>
    let s := s.unschedule .shutdown
    if s.get E.pwr_state.s = 3 then s.set E.st_state.s 2
    else match s.pwrRequest 3 with
      | (0, s) => s.set E.st_state.s 1
      | (_, s) => s
  | _ => s

/-- PWR_DOM_REQUEST (R521). -/
def pwrDomRequest (s : State) (k v : Nat) : Nat × State :=
  if !requestable k ∨ !domFitted s.part k ∨ 1 < v then (0x06, s)
  else
    let l := E.pwr_dom_request.n k
    let cur := s.get E.pwr_state.s
    if cur = 3 then (0x0C, s)
    else if s.get l = v then (0, s)
    else if v = 1 then
      if s.dstat k = 0 then
        match s.pwrBegin 0xFF [k] with
        | (0, s) => (0, s.set l 1)
        | r => r
      else (0, s.set l 1)
    else
      let s := s.set l 0
      if s.dstat k = 1 ∧ !s.keptOff cur k then (0, (s.restore cur [k]).exitCheck) else (0, s)

/-! ### Switching off and on -/

/-- The ports of an I/O die read Off (R530). -/
def State.portsOff (s : State) (die : Nat) : State :=
  (s.portList.filter (fun n => n / 256 = die ∧ s.get (E.port_state.n n) ≠ 0)).foldl (fun st n =>
    let up := st.get (E.port_state.n n)
    let was := st.inService n
    let st := st.flushPort n
    let st := if was then st.later (.memberLost n) else st
    let w := st.get (E.port_width.n n)
    let st := (st.set (E.port_state.n n) 0).lanesTo n w 0
    let st := { st with ports := mdel st.ports n }
    let st := (st.set (E.port_active_width.n n) 0).set (E.port_active_first_lane.n n) 0
    if up = 2 ∨ up = 3 then st.linkNotice n 1 else st) s

/-- Domain k loses power, or its stack goes to self-refresh (R518, R519, R522 steps 5 and 6, R530). -/
def State.domOff (s : State) (k : Nat) (retention : Bool) : State :=
  let s := s.setDoms (domSet 3) (if k = 1 then [] else [k])
  let s := (s.set (E.pwr_dom_status.n k) (if retention then 2 else 1)).inc (E.pwr_dom_offs.n k) 1
  if k = 4 then
    let s := (s.closeVia .mailbox).modMgmt fun m => { m with busy := false, respLen := 0, reqWindow := [], respWindow := [] }
    let s := [0, 1].foldl (fun st r => st.ringClear r) s
    { s with rings := [] }
  else if 17 ≤ k ∧ k ≤ 20 then s.portsOff (k - 17)
  else if 21 ≤ k ∧ k ≤ 40 then
    let s := s.gateMem k
    (List.range 272).foldl (fun st x =>
      if millDomain x = k ∧ st.get (E.mill_state.n x) ≠ 3 then st.set (E.mill_state.n x) 4 else st) s
  else if 41 ≤ k ∧ k ≤ 48 then
    let h := k - 41
    if s.get (E.hbm_state.n h) = 3 then s
    else if retention then s.set (E.hbm_state.n h) 4
    else { s.set (E.hbm_state.n h) 1 with mem := memDrop s.mem (baseT1 + h * stackBytes) (baseT1 + (h + 1) * stackBytes) }
  else if 49 ≤ k then (s.dropLines (k - 49)).set (E.cxl_state.n (k - 49)) 0
  else s

/-- DRAIN_DONE (R522): no job holds a Mill of a domain to go and, toward P2, the Tier 1 accesses accepted before have completed;
the configuration is saved, the settings of MGMT become those of the target (R519), the domains switch off in descending k, the
state is reached. -/
def drainDone (s : State) : State :=
  match s.pwr.entry with
  | none => s
  | some e =>
    let busy := s.mill.jobs.any (fun j => j.state == 1 && j.mills.any fun x =>
        e.doms.contains (millDomain x) || e.doms.contains (21 + 5 * (x / 68))) ||
      e.accs.any (fun id => s.ms.accs.any fun a => a.id == id)
    if busy then s
    else
      let s := if e.target = 0xFF then s else s.setDoms (domSet e.target) [1]
      let s := e.doms.reverse.foldl (fun st k => st.domOff k (e.target == 2 && decide (41 ≤ k ∧ k ≤ 48))) s
      let s := s.modPwr fun p => { p with
        entry := none, fresh := if e.target = 3 then (List.range 8).filter (fun c => e.doms.contains (49 + c)) else p.fresh }
      let s := if e.target = 0xFF then s else s.set E.pwr_state.s e.target
      let s := if e.target = 3 ∧ s.get E.st_state.s = 1 then s.set E.st_state.s 2 else s
      s.pwrRest

/-- DRAIN_LIMIT (R522): the entry is abandoned. -/
def drainLimit (s : State) : State :=
  match s.pwr.entry with
  | some e =>
    if e.at_ + s.get E.pwr_drain_limit.s ≤ s.ft then
      let s := if e.target = 0xFF then e.doms.foldl (fun st k => st.set (E.pwr_dom_request.n k) 0) s else s
      let s := if s.get E.st_state.s = 1 then s.set E.st_state.s 0 else s
      s.pwrAbandon 2
    else s
  | none => s

/-- The sum of the costs of the domains ramping now (R528). -/
def State.slew (s : State) : Nat :=
  sumBy (fun (r : Ramp) => if r.good then 0 else s.get (E.pwr_dom_cost.n r.dom)) s.pwr.ramps

/-- May the first waiting domain be admitted? None where the domain it needs can not come. DEDUCED (log 148). -/
def State.admissible (s : State) (k : Nat) : Option Bool :=
  let need := match needOf k with
    | none => some true
    | some j => if s.dstat j = 0 then some true
      else if s.pwr.waiting.contains j ∨ s.pwr.ramps.any (fun r => r.dom == j) then some false else none
  let sd := !(decide (17 ≤ k ∧ k ≤ 20)) || !s.pwr.sdLow
  need.map fun b => b && sd && decide (s.slew + s.get (E.pwr_dom_cost.n k) ≤ s.get E.pwr_slew_budget.s)

/-- A core cycle on which a waiting domain is not admitted (R528). -/
def State.slewWait (s : State) : State :=
  match s.pwr.waiting with
  | k :: _ => if s.admissible k = some false then s.inc E.pwr_slew_waits.s 1 else s
  | [] => s

/-- DOMAIN_ADMIT (R519, R528): the first waiting domain is admitted with its settings, and those of MGMT, in the state that is
restored, or stays off where the domain it needs can not come. DEDUCED (log 148). -/
def domainAdmit (s : State) : State :=
  match s.pwr.waiting with
  | [] => s
  | k :: ks =>
    let iod := decide (17 ≤ k ∧ k ≤ 20) && s.pwr.sdLow
    let s := s.modPwr fun p => { p with sdWait := if iod then (match p.sdWait with | some t => some t | none => some s.ft) else none }
    if s.dstat k = 4 then (s.modPwr fun p => { p with waiting := ks }).exitCheck
    else match s.admissible k with
      | none => (s.modPwr fun p => { p with waiting := ks }).exitCheck
      | some false => s
      | some true =>
        let delay := if 41 ≤ k ∧ k ≤ 48 ∧ s.dstat k = 1 then 40000000 else s.get (E.pwr_dom_restore_ns.n k)
        let s := s.modPwr fun p => { p with waiting := ks, ramps := p.ramps ++ [(⟨k, s.ft, delay, false⟩ : Ramp)] }
        let dest := s.pwr.exit_.getD (s.get E.pwr_state.s)
        (s.setDoms (domSet dest) [1, k]).set (E.pwr_dom_status.n k) 3

/-- A failure of a start is recorded (R572). -/
def State.bootFail (s : State) (stage code : Nat) : State :=
  if s.get E.boot_stage.s = 0 then s
  else
    let s := s.set E.boot_fail.s (setBitAt (s.get E.boot_fail.s) stage)
    if s.get E.boot_code.s = 0 then s.set E.boot_code.s code else s

/-- What a failed domain means to its owning chapter (R532). -/
def State.domFailed (s : State) (k : Nat) : State :=
  if millGroup k then
    ((List.range 272).filter (fun x => millDomain x == k)).foldl (fun st x => millFailure st x false) s
  else if 41 ≤ k ∧ k ≤ 48 then hbmStackFail s (k - 41)
  else if 49 ≤ k then cxlPortLost s (k - 49)
  else if 17 ≤ k ∧ k ≤ 20 then
    (s.portList.filter (fun n => n / 256 = k - 17 ∧ s.get (E.port_state.n n) ≠ 0)).foldl (fun st n => st.goDown n) s
  else if 9 ≤ k ∧ k ≤ 16 then
    ((s.liveIdx 1).filter (fun i => s.get (E.collective_engine.h i) == k - 9)).foldl (fun st i => st.later (.forceDestroy 1 i)) s
  else s

/-- A domain fails (R531). -/
def State.failDom (s : State) (k : Nat) : State :=
  let s := s.modPwr fun p => { p with ramps := p.ramps.filter (fun r => r.dom != k), waiting := p.waiting.filter (· != k) }
  let s := s.setDoms (domSet 3) [k]
  let s := (s.set (E.pwr_dom_status.n k) 4).inc (E.pwr_dom_ramp_failures.n k) 1
  ((s.raise (576 + k)).domFailed k).bootFail 4 0x04 |>.exitCheck

/-- VDD_SD_WAIT_TIMEOUT (R584): an I/O die that waited 100,000,000 ns for VDD_SD is marked failed. -/
def vddSdTimeout (s : State) : State :=
  match s.pwr.waiting, s.pwr.sdWait with
  | k :: _, some t =>
    if 17 ≤ k ∧ k ≤ 20 ∧ s.pwr.sdLow = true ∧ t + 100000000 ≤ s.ft then
      (s.modPwr fun p => { p with sdWait := none }).failDom k
    else s
  | _, _ => s

/-- RAMP_WINDOW_END (R531, R534): the rail is good, or the domain fails; a shed group that was ramping switches off.
DEDUCED (log 148). -/
def rampWindowEnd (s : State) (k : Nat) (good : Bool) : State :=
  match s.pwr.ramps.find? (fun r => r.dom == k && !r.good) with
  | none => s
  | some r =>
    if s.ft < r.at_ + s.get (E.pwr_dom_ramp_ns.n k) then s
    else if !good then s.failDom k
    else if s.pwr.shed && millGroup k then
      ((s.modPwr fun p => { p with ramps := p.ramps.filter (fun r => r.dom != k) }).domOff k false).exitCheck
    else s.modPwr fun p => { p with ramps := p.ramps.map fun (r : Ramp) => if r.dom = k then { r with good := true } else r }

/-- DOMAIN_USABLE (R529): its restore delay after its admission the domain serves; held requests run. DEDUCED (log 148). -/
def domainUsable (s : State) (k : Nat) : State :=
  match s.pwr.ramps.find? (fun r => r.dom == k && r.good) with
  | none => s
  | some r =>
    if s.ft < r.at_ + r.delay then s
    else
      let s := s.modPwr fun p => { p with ramps := p.ramps.filter (fun r => r.dom != k) }
      let s := s.set (E.pwr_dom_status.n k) 0
      let s :=
        if 17 ≤ k ∧ k ≤ 20 then
          (s.portList.filter (fun n => n / 256 == k - 17)).foldl (fun st n => st.startPort n) s
        else if 21 ≤ k ∧ k ≤ 40 then
          (List.range 272).foldl (fun st x =>
            if millDomain x = k ∧ st.get (E.mill_state.n x) = 4 then
              st.set (E.mill_state.n x) (if st.get (E.mill_logical.n x) = 0xFFFF then 0 else 1)
            else st) s
        else if 41 ≤ k ∧ k ≤ 48 then
          if s.get (E.hbm_state.n (k - 41)) = 3 ∨ s.get E.boot_stage.s ≠ 0 then s else s.set (E.hbm_state.n (k - 41)) 2
        else if 49 ≤ k then if s.getB (E.cxl_enable.n (k - 49)) then s.set (E.cxl_state.n (k - 49)) 1 else s
        else s
      (s.later .upkeep).exitCheck

/-- PWR_DOM_RETRY (R531). -/
def pwrDomRetry (s : State) (k v : Nat) : Nat × State :=
  if k < 3 ∨ !domFitted s.part k then (0x06, s)
  else if v = 0 then (0, s)
  else if s.dstat k ≠ 4 then (0x0C, s)
  else
    let s' := s.set (E.pwr_dom_status.n k) 1
    if s'.keptOff (s.get E.pwr_state.s) k then (0x0C, s) else (0, s'.restore (s.get E.pwr_state.s) [k])

/-! ### Shedding -/

/-- PWR_WARN_ASSERT (R534): Mill load is shed. -/
def pwrWarnAssert (s : State) : State :=
  if s.get E.pwr_warn_level.s = 1 then s
  else
    let s := ((s.set E.pwr_warn_level.s 1).raise 639).inc E.pwr_sheds.s 1
    let s := s.modPwr fun p => { p with shed := true, shedAt := s.ft, held := false, waiting := p.waiting.filter (fun k => !millGroup k) }
    let s := s.abortJobs (fun j => j.state == 1 && j.mills != []) 0x0B
    let on := s.domsThat fun k => millGroup k && (s.dstat k == 0 || s.pwr.ramps.any (fun r => r.dom == k && r.good))
    let s := s.modPwr fun p => { p with ramps := p.ramps.filter (fun r => !on.contains r.dom) }
    let s := on.reverse.foldl (fun st k => st.domOff k false) s
    let s := s.exitCheck
    if s.pwr.entry.isNone && s.pwr.exit_.isNone then s.pwrRest else s

/-- PWR_WARN_DEASSERT (R535, R571): the shed groups that the state and requests leave on are restored. -/
def pwrWarnDeassert (s : State) : State :=
  if s.get E.pwr_warn_level.s = 0 then s
  else
    let s := (s.set E.pwr_warn_level.s 0).modPwr fun p => { p with shed := false }
    let stage := s.get E.boot_stage.s
    if stage ≠ 0 ∧ stage < 4 then s
    else
      let cur := s.get E.pwr_state.s
      let dest := s.pwr.exit_.getD cur
      let ks := s.domsThat fun k => millGroup k && s.dstat k == 1 && !s.keptOff dest k
      if s.pwr.entry.isSome ∨ ks = [] then (if s.pwr.entry.isNone ∧ s.pwr.exit_.isNone then s.pwrRest else s)
      else s.restore dest ks

/-- HOLD_WINDOW_EXPIRE (R535). -/
def holdWindowExpire (s : State) : State :=
  if s.get E.pwr_warn_level.s = 0 ∨ s.pwr.held ∨ s.ft < s.pwr.shedAt + s.get E.pwr_hold_window.s then s
  else
    let s := s.modPwr fun p => { p with held := true }
    if s.get E.pwr_hold_action.s = 1 ∧ s.get E.pwr_state.s < 2 then (s.pwrRequest 2).2 else s

/-! ### Requests that a powered-off domain holds (R526) -/

/-- Is domain k off, or closing, only because of the power state? -/
def State.offByState (s : State) (k : Nat) : Bool :=
  s.get (E.pwr_dom_request.n k) == 0 && (s.closing k || s.dstat k == 1 || s.dstat k == 3 || s.dstat k == 2) && s.get E.boot_stage.s == 0

/-- Is an arm of collective i held: its engine is off or to go? -/
def State.armHeld (s : State) (i : Nat) : Bool := s.offByState (9 + s.get (E.collective_engine.h i))

/-- Is a Weir start held: reserved Mills are off? -/
def State.weirHeld (s : State) : Bool :=
  (List.range 272).any fun x =>
    s.get (E.mill_logical.n x) != 0xFFFF && decide (s.get (E.mill_logical.n x) < s.get E.weir_mills.s) &&
    s.offByState (millDomain x)

end Sys2Proof.Machine
end

