-- ==== Sys2Proof/Machine/Racks.lean ====
section
/-!
DEFINITION. Re-cabling windows and the rack-wide reset (spec/22_racks_planes_coordinates.md, R558 to R563).
-/

namespace Sys2Proof.Machine

/-- The ports that `recable.ports` names. -/
def State.recablePorts (s : State) : List Nat := (List.range 1024).filter fun n => s.domBit E.recable_ports 0 0 n

/-- Does a collective list a port, or a peer bundle that has it as a member? With `only`, a peer bundle of which the listed
ports are the only members. -/
def State.collLists (s : State) (i : Nat) (ports : List Nat) (only : Bool) : Bool :=
  (s.collMembers i).any ports.contains ||
  (s.collPeers i).any fun p =>
    let ms := (s.members p.1).map (·.2)
    if only then ms.any ports.contains && ms.all ports.contains else ms.any ports.contains

/-- What refuses an open (R558): 0 where nothing does. -/
def State.recableCheck (s : State) (want : Nat) : Nat :=
  let ps := s.recablePorts
  if s.get E.recable_state.s ≠ want then 0x0C
  else if ps = [] ∨ ps.any (fun n => !s.isPort n || s.get (E.port_role.n n) != 2) then 0x06
  else if (s.liveIdx 1).any (fun i =>
      let st := s.get (E.collective_state.h i)
      (st == 1 || st == 2 || st == 3) && s.collLists i ps false) then 0x0C
  else 0

/-- The window opens (R559): queued packets of its ports re-enter link choice, frames in transmission complete. -/
def State.recableOpen (s : State) : State :=
  let ps := s.recablePorts.filter fun n => s.inService n
  let s := (s.set E.recable_state.s 2).set E.recable_opened.s s.ft
  ps.foldl (fun st n =>
    (st.modTx n fun t => { t with named := none }).giveBack n (st.sw.pkts.filter fun p => p.out = n ∧ p.started = false)) s

/-- RECABLE_OPEN_AT (R558, R77). -/
def recableOpenAt (s : State) (ft : Nat) : Nat × State :=
  let c := s.recableCheck 0
  if ft = 0 then if c ≠ 0 then (c, s) else (0, s.recableOpen)
  else
    let r := s.ftTest ft
    if r ≠ 0 then (r, s) else if c ≠ 0 then (c, s)
    else (0, (s.schedule ft .recable).set E.recable_state.s 1)

/-- RECABLE_OPEN_FIRE (R558). -/
def recableOpenFire (s : State) : State :=
  match s.dueAct with
  | some ⟨_, _, .recable⟩ =>
    let s := s.unschedule .recable
    if s.recableCheck 1 = 0 then s.recableOpen
    else (s.set E.recable_state.s 0).inc E.recable_refused.s 1
  | _ => s

/-- The window closes (R560). -/
def State.recableEnd (s : State) : State :=
  let ps := s.recablePorts
  let s := (s.set E.recable_state.s 0).inc E.recable_windows.s 1
  ps.foldl (fun st n => if st.get (E.port_state.n n) = 2 ∨ st.get (E.port_state.n n) = 3 then st.enterService n else st) s

/-- RECABLE_CLOSE (R560). -/
def recableClose (s : State) (v : Nat) : Nat × State :=
  if v = 0 then (0, s)
  else if s.get E.recable_state.s ≠ 2 then (0x0C, s)
  else (0, s.recableEnd)

/-- Has the window reached its limit (R560)? -/
def State.recableDue (s : State) : Bool :=
  s.get E.recable_state.s == 2 && decide (s.get E.recable_opened.s + s.get E.recable_limit.s ≤ s.ft)

/-- RECABLE_LIMIT (R560): the window closes as the core cycle ends, unless a write on the cycle closes it. -/
def recableLimit (s : State) : State := if s.recableDue then { s with cyc := { s.cyc with limit := true } } else s

/-- The window closes at its limit (R560). -/
def State.recableExpire (s : State) : State := if s.recableDue then s.recableEnd.inc E.recable_expired.s 1 else s

/-- May `recable.ports` be written (R558)? -/
def recableWritable (s : State) : Bool := s.get E.recable_state.s == 0

/-- Does an open window keep a collective from being armed (R559)? -/
def recableBlocks (s : State) (i : Nat) : Bool :=
  s.get E.recable_state.s == 2 &&
  ((s.collMembers i).any s.recablePorts.contains || s.collLists i s.recablePorts true)

/-- RACK_RESET_AT (R561, R77): it replaces a pending one. -/
def rackResetAt (s : State) (ft : Nat) : Nat × State :=
  let s' := s.unschedule .rackReset
  let r := s'.ftTest ft
  if r ≠ 0 then (r, s) else (0, (s'.schedule ft .rackReset).set E.rack_reset_pending.s ft)

/-- RACK_RESET_FIRE (R561, R80). -/
def rackResetFire (s : State) : State :=
  match s.dueAct with
  | some ⟨_, _, .rackReset⟩ => ((s.unschedule .rackReset).set E.rack_reset_pending.s 0).later (.chipReset 4)
  | _ => s

end Sys2Proof.Machine
end

