-- ==== Sys2Proof/Machine/SelfTest.lean ====
section
/-!
DEFINITION. The shut-down test, its record, Mill retirement and die-to-die repair (spec/21_self_test_and_repair.md, R539 to
R553), temperature and throttling (spec/24_signals_electrical_mechanical.md, R592 to R594).
-/

namespace Sys2Proof.Machine

/-! ### Shut-down test -/

/-- ST_SHUTDOWN (R542, R543, R77). -/
def stShutdown (s : State) (ft : Nat) : Nat × State :=
  let r := s.ftTestIn ft (!bitAt (s.get E.st_lbist_states.s) (s.get E.lc_state.s) || s.get E.st_state.s == 2)
  if r ≠ 0 then (r, s)
  else (0, (s.unschedule .shutdown).schedule ft .shutdown)

/-- The test partitions (R540), in ascending k of their domain. DEDUCED (log 149). -/
def State.testParts (s : State) : List Nat :=
  (List.range 57).flatMap fun k =>
    if k < 3 ∨ !domFitted s.part k ∨ s.dstat k = 4 then []
    else if millGroup k then (List.range 272).filter fun x => millDomain x == k
    else [272 + k]

/-- The shut-down record is written (R544) with its result and flags. -/
def State.writeRecord (s : State) (result flags : Nat) : State :=
  let t := s.st
  s.domPut E.st_last 0 0 0 (leBytes 1 result ++ leBytes 1 (s.get E.st_clock.s) ++ leBytes 2 t.rail ++ leBytes 1 flags ++
    leBytes 3 0 ++ leBytes 8 t.start ++ leBytes 4 (s.get E.st_start_count.s) ++ leBytes 2 t.tested ++
    leBytes 2 t.failed.length ++ leBytes 48 (ofBitList t.failed))

/-- The test ends: woken, the exit from P3 follows (R543); otherwise `st.state` reads done. -/
def State.testEnd (s : State) (result flags : Nat) : State :=
  let woken := s.st.woken
  let s := s.writeRecord result (flags + (if woken then 2 else 0))
  let s := { s with st := { s.st with parts := [], woken := false } }
  if woken then (s.set E.st_state.s 0).pwrExit (s.get E.pwr_wake_state.s) else s.set E.st_state.s 3

/-- Is a core rail reading within ±3 % of 0.75 V (R541), in mV? The window is 727.5 to 772.5 mV. -/
def railOk (mv : Nat) : Bool := decide (728 ≤ mv) && decide (mv ≤ 772)

/-- The first partition begins: the run is empty. -/
def State.testBegin (s : State) (rail : Nat) : State :=
  if s.st.parts ≠ [] then s
  else { s with st := { s.st with parts := s.testParts, start := s.ft, rail := rail, tested := 0, failed := [] } }

/-- SHUTDOWN_TEST (R541 to R544): the next partition is tested; its signature matches or not, and the rail reads some mV.
DEDUCED (log 149). -/
def shutdownTest (s : State) (ok : Bool) (rail : Nat) : State :=
  if s.get E.st_state.s ≠ 2 ∨ s.get E.pwr_state.s ≠ 3 then s
  else
    let s := s.testBegin rail
    let s := { s with st := { s.st with rail := min s.st.rail rail } }
    if !railOk rail then s.testEnd (if s.st.tested = 0 then 4 else 3) 1
    else match s.st.parts with
      | [] => s.testEnd 1 0
      | p :: ps =>
        let s := { s with st := { s.st with
          parts := ps, tested := s.st.tested + 1, failed := if ok then s.st.failed else p :: s.st.failed } }
        if ps = [] then s.testEnd (if s.st.failed = [] then 1 else 2) 0
        else if s.st.woken then s.testEnd 3 0
        else s

/-- SELFTEST_RAIL_OUT_OF_WINDOW (R541): the partition under test is discarded and the record reads partial. -/
def railOut (s : State) (rail : Nat) : State :=
  if s.get E.st_state.s ≠ 2 then s
  else
    let s := s.testBegin rail
    ({ s with st := { s.st with rail := min s.st.rail rail } }).testEnd 3 1

/-! ### At start -/

/-- A Mill is retired in a stage of the start (R546, R572), which the repair record keeps. -/
def State.retireMill (s : State) (x stage : Nat) : State :=
  if s.get (E.mill_state.n x) = 3 then s else ((s.set (E.mill_state.n x) 3).repairNote).bootFail stage 0x07

/-- The judgement of the shut-down record (R545). -/
def State.judge (s : State) : State :=
  let n := s.get E.st_start_count.s + 1
  let s := s.set E.st_start_count.s (n % 2 ^ 32)
  if s.domLe E.st_last 0 0 16 4 + 1 ≠ n then s.domPut E.st_last 0 0 0 (leBytes 1 0)
  else
    let bad := (List.range 384).filter fun p => s.domBit E.st_last 0 0 (8 * 24 + p)
    bad.foldl (fun st p => if p < 272 then st.retireMill p 3 else (st.raise 712).bootFail 3 0x03) s

/-- Each die enables its good slots, up to 64, and the logical numbers follow (R319, R546, R547). -/
def State.enableMills (s : State) : State :=
  let die := fun (acc : Nat × State) (d : Nat) =>
    let s := acc.2
    let good := (List.range 68).filter fun k => s.get (E.mill_state.n (68 * d + k)) != 3
    let on := good.take 64
    let s := (List.range 68).foldl (fun (st : State) k =>
      let x := 68 * d + k
      let st := st.set (E.mill_logical.n x) (match on.findIdx? (· == k) with | some j => 4 * j + d | none => 0xFFFF)
      if st.get (E.mill_state.n x) = 3 then st
      else st.set (E.mill_state.n x) (if !on.contains k then 0 else if st.domOn (millDomain x) then 1 else 4)) s
    let s := s.set (E.mill_enabled_map.n d) (ofBitList on)
    let s := s.set (E.mill_enabled_count.n d) on.length
    let s := s.set (E.mill_spare_count.n d) (good.length - on.length)
    let s := if on.length < 64 then (s.raise 713).bootFail 5 0x07 else s
    (acc.1 + on.length, s)
  let (n, s) := (List.range 4).foldl die (0, s)
  s.set E.mill_logical_count.s n

/-- A UCIe module is retired (R19): joins 0 to 3 lead to the I/O dies, 4 to 7 to the Mill dies. -/
def State.retireModule (s : State) (join m : Nat) : State :=
  let key := 64 * join + m
  if s.st.retired.contains key ∨ 8 ≤ join ∨ (if join < 4 then 32 else 8) ≤ m then s
  else
    let s := { s with st := { s.st with retired := key :: s.st.retired } }
    let s := (s.raise (704 + join)).bootFail 5 0x06
    if 4 ≤ join then s
    else
      let good := 32 - (s.st.retired.filter (fun k => k / 64 = join)).length
      if 25 ≤ good then s
      else
        let k := good * 256 / 400
        groupsOutOfService s (((List.range 16).filter (fun g => k ≤ g)).map fun g => 16 * join + g)

/-- LANE_RUNTIME_REPAIR (R548): a lane over its retry limit is steered onto a free repair lane, or its module is retired. -/
def laneRepair (s : State) (join m : Nat) : State :=
  let key := 64 * join + m
  if s.st.retired.contains key ∨ 8 ≤ join ∨ (if join < 4 then 32 else 8) ≤ m then s
  else
    let used := mgetD s.st.lanes key 0
    if used < 4 then
      let s := { s with st := { s.st with lanes := mput s.st.lanes key (used + 1) } }
      (s.inc E.st_lane_repairs.s 1).repairNote
    else (s.retireModule join m).raise 713

/-- A lane fails as its module trains (R548): it is steered onto a free repair lane, or the module is retired (R19). -/
def State.laneFailed (s : State) (join m : Nat) : State :=
  let key := 64 * join + m
  if s.st.retired.contains key ∨ 8 ≤ join ∨ (if join < 4 then 32 else 8) ≤ m then s
  else
    let used := mgetD s.st.lanes key 0
    if used < 4 then ({ s with st := { s.st with lanes := mput s.st.lanes key (used + 1) } }).repairNote
    else s.retireModule join m

/-- Memory that no spare covers is withheld (R549). -/
def State.withhold (s : State) (bytes : Nat) : State :=
  ((s.add E.st_withheld_bytes.s bytes).raise 713).bootFail 5 0x08

/-- A row is replaced by a spare (R549), which the repair record keeps. -/
def State.rowRepaired (s : State) : State := (s.inc E.st_row_repairs.s 1).repairNote

/-- The rows that the repair record holds as pending are repaired (R549). -/
def State.repairPending (s : State) : State :=
  let s := s.st.pend.foldl (fun st _ => st.rowRepaired) s
  { s with st := { s.st with pend := [], errs := [] } }

/-- What a start stage found failed (R548, R549, R566, R572). -/
def State.unitFailed (s : State) (u : BootUnit) : State :=
  match u with
  | .slot _ => s
  | .lane j m => s.laneFailed j m
  | .module j m => s.retireModule j m
  | .mill x => s.retireMill x 5
  | .row => s.rowRepaired
  | .reservoir =>
    let s := { s.withhold 65536 with st := { s.st with rsvOut := s.st.rsvOut + 1 } }
    s.set E.rsv_packet_cells.s s.packetCells
  | .memory b => s.withhold b
  | .stack h => (hbmStackFail s h).bootFail 6 0x09
  | .cxl c => (s.set (E.cxl_state.n c) 0).bootFail 6 0x0A

/-- Is scan open at the test access port (R550)? -/
def State.scanOpen (s : State) : Bool :=
  let st := s.get E.lc_state.s
  st == 0 || bitAt (s.get E.st_scan_states.s) st

/-- The secret store is cleared (R481, R551): role keys, Tenant keys, open counters. -/
def State.clearSecrets (s : State) : State :=
  { s with cat := s.cat.filter fun p => ¬ ((p.1 / 2 ^ 60 = 0xE000 ∧ p.1 / 2 ^ 52 % 256 ≤ 4) ∨ p.1 / 2 ^ 60 = 0xE001 ∨ p.1 / 2 ^ 60 = 0xE002) }

/-- Scan is about to open at the test access port (R551): as `st.clear_secrets` asks, the secret store is cleared with the session
keys, so every session closes, and the identity key. DEDUCED (log 190). -/
def State.scanOpens (s : State) : State :=
  let v := s.get E.st_clear_secrets.s
  let s := if bitAt v 0 then s.mgmt.sessions.foldl (fun st x => st.closeSession x.id) s.clearSecrets else s
  if bitAt v 0 && bitAt v 1 then { s with mgmt := { s.mgmt with identity := false } } else s

/-- May `st.lbist_states` or `st.scan_states` take a value (R550)? A value that opens scan clears the secrets first (R551), once the
request has been answered. DEDUCED (log 190). -/
def scanWrite (s : State) (l : Loc) (v : Nat) : Nat × State :=
  let st := s.get E.lc_state.s
  if st = 2 ∨ (st = 3 ∧ bitsMinus v (s.get l) = 0) then
    let t := s.set l v
    (0, if t.scanOpen && !s.scanOpen then t.later .scanOpens else t)
  else (0x0C, s)

/-! ### Temperature -/

/-- Is sensor i fitted (R592): eight on the central die, two on each I/O die, two on each Mill die. -/
def sensorFitted (p : Part) (i : Nat) : Bool := !(decide (8 ≤ i ∧ i < 16)) || decide ((i - 8) / 2 < iodCount p)

/-- The time below 2.2 GHz counted up to now (R598). -/
def State.throttleNs (s : State) : State :=
  let s := if s.get E.therm_mill_clock.s < 2200 then s.inc E.therm_throttle_ns.s (s.ft - s.therm.at_) else s
  { s with therm := { s.therm with at_ := s.ft } }

/-- `therm.state` (R598). -/
def State.thermState (s : State) (hot : Int) : State :=
  s.set E.therm_state.s (if 105000 < hot then 2 else if s.get E.therm_mill_clock.s < 2200 then 1 else 0)

/-- The trip of R594: every switched domain goes off at once. -/
def State.tripNow (s : State) : State :=
  if s.pwr.trip then s
  else
    let s := s.modPwr fun p => { p with trip := true, entry := none, exit_ := none, waiting := [], ramps := [] }
    let s := s.emit (.pin 1 false)
    let s := s.abortJobs (fun j => j.state == 1) 0x0B
    let ks := s.domsThat fun k => decide (3 ≤ k) && s.dstat k != 1 && s.dstat k != 4
    ks.reverse.foldl (fun st k => st.domOff k false) s

/-- THERMAL_SAMPLE (R592, R594, R598): the sensors, in 0.001 °C, and the supplies in the order of the table.
DEDUCED (log 151). -/
def thermalSample (s : State) (temps : List Int) (supplies : List Nat) : State :=
  let s := s.throttleNs
  let (_, s) := temps.foldl (fun (acc : Nat × State) t =>
    (acc.1 + 1, if acc.1 < 24 ∧ sensorFitted s.part acc.1 then acc.2.set (E.therm_sensor.k acc.1) (unsignedOf 32 t) else acc.2)) (0, s)
  let fitted := ((List.range 24).zip temps).filter fun p => sensorFitted s.part p.1
  let hot := fitted.foldl (fun (m : Int) p => if m < p.2 then p.2 else m) (-2147483648)
  let s := s.set E.therm_max.s (unsignedOf 32 hot)
  let s := [E.supply_vin_mv, E.supply_sd_mv, E.supply_mr_mv, E.supply_aon_mv, E.supply_io_mv, E.supply_core_mv,
    E.supply_vin_amps].zip supplies |>.foldl (fun (st : State) p => st.set p.1.s p.2) s
  let s := match supplies[1]? with
    | some mv => s.modPwr fun p => { p with sdLow := decide (mv < 873) }
    | none => s
  let lim : Int := ((s.get E.therm_throttle_c.s * 1000 : Nat) : Int)
  let since := fun (c : Bool) (o : Option Nat) => if c then (match o with | some t => some t | none => some s.ft) else none
  let s := { s with therm := { s.therm with
    hotAt := since (decide (lim ≤ hot)) s.therm.hotAt, coolAt := since (decide (hot ≤ lim - 3000)) s.therm.coolAt } }
  let s := s.thermState hot
  let s := if 105000 < hot then s.raise 638 else s
  if 115000 ≤ hot then s.tripNow else s

/-- THROTTLE_STEP_DOWN (R593). DEDUCED (log 151). -/
def throttleDown (s : State) : State :=
  match s.therm.hotAt with
  | some t =>
    if t + 1000000 ≤ s.ft then
      let s := s.throttleNs
      let s := { s with therm := { s.therm with hotAt := some s.ft } }
      if s.get E.therm_mill_clock.s ≤ 1000 then s
      else
        let s := s.set E.therm_mill_clock.s (s.get E.therm_mill_clock.s - 400)
        ((s.inc E.therm_throttle_steps.s 1).thermState (signedOf 32 (s.get E.therm_max.s))).raise 637
    else s
  | none => s

/-- THROTTLE_STEP_UP (R593). DEDUCED (log 151). -/
def throttleUp (s : State) : State :=
  match s.therm.coolAt with
  | some t =>
    if t + 10000000 ≤ s.ft then
      let s := s.throttleNs
      let s := { s with therm := { s.therm with coolAt := some s.ft } }
      if 2200 ≤ s.get E.therm_mill_clock.s then s
      else (s.set E.therm_mill_clock.s (s.get E.therm_mill_clock.s + 400)).thermState (signedOf 32 (s.get E.therm_max.s))
    else s
  | none => s

end Sys2Proof.Machine
end

