-- ==== Sys2Proof/Machine/Boot.lean ====
section
/-!
DEFINITION. Power-on, chip reset and the stages of a start (spec/23_from_power_on_to_service.md, R564 to R574; R46, R68,
R81, R533, R583).
-/

namespace Sys2Proof.Machine

/-- Does a store key survive chip reset: its entry is Retained (R15), or it is the firmware flash (R478), or the conditions of the
running image (R599)? DEDUCED (log 18). -/
def keptKey (key : Nat) : Bool :=
  let idx := key / 2 ^ 60
  let sub := key / 2 ^ 52 % 256
  (idx == 0xE100 && sub == 1) || idx == 0x1030 || (match entOf idx sub with | some e => e.kept | none => false)

/-- Does a store key survive the loss of VDD_AON: firmware flash, its records and slot figures with the conditions of the running
image, life-cycle state? DEDUCED (log 18). -/
def flashKey (key : Nat) : Bool :=
  let idx := key / 2 ^ 60
  let sub := key / 2 ^ 52 % 256
  (idx == 0xE100 && (sub == 1 || sub == 7 || sub == 8)) || (idx == 0xB000 && (sub == 5 || sub == 0x10 || sub == 0x11)) ||
  (idx == 0x1010 && sub == 1) || idx == 0x1030

/-- The life-cycle advance that is pending takes effect (R482); scan that the new state opens clears the secrets first (R551). -/
def State.lcReset (s : State) (pend : Nat) : State :=
  if pend = 0xFF then s
  else
    let t := s.set E.lc_state.s pend
    let t := if t.scanOpen && !s.scanOpen then t.scanOpens else t
    if pend = 4 then t.clearSecrets else t

/-- The packet region of a start is without the blocks that the repair record withholds (R549). -/
def State.withheldRegion (s : State) : State :=
  if s.st.rsvOut = 0 then s else s.set E.rsv_packet_cells.s s.packetCells

/-- The generation after g (R44). -/
def nextGen (g : Nat) : Nat := if 255 ≤ g then 1 else g + 1

/-- Every run-time handle is destroyed: each live index advances its generation, and creation is shut for one quiet
interval (R46). -/
def State.hsReset (s : State) : HandleSt :=
  { live := [], quar := [], held := [], openAt := s.ft + quietNs
    gens := s.hs.live.foldl (fun m p => mput m p.1 (nextGen p.2.gen)) s.hs.gens }

/-- A chip reset (R46, R68, R81, R89, R105, R533, R564, R571). FT, Millrace and AON run on, and held launch records are missed;
everything else is as at power-up. DEDUCED (log 18). -/
def State.chipReset (s : State) (cause : Nat) : State :=
  let s := launchReset s
  let r := State.reset
  let pend := s.get E.lc_pending.s
  let warn := s.get E.pwr_warn_level.s
  let conf := s.mr
  let n : State := { r with
    pending := s.pending, out := s.out, todo := [], freeCtr := s.freeCtr, part := s.part, cyc := s.cyc
    cat := s.cat.filter fun p => keptKey p.1
    mem := (memReset s).mem
    time := s.time
    hs := s.hsReset
    mgmt := { r.mgmt with nextSession := s.mgmt.nextSession, nextTx := s.mgmt.nextTx, rights := s.mgmt.rights
                          identity := s.mgmt.identity, fwWatch := s.mgmt.fwWatch }
    flt := { s.flt with pendingReset := none, resetting := [], samplingSince := s.ft, injected := [] }
    mr := conf
    refLost := s.refLost
    pwr := { r.pwr with ramps := s.pwr.ramps, shed := s.pwr.shed, shedAt := s.pwr.shedAt, held := s.pwr.held
                        trip := s.pwr.trip, sdLow := s.pwr.sdLow, sets := s.pwr.sets }
    st := { r.st with lanes := s.st.lanes, recLen := s.st.recLen, pend := s.st.pend, rsvOut := s.st.rsvOut } }
  let n := (((n.set E.pwr_warn_level.s warn).set E.boot_cause.s cause).lcReset pend).withheldRegion
  (if warn = 1 then n.set E.pwr_phase.s 3 else n).pinTrack

/-- Is a store key that of some `mill.state`? A retirement is in the repair record, in flash (R546). -/
def millStateKey (key : Nat) : Bool :=
  let idx := key / 2 ^ 60
  decide (0x6200 ≤ idx ∧ idx < 0x6200 + 272) && key / 2 ^ 52 % 256 == 1

/-- The power-on state (R564, R582, R583): AON has lost what it held; the flash and the life cycle stay. DEDUCED (log 18). -/
def State.powerUp (s : State) : State :=
  let n : State := { State.reset with
    pending := s.pending, out := s.out, freeCtr := s.freeCtr, part := s.part
    cyc := s.cyc
    cat := s.cat.filter fun p => flashKey p.1 || (millStateKey p.1 && p.2 == 3)
    mgmt := { State.reset.mgmt with rights := s.mgmt.rights, identity := s.mgmt.identity }
    st := { State.reset.st with lanes := s.st.lanes, recLen := s.st.recLen, pend := s.st.pend, rsvOut := s.st.rsvOut } }
  n.withheldRegion

/-- POWER_ON (R564). -/
def powerOn (s : State) : State := s.powerUp

/-- CHIP_RESET (R564): a RESET_N pulse; the first release after VDD_AON was lost is a power-on. -/
def chipResetPin (s : State) : State := if s.boot.off then s.powerUp else s.chipReset 1

/-- VIN_IVR_LOW (R583): the FN7 acts as if RESET_N were low, and holds that state. -/
def vinLow (s : State) : State :=
  let s := (s.inc E.supply_vin_lows.s 1).chipReset 1
  { s with boot := { s.boot with hold := true } }

/-- VIN_IVR_RECOVERED (R583): the FN7 starts, with `boot.cause` 1. -/
def vinRecovered (s : State) : State :=
  if s.boot.hold ∧ !s.boot.off then { s with boot := { s.boot with hold := false } } else s

/-- VDD_AON_LOW (R577, R583, R594): the power-on state, until the next release of RESET_N; FAULT_N and THERMTRIP_N are released. -/
def aonLow (s : State) : State :=
  let s := if s.flt.lowSince.isSome then s.emit (.pin 0 true) else s
  let s := if s.pwr.trip then s.emit (.pin 1 true) else s
  { s.powerUp with boot := ⟨0, 0, true, true, false⟩ }

/-- The stage ends and the next begins: its duration is recorded (R574). -/
def State.stageTo (s : State) (next : Nat) : State :=
  let st := s.get E.boot_stage.s
  let v := s.get E.boot_stage_ns.s
  let s := s.set E.boot_stage_ns.s (putBits v (32 * st - 1) (32 * st - 32) (min s.boot.stageNs (2 ^ 32 - 1)))
  { s.set E.boot_stage.s next with boot := { s.boot with stageNs := 0 } }

/-- The start ends: `device.ready` reads 1 (R566, R567). -/
def State.bootReady (s : State) : State :=
  let s := (s.stageTo 0).set E.device_ready.s 1
  let s := s.set E.boot_ready_ns.s (min s.boot.ns (2 ^ 32 - 1))
  s.modMgmt fun m => { m with restarting := false, fwWatch := none }

/-- Stage 4 begins: every domain is to be restored to P0 (R528, R533). -/
def State.restoreAll (s : State) : State :=
  let ks := s.domsThat fun k => decide (3 ≤ k) && (s.dstat k == 1 || s.dstat k == 2) && !(s.pwr.shed && millGroup k)
  if s.pwr.trip then s else s.restore 0 ks

/-- What stage st did, with the units that it found failed, and the stage that follows (R566). DEDUCED (log 150). -/
def State.stageDone (s : State) (st : Nat) (fails : List BootUnit) : State :=
  let failed := fun (s : State) => fails.foldl (fun acc u => acc.unitFailed u) s
  if st = 1 then
    let bad := fun (n : Nat) => fails.contains (.slot n)
    let run := s.fwSlot
    if s.get E.lc_state.s = 0 then s.set E.boot_code.s 0x02
    else if bad run && bad (1 - run) then (s.set E.boot_fail.s 2).set E.boot_code.s 0x01
    else (if bad run then s.runSlot (1 - run) else s).stageTo 2
  else if st = 2 then s.stageTo 3
  else if st = 3 then
    let s := s.judge
    if s.get E.lc_state.s = 4 then s.bootReady else (s.stageTo 4).restoreAll
  else if st = 4 then if s.pwr.waiting = [] ∧ s.pwr.ramps = [] then s.stageTo 5 else s
  else if st = 5 then ((failed s.repairPending).enableMills).stageTo 6
  else if st = 6 then
    let s := failed s
    let s := s.stacks.foldl (fun (acc : State) h =>
      if acc.get (E.hbm_state.n h) = 3 ∨ acc.dstat (41 + h) = 4 then acc else acc.set (E.hbm_state.n h) 2) s
    let s := (List.range 8).foldl (fun (acc : State) c =>
      if acc.get (E.cxl_state.n c) = 1 then acc.set (E.cxl_state.n c) 0 else acc) s
    s.stageTo 7
  else if st = 7 then if s.hs.openAt ≤ s.ft then s.bootReady else s
  else s

/-- BOOT_STAGE_END (R566 to R572). A start that stopped in stage 1 stays there (R568). DEDUCED (log 150). -/
def bootStageEnd (s : State) (fails : List BootUnit) : State :=
  if s.boot.hold ∨ s.get E.boot_code.s = 1 ∨ s.get E.boot_code.s = 2 then s
  else (s.stageDone (s.get E.boot_stage.s) fails).pinTrack

/-- The limit of a stage in ns (R566). -/
def stageLimit (st : Nat) : Nat := [0, 200000000, 500000000, 50000000, 100000000, 500000000, 400000000, 50000000].getD st 0

/-- STAGE_LIMIT_OVERRUN (R566, R572): the stage ends, its unfinished units are treated as failed, and code 0x05 is recorded.
In stage 2 the boot ROM starts the other slot once. DEDUCED (log 150). -/
def stageOverrun (s : State) (unfinished : List BootUnit) : State :=
  let st := s.get E.boot_stage.s
  if st = 0 ∨ s.boot.hold ∨ s.boot.stageNs < stageLimit st ∨ s.get E.boot_code.s = 1 ∨ s.get E.boot_code.s = 2 then s
  else
    let s := s.bootFail st 0x05
    if st = 2 ∧ !s.boot.swapped then
      let s := (s.runSlot (1 - s.fwSlot)).stick E.fw_flags.s 0
      ({ s with boot := { s.boot with stageNs := 0, swapped := true } }).raise 896
    else if st = 4 then
      let ks := s.pwr.waiting ++ s.pwr.ramps.map (·.dom)
      (ks.foldl (fun acc k => acc.failDom k) s).stageTo 5
    else (s.stageDone st unfinished).pinTrack

end Sys2Proof.Machine
end

