-- ==== Sys2Proof/Machine/Names.lean ====
section
/-!
DEFINITION. The dotted names of the Catalogue entries (R11, R31), as the entry tables of spec/ give them, by index and subindex.
-/

namespace Sys2Proof.Machine.E

/-- Names of the entries from index 0x1000 on, by 256 * index + subindex. -/
def names0 : List (Nat × String) := [
  (0x100001, "device.vendor"), (0x100002, "device.part"), (0x100003, "device.stepping"), (0x100004, "device.serial"),
  (0x100010, "device.ready"), (0x101001, "lc.state"), (0x101002, "lc.advance"), (0x101003, "lc.pending"),
  (0x101004, "lc.confirm"), (0x102001, "coord.rack"), (0x102002, "coord.plane"), (0x102003, "coord.slot"),
  (0x102004, "coord.set"), (0x102101, "rack.reset_at"), (0x102102, "rack.reset_pending"), (0x102801, "recable.ports"),
  (0x102802, "recable.open_at"), (0x102803, "recable.close"), (0x102804, "recable.limit"), (0x102810, "recable.state"),
  (0x102811, "recable.opened"), (0x102820, "recable.drops"), (0x102821, "recable.windows"), (0x102822, "recable.expired"),
  (0x102823, "recable.refused"), (0x103001, "device.conditions"), (0x104001, "boot.stage"), (0x104002, "boot.cause"),
  (0x104003, "boot.fail"), (0x104004, "boot.code"), (0x104005, "boot.ready_ns"), (0x104006, "boot.stage_ns"),
  (0x105001, "handle.limit"), (0x106101, "quota.limit"), (0x106102, "quota.count"), (0x110001, "bripol.length"),
  (0x110002, "bripol.version"), (0x110003, "bripol.crc"), (0x110101, "bripol.data"), (0x130001, "mctp.bus"),
  (0x130002, "mctp.smbus_addr"), (0x130003, "mctp.smbus_speed"), (0x130004, "mctp.eid"), (0x130005, "mctp.restart"),
  (0x130006, "mctp.flags"), (0x130010, "mctp.recoveries"), (0x131001, "comm.udp_port"), (0x131002, "comm.mgmt_mode"),
  (0x131003, "comm.ipv4"), (0x131004, "comm.ipv6"), (0x131005, "comm.mac"), (0x131010, "comm.dropped"),
  (0x131011, "comm.udp_replays"), (0x132001, "hring.base"), (0x132002, "hring.size"), (0x132003, "hring.pool"),
  (0x132004, "hring.enable"), (0x132005, "hring.irq_holdoff"), (0x132010, "hring.records"), (0x132011, "hring.no_buffer")]

/-- Names of the entries from index 0x1320 on, by 256 * index + subindex. -/
def names1 : List (Nat × String) := [
  (0x132012, "hring.truncated"), (0x132013, "hring.dropped_bytes"), (0x132014, "hring.no_stage"),
  (0x133001, "host.aperture_base"), (0x133002, "host.aperture_window"), (0x133003, "host.aperture_partition"),
  (0x133010, "host.aperture_errors"), (0x200001, "port.width"), (0x200002, "port.mode"), (0x200003, "port.role"),
  (0x200004, "port.fec"), (0x200005, "port.an"), (0x200006, "port.min_width"), (0x200007, "port.auto_restore"),
  (0x200008, "port.restore_hold"), (0x200009, "port.restore"), (0x20000A, "port.degrade_enable"),
  (0x20000B, "port.ber_limit"), (0x20000C, "port.loopback"), (0x20000D, "port.prbs"), (0x20000E, "port.control_role"),
  (0x20000F, "port.control_partition"), (0x200010, "port.mtu"), (0x200011, "port.pvid"), (0x200012, "port.vlan_mode"),
  (0x200013, "port.stp_state"), (0x200014, "port.ecn_enable"), (0x200015, "port.mac"), (0x200016, "port.tunnel_src"),
  (0x200017, "port.tunnel_hop_limit"), (0x200020, "port.state"), (0x200021, "port.active_width"),
  (0x200022, "port.active_first_lane"), (0x200023, "port.rx_good"), (0x200024, "port.notice"), (0x200025, "port.flags"),
  (0x200030, "port.fec_corrected"), (0x200031, "port.fec_uncorrectable"), (0x200032, "port.rx_dropped"),
  (0x200033, "port.rx_stomped"), (0x200034, "port.tx_stomped"), (0x200035, "port.tx_dropped"), (0x200036, "port.degrades"),
  (0x200037, "port.marker_errors"), (0x200038, "port.pause_dropped"), (0x240001, "lane.state"), (0x240002, "lane.snr"),
  (0x240003, "lane.pre_fec_ber"), (0x240004, "lane.losses"), (0x240005, "lane.prbs_errors"), (0x280001, "millrace.role"),
  (0x280002, "millrace.loopback"), (0x280003, "millrace.tx_sleep"), (0x280004, "millrace.rx_wake_enable"),
  (0x280005, "millrace.prbs"), (0x280006, "millrace.send_wake"), (0x281001, "millrace.state"),
  (0x281002, "millrace.tx_state"), (0x281003, "millrace.rx_state"), (0x281004, "millrace.partner")]

/-- Names of the entries from index 0x2810 on, by 256 * index + subindex. -/
def names2 : List (Nat × String) := [
  (0x281005, "millrace.flags"), (0x282001, "millrace.code_errors"), (0x282002, "millrace.bubbles"),
  (0x282003, "millrace.frame_drops"), (0x282004, "millrace.retrains"), (0x282005, "millrace.marks"),
  (0x282006, "millrace.prbs_errors"), (0x282007, "millrace.wakes"), (0x282008, "millrace.launch_ignored"),
  (0x283001, "millrace.launch_count"), (0x283002, "millrace.launch_record"), (0x28300A, "millrace.last_missed"),
  (0x300001, "bundle.members"), (0x300002, "bundle.deflect_threshold"), (0x300003, "bundle.link_allowance"),
  (0x300004, "bundle.adaptive"), (0x300005, "bundle.adapt_interval"), (0x300006, "bundle.delay_target"),
  (0x300007, "bundle.eddy_limit"), (0x300010, "bundle.members_up"), (0x300011, "bundle.weight"),
  (0x300040, "bundle.forwarded"), (0x300041, "bundle.deflections"), (0x300042, "bundle.eddy_drops"),
  (0x300043, "bundle.eddy_full_drops"), (0x300044, "bundle.expired"), (0x340001, "rill.rx_fail"),
  (0x34000E, "rill.rx_expired"), (0x34000F, "rill.rx_accepted"), (0x340020, "rill.rx_flags"),
  (0x380001, "rill.origin_lifetime"), (0x380002, "rill.lifetime_max"), (0x380006, "rill.fault_window"),
  (0x380007, "rill.fault_rate"), (0x380008, "rill.eddy_used"), (0x380009, "rill.eddy_peak"),
  (0x381001, "rill.partition_sets"), (0x3A0001, "bridge.ageing_time"), (0x3A0002, "bridge.mac_count"),
  (0x3A0003, "bridge.learn_refused"), (0x3A0004, "bridge.station_moves"), (0x3A0101, "bridge.mac_table"),
  (0x3A0201, "bridge.vlan_table"), (0x3BF001, "tunnel.udp_port"), (0x3BF002, "tunnel.dscp"), (0x3C0001, "tunnel.dst"),
  (0x3C0002, "tunnel.next_hop_mac"), (0x3C0003, "tunnel.vlan"), (0x3C0004, "tunnel.ce_received"),
  (0x400001, "rsv.window_region"), (0x400002, "rsv.packet_cells"), (0x400003, "rsv.landing_cells"),
  (0x400004, "rsv.yellow_limit"), (0x400005, "rsv.red_limit"), (0x400006, "rsv.red_seed"), (0x400010, "rsv.shared_cells"),
  (0x400011, "rsv.shared_used"), (0x400012, "rsv.shared_yr"), (0x400013, "rsv.shared_r"), (0x400014, "rsv.shared_peak")]

/-- Names of the entries from index 0x4000 on, by 256 * index + subindex. -/
def names3 : List (Nat × String) := [
  (0x400020, "xbar.plane_enable"), (0x400021, "xbar.plane_state"), (0x400030, "rsv.ecc_corrected"),
  (0x400031, "rsv.ecc_uncorrectable"), (0x400032, "xbar.underruns"), (0x400033, "rsv.landing_drops"),
  (0x402001, "internal.min_cells"), (0x402002, "internal.shared_max"), (0x402010, "internal.depth_cells"),
  (0x402011, "internal.held"), (0x410001, "queue.weight"), (0x410002, "queue.rate"), (0x410003, "queue.burst"),
  (0x410004, "queue.credit"), (0x410005, "queue.gate_open"), (0x410030, "queue.min_cells"), (0x410031, "queue.shared_max"),
  (0x410032, "queue.alpha"), (0x410033, "queue.red_profile"), (0x410034, "queue.avg_weight"),
  (0x410040, "queue.depth_cells"), (0x410041, "queue.min_used"), (0x410042, "queue.shared_used"),
  (0x410043, "queue.avg_depth"), (0x410050, "queue.admitted"), (0x410051, "queue.drop_green"),
  (0x410052, "queue.drop_yellow"), (0x410053, "queue.drop_red"), (0x410054, "queue.early_drops"),
  (0x410055, "queue.ecn_marked"), (0x410056, "queue.refused_rill"), (0x410057, "queue.tx_packets"),
  (0x410058, "queue.tx_bytes"), (0x410059, "queue.gate_waits"), (0x410060, "queue.sample_ft"),
  (0x410061, "queue.sample_depth"), (0x410062, "queue.sample_max_depth"), (0x410063, "queue.sample_head_age"),
  (0x410064, "queue.sample_sojourn_mean"), (0x410065, "queue.sample_sojourn_max"), (0x410066, "queue.sample_departures"),
  (0x410070, "policer.cir"), (0x410071, "policer.cbs"), (0x410072, "policer.pir"), (0x410073, "policer.pbs"),
  (0x410074, "policer.aware"), (0x410075, "policer.yellow_action"), (0x410076, "policer.red_action"),
  (0x410077, "policer.state"), (0x410078, "policer.die"), (0x410080, "policer.green"), (0x410081, "policer.yellow"),
  (0x410082, "policer.red"), (0x410083, "policer.dropped"), (0x420001, "red.min"), (0x420002, "red.max"),
  (0x420003, "red.pmax"), (0x420004, "red.enable"), (0x440001, "sample.rx_n"), (0x440002, "sample.tx_n")]

/-- Names of the entries from index 0x4400 on, by 256 * index + subindex. -/
def names4 : List (Nat × String) := [
  (0x440003, "sample.mode"), (0x440004, "sample.length"), (0x440005, "sample.dest"), (0x440006, "sample.drops"),
  (0x440010, "sample.taken"), (0x440011, "sample.lost"), (0x480001, "gate.port"), (0x480002, "gate.alternate"),
  (0x480003, "gate.entries"), (0x480004, "gate.list"), (0x480005, "gate.cycle"), (0x480006, "gate.start"),
  (0x480007, "gate.switch_at"), (0x480008, "gate.stop"), (0x480010, "gate.state"), (0x480011, "gate.anchor"),
  (0x480012, "gate.entry"), (0x480013, "gate.switches"), (0x480014, "gate.switch_refused"),
  (0x490001, "sched.sample_interval"), (0x4A0001, "policer.bind"), (0x4C0001, "sched.strict_mask"),
  (0x4C0002, "sched.class_weight"), (0x4C000A, "sched.sub_strict"), (0x4C000B, "sched.colour_split"),
  (0x4C000C, "sched.overhead"), (0x4C000D, "sched.pcp_map"), (0x4C000E, "sched.default_class"),
  (0x4C000F, "sched.port_rate"), (0x4C0010, "sched.port_burst"), (0x4C0011, "sched.gate_schedule"),
  (0x500001, "confluence.basin_free"), (0x500002, "confluence.basin_peak"), (0x500010, "confluence.engine_handles"),
  (0x500020, "confluence.engine_bytes"), (0x500030, "confluence.proto_drops"), (0x500038, "confluence.epilogue_held"),
  (0x521001, "collective.type"), (0x521002, "collective.operator"), (0x521003, "collective.segment_size"),
  (0x521004, "collective.threshold"), (0x521005, "collective.length"), (0x521006, "collective.in_format"),
  (0x521007, "collective.out_format"), (0x521008, "collective.mode"), (0x521009, "collective.window"),
  (0x52100A, "collective.members"), (0x52100B, "collective.root"), (0x52100C, "collective.scale"),
  (0x52100D, "collective.epilogue"), (0x52100E, "collective.laggard_timeout"), (0x52100F, "collective.widen"),
  (0x521010, "collective.widen_threshold"), (0x521011, "collective.barrier_scope"), (0x521012, "collective.overflow_pool"),
  (0x521013, "collective.peers"), (0x521014, "collective.position"), (0x521015, "collective.result_class"),
  (0x521016, "collective.layer_id"), (0x521017, "collective.op_id")]

/-- Names of the entries from index 0x5210 on, by 256 * index + subindex. -/
def names5 : List (Nat × String) := [
  (0x521018, "collective.rows"), (0x521019, "collective.row_bytes"), (0x52101A, "collective.topk"),
  (0x52101B, "collective.capacity"), (0x52101C, "collective.pair"), (0x52101D, "collective.dispatch_map"),
  (0x52101E, "collective.arm"), (0x52101F, "collective.disarm"), (0x521020, "collective.state"),
  (0x521021, "collective.engine"), (0x521022, "collective.run"), (0x521023, "collective.path"),
  (0x521024, "collective.segments"), (0x521025, "collective.slot_bytes"), (0x521026, "collective.basin_bytes"),
  (0x521027, "collective.result_stride"), (0x521028, "collective.limit"), (0x521029, "collective.last_status"),
  (0x52102A, "collective.member_lost"), (0x52102B, "collective.laggard_position"), (0x52102C, "collective.timeout_position"),
  (0x52102D, "collective.skew_max"), (0x52102E, "collective.skew_mean"), (0x521030, "collective.runs"),
  (0x521031, "collective.timeouts"), (0x521032, "collective.widened"), (0x521033, "collective.not_armed"),
  (0x521034, "collective.format_errors"), (0x521035, "collective.early"), (0x521036, "collective.late"),
  (0x521037, "collective.oversize"), (0x521038, "collective.over_credit"), (0x521039, "collective.not_owner"),
  (0x52103A, "collective.duplicates"), (0x52103B, "collective.rows_unassigned"), (0x521040, "collective.in_scale"),
  (0x521041, "collective.out_scale"), (0x521042, "collective.lse_dim"), (0x521050, "collective.saturated"),
  (0x521051, "collective.flushed"), (0x521052, "collective.nan_results"), (0x521053, "collective.truncated"),
  (0x521060, "collective.histogram"), (0x521061, "collective.histogram_run"), (0x540001, "confluence.last_arrivals"),
  (0x600001, "mill.enabled_map"), (0x600002, "mill.enabled_count"), (0x600003, "mill.spare_count"),
  (0x600004, "mill.die_queue"), (0x601001, "mill.logical_count"), (0x601002, "mill.queue_limit"),
  (0x601003, "mill.queue_depth"), (0x601004, "mill.job_timeout"), (0x601010, "mill.jobs_accepted"),
  (0x601011, "mill.jobs_completed"), (0x601012, "mill.jobs_failed"), (0x601013, "mill.queue_full"),
  (0x601014, "mill.saturated"), (0x601015, "mill.flushed"), (0x601016, "mill.nan_out")]

/-- Names of the entries from index 0x6010 on, by 256 * index + subindex. -/
def names6 : List (Nat × String) := [
  (0x601017, "mill.router_overflow"), (0x610001, "template.descriptor"), (0x610002, "template.state"),
  (0x610003, "template.holders"), (0x610010, "template.jobs"), (0x610011, "template.failed"), (0x620001, "mill.state"),
  (0x620002, "mill.logical"), (0x620010, "mill.busy_cycles"), (0x620011, "mill.shares"), (0x620012, "mill.ecc_corrected"),
  (0x620013, "mill.ecc_uncorrectable"), (0x6E0001, "format.name"), (0x6E0002, "format.element_bits"),
  (0x6E0003, "format.block"), (0x6E0004, "format.granule_elements"), (0x6E0005, "format.rate_class"),
  (0x6E0010, "format.flushed_in"), (0x6E0011, "format.flushed_out"), (0x6E0012, "format.saturated"),
  (0x6E0013, "format.nan_out"), (0x6E0014, "format.reserved_in"), (0x700001, "mem.t1_bytes"), (0x700002, "mem.t2_bytes"),
  (0x700003, "mem.mill_window"), (0x700004, "mem.outstanding_limit"), (0x700005, "mem.outstanding"), (0x700010, "mem.busy"),
  (0x700020, "t2cache.hits"), (0x700021, "t2cache.misses"), (0x700022, "t2cache.fills_discarded"), (0x701001, "cxl.enable"),
  (0x701002, "cxl.timeout"), (0x701003, "cxl.resume"), (0x701004, "cxl.invalidate"), (0x701010, "cxl.state"),
  (0x701011, "cxl.width"), (0x701012, "cxl.capacity"), (0x701013, "cxl.device_id"), (0x701014, "cxl.flags"),
  (0x701020, "cxl.timeouts"), (0x701021, "cxl.poison"), (0x701022, "cxl.losses"), (0x701023, "cxl.read_bytes"),
  (0x701024, "cxl.write_bytes"), (0x702001, "hbm.state"), (0x702010, "hbm.ecc_corrected"),
  (0x702011, "hbm.ecc_uncorrectable"), (0x702012, "hbm.read_bytes"), (0x702013, "hbm.write_bytes"),
  (0x710001, "window.base"), (0x710002, "window.size"), (0x710003, "window.rights"), (0x710004, "window.cached"),
  (0x710005, "window.open"), (0x710010, "window.state"), (0x710011, "window.tier"), (0x710012, "window.holders"),
  (0x710020, "window.reads"), (0x710021, "window.writes")]

/-- Names of the entries from index 0x7100 on, by 256 * index + subindex. -/
def names7 : List (Nat × String) := [
  (0x710022, "window.read_bytes"), (0x710023, "window.write_bytes"), (0x710024, "window.errors"),
  (0x730001, "pool.buffer_size"), (0x730002, "pool.count"), (0x730003, "pool.buffer_base"), (0x730004, "pool.buffer_window"),
  (0x730005, "pool.ring_base"), (0x730006, "pool.ring_window"), (0x730007, "pool.low_water"), (0x730008, "pool.enable"),
  (0x730009, "pool.alloc"), (0x73000A, "pool.free"), (0x73000B, "pool.share"), (0x730010, "pool.state"),
  (0x730011, "pool.free_count"), (0x730012, "pool.ring_count"), (0x730013, "pool.head_cached"),
  (0x730014, "pool.tail_cached"), (0x730015, "pool.users"), (0x730016, "pool.flags"), (0x730020, "pool.allocs"),
  (0x730021, "pool.frees"), (0x730022, "pool.empty"), (0x730023, "pool.double_frees"), (0x730024, "pool.bad_addresses"),
  (0x730025, "pool.low_free"), (0x740001, "sequence.template"), (0x740002, "sequence.prefix_source"),
  (0x740003, "sequence.prefix_tokens"), (0x740004, "sequence.activate"), (0x740005, "sequence.reserve"),
  (0x740006, "sequence.length"), (0x740010, "sequence.state"), (0x740011, "sequence.capacity"), (0x740012, "sequence.pages"),
  (0x740013, "sequence.root"), (0x740014, "sequence.holders"), (0x740020, "sequence.jobs"),
  (0x740021, "sequence.pages_taken"), (0x750001, "holdings.sequences"), (0x750002, "holdings.pages"),
  (0x750003, "holdings.tokens"), (0x750010, "holdings.copies"), (0x750011, "holdings.failed"),
  (0x760001, "seqtemplate.layers"), (0x760002, "seqtemplate.kv_heads"), (0x760003, "seqtemplate.head_dim"),
  (0x760004, "seqtemplate.kv_format"), (0x760005, "seqtemplate.page_pool"), (0x76000D, "seqtemplate.table_pool"),
  (0x760010, "seqtemplate.page_bytes"), (0x760011, "seqtemplate.users"), (0x800001, "ft.now"), (0x800002, "ft.step"),
  (0x800003, "ft.sync_state"), (0x800004, "ft.source_port"), (0x800005, "ft.phase_error"), (0x800006, "ft.delay_mode"),
  (0x800007, "ft.delay_fixed")]

/-- Names of the entries from index 0x8000 on, by 256 * index + subindex. -/
def names8 : List (Nat × String) := [
  (0x800009, "ft.delay_measured"), (0x80000B, "ft.primary_port"), (0x80000C, "ft.holdover_limit"),
  (0x80000D, "ft.local_set"), (0x80000E, "ft.flags"), (0x80000F, "ft.corrections"), (0x800010, "ft.late_actions"),
  (0x800011, "ft.pending"), (0x800012, "ft.pending_limit"), (0x800013, "ft.launch_at"), (0x800014, "ft.launch_pending"),
  (0x800015, "ft.launch_cancel"), (0x810001, "weir.clock_mode"), (0x810002, "weir.clock_locked"), (0x810003, "weir.slots"),
  (0x810004, "weir.engines"), (0x810005, "weir.mills"), (0x810006, "weir.t1_share"), (0x810007, "weir.hold_limit"),
  (0x810008, "weir.start"), (0x810009, "weir.start_on_launch"), (0x81000A, "weir.stop"), (0x810010, "weir.state"),
  (0x810011, "weir.anchor"), (0x810012, "weir.cycle"), (0x810013, "weir.ft_offset"), (0x810014, "weir.flags"),
  (0x810020, "weir.held"), (0x810021, "weir.no_slot"), (0x810022, "weir.hold_drops"), (0x810023, "weir.buffer_drops"),
  (0x810024, "weir.idle_slots"), (0x810025, "weir.t1_slips"), (0x810026, "weir.realigns"), (0x811001, "weir.partitions"),
  (0x812001, "weir.schedule"), (0x820001, "lockstep.peer_port"), (0x820002, "lockstep.window_cycles"),
  (0x820003, "lockstep.start"), (0x820004, "lockstep.start_on_launch"), (0x820005, "lockstep.stop"),
  (0x820006, "lockstep.stop_on_divergence"), (0x820010, "lockstep.state"), (0x820011, "lockstep.window"),
  (0x820012, "lockstep.first"), (0x820013, "lockstep.flags"), (0x820020, "lockstep.windows"),
  (0x820021, "lockstep.divergent"), (0x820022, "lockstep.missing"), (0x820023, "lockstep.foreign_frames"),
  (0x821001, "lockstep.ports"), (0x900001, "pwr.target"), (0x900002, "pwr.enter_at"), (0x900003, "pwr.state"),
  (0x900004, "pwr.phase"), (0x900005, "pwr.wake_state"), (0x900006, "pwr.wake_on_job"), (0x900007, "pwr.drain_limit"),
  (0x900008, "pwr.slew_budget"), (0x900009, "pwr.hold_window")]

/-- Names of the entries from index 0x9000 on, by 256 * index + subindex. -/
def names9 : List (Nat × String) := [
  (0x90000A, "pwr.hold_action"), (0x90000B, "pwr.warn_level"), (0x90000C, "pwr.shed_cap"), (0x900010, "pwr.refusals"),
  (0x900011, "pwr.aborts"), (0x900012, "pwr.sheds"), (0x900013, "pwr.wakes"), (0x900014, "pwr.slew_waits"),
  (0x900101, "pwr.wake_lanes"), (0x900201, "pwr.log"), (0x910001, "pwr.dom.name"), (0x910002, "pwr.dom.status"),
  (0x910003, "pwr.dom.request"), (0x910004, "pwr.dom.retry"), (0x910005, "pwr.dom.restore_ns"),
  (0x910006, "pwr.dom.ramp_ns"), (0x910007, "pwr.dom.cost"), (0x910010, "pwr.dom.offs"), (0x910011, "pwr.dom.ramp_failures"),
  (0x920001, "therm.max"), (0x920002, "therm.throttle_c"), (0x920003, "therm.mill_clock"), (0x920004, "therm.state"),
  (0x920010, "therm.throttle_steps"), (0x920011, "therm.throttle_ns"), (0x920101, "therm.sensor"),
  (0x921001, "supply.vin_mv"), (0x921002, "supply.sd_mv"), (0x921003, "supply.mr_mv"), (0x921004, "supply.aon_mv"),
  (0x921005, "supply.io_mv"), (0x921006, "supply.core_mv"), (0x921007, "supply.vin_amps"), (0x921010, "supply.vin_lows"),
  (0xA00001, "fault.severity"), (0xA00002, "fault.reactions"), (0xA00003, "fault.sets"), (0xA40000, "fault.subscribe"),
  (0xA40001, "fault.sticky"), (0xA80001, "fault.pin_level"), (0xA80002, "fault.pin_sampling"), (0xA80003, "fault.pin_rearm"),
  (0xA80004, "fault.last_reset_cause"), (0xA80005, "fault.last_trap"), (0xA80010, "fault.traps"),
  (0xA80011, "fault.block_resets"), (0xA80012, "fault.storm_refused"), (0xA80013, "fault.chip_resets"),
  (0xA80014, "fault.notify_lost"), (0xB00001, "st.shutdown"), (0xB00002, "st.clock"), (0xB00003, "st.hbm_hard_repair"),
  (0xB00004, "st.state"), (0xB00005, "st.start_count"), (0xB00006, "st.lane_retry_limit"), (0xB00010, "st.last"),
  (0xB00011, "st.repair_record"), (0xB00020, "st.lane_repairs"), (0xB00021, "st.row_repairs"),
  (0xB00022, "st.withheld_bytes")]

/-- Names of the entries from index 0xB010 on, by 256 * index + subindex. -/
def names10 : List (Nat × String) := [
  (0xB01001, "st.lbist_states"), (0xB01002, "st.scan_states"), (0xB01003, "st.clear_secrets"), (0xC00001, "snap.at"),
  (0xC00002, "snap.clear"), (0xC00003, "snap.view"), (0xC00004, "snap.seq"), (0xC00005, "snap.ft"),
  (0xC00006, "snap.pending"), (0xC01001, "archive.budget"), (0xC01002, "archive.sessions_open"), (0xC01010, "archive.cells"),
  (0xC01011, "archive.budget_drops"), (0xC10001, "opcount.mill"), (0xC10801, "opcount.confluence"), (0xC20001, "attr.table"),
  (0xC20002, "attr.used"), (0xC20003, "attr.reset"), (0xC80001, "trace.pool"), (0xC80002, "trace.kinds"),
  (0xC80003, "trace.partition"), (0xC80004, "trace.layer"), (0xC80005, "trace.operator"), (0xC80006, "trace.ports"),
  (0xC80007, "trace.packet_n"), (0xC80008, "trace.full_action"), (0xC80009, "trace.dest"), (0xC8000A, "trace.open_at"),
  (0xC8000B, "trace.close_at"), (0xC80010, "trace.state"), (0xC80011, "trace.next"), (0xC80012, "trace.queued"),
  (0xC80020, "trace.records"), (0xC80021, "trace.bytes"), (0xC80022, "trace.buffers"), (0xC80023, "trace.lost"),
  (0xD10001, "spring.header"), (0xD10002, "spring.length"), (0xD10003, "spring.payload"), (0xD10004, "spring.word"),
  (0xD10005, "spring.pool"), (0xD10006, "spring.payload_addr"), (0xD10007, "spring.payload_slots"),
  (0xD10008, "spring.stamp"), (0xD10009, "spring.burst"), (0xD1000A, "spring.spacing"), (0xD1000B, "spring.period"),
  (0xD1000C, "spring.count"), (0xD1000D, "spring.corrupt"), (0xD1000E, "spring.return_bundle"), (0xD1000F, "spring.start"),
  (0xD10010, "spring.start_on_launch"), (0xD10011, "spring.stop"), (0xD10020, "spring.state"), (0xD10021, "spring.next_seq"),
  (0xD10022, "spring.stop_status"), (0xD10030, "spring.sent"), (0xD10031, "spring.bytes"), (0xD10032, "spring.late"),
  (0xD10033, "spring.held")]

/-- Names of the entries from index 0xD400 on, by 256 * index + subindex. -/
def names11 : List (Nat × String) := [
  (0xD40001, "gauge.tap"), (0xD40002, "gauge.port"), (0xD40003, "gauge.partition"), (0xD40004, "gauge.kinds"),
  (0xD40005, "gauge.stream"), (0xD40006, "gauge.tests"), (0xD40007, "gauge.pattern"), (0xD40008, "gauge.word"),
  (0xD40009, "gauge.bin_ns"), (0xD4000A, "gauge.enable"), (0xD40010, "gauge.state"), (0xD40011, "gauge.expected"),
  (0xD40012, "gauge.missing"), (0xD40013, "gauge.latency_min"), (0xD40014, "gauge.latency_max"),
  (0xD40015, "gauge.latency_sum"), (0xD40016, "gauge.histogram"), (0xD40017, "gauge.first"), (0xD40018, "gauge.flags"),
  (0xD40020, "gauge.received"), (0xD40021, "gauge.out_of_order"), (0xD40022, "gauge.duplicates"), (0xD40023, "gauge.stale"),
  (0xD40024, "gauge.payload_errors"), (0xD40025, "gauge.bit_errors"), (0xD40026, "gauge.negative"),
  (0xD40027, "gauge.copy_lost"), (0xD40030, "gauge.rule"), (0xE00001, "sec.owner_key"), (0xE00002, "sec.operator_key"),
  (0xE00003, "sec.observer_key"), (0xE00004, "sec.keys_set"), (0xE00005, "sec.lockout"), (0xE00010, "sec.open_failures"),
  (0xE00101, "sec.tenant_keys"), (0xE00201, "sec.open_counter"), (0xE10001, "fw.image"), (0xE10002, "fw.verify"),
  (0xE10003, "fw.verify_status"), (0xE10004, "fw.activate"), (0xE10005, "fw.activate_mode"), (0xE10006, "fw.commit"),
  (0xE10007, "fw.running"), (0xE10008, "fw.min_security"), (0xE10009, "fw.flags"), (0xE11001, "curator.restarts"),
  (0xF0A001, "fault.inject")]

/-- Every name (R31). -/
def names : List (Nat × String) := names0 ++ names1 ++ names2 ++ names3 ++ names4 ++ names5 ++ names6 ++ names7 ++ names8 ++ names9 ++ names10 ++ names11

end Sys2Proof.Machine.E

namespace Sys2Proof.Machine

/-- The dotted name of an entry (R31). -/
def Ent.name (e : Ent) : String := ((E.names.find? fun p => p.1 == 256 * e.idx + e.sub).map (·.2)).getD ""

end Sys2Proof.Machine
end

