-- ==== Sys2Proof/Machine/Bripol.lean ====
section
/-!
DEFINITION. What the Bripol description says of an entry, and its bytes: resources that are not fitted (R5, R6), the right of each
role (R34 to R36), and the description itself (spec/02_catalogue.md, R61, R62).
-/

namespace Sys2Proof.Machine

/-! ### Fitted resources -/

/-- Is the resource of an index fitted (R5, R6)? Ports, lanes and their tables follow the lane; then power domains and
HBM stacks. The Eddy's outputs have no indices (R198). -/
def fitted (p : Part) (idx : Nat) : Bool :=
  if (0x2000 ≤ idx ∧ idx < 0x2800) ∨ (0x3400 ≤ idx ∧ idx < 0x3800) ∨ (0x4400 ≤ idx ∧ idx < 0x4800) ∨
      (0x4C00 ≤ idx ∧ idx < 0x5000) ∨ (0x5400 ≤ idx ∧ idx < 0x5800) then laneFitted p (idx % 1024)
  else if 0x7020 ≤ idx ∧ idx < 0x7028 then hbmFitted p (idx - 0x7020)
  else if 0x9100 ≤ idx ∧ idx < 0x9139 then domFitted p (idx - 0x9100)
  else decide (idx ≠ 0x4036 ∧ idx ≠ 0x4037)

/-- The value that an entry of an unfitted resource reads: `lane.state`, `hbm.state`, `pwr.dom.status`, `therm.sensor` (R5). -/
def unfittedValue (p : Part) (idx sub : Nat) : Option Nat :=
  if 0x2400 ≤ idx ∧ idx < 0x2800 ∧ sub = 1 ∧ !fitted p idx then some 0xFF
  else if 0x7020 ≤ idx ∧ idx < 0x7028 ∧ sub = 1 ∧ !fitted p idx then some 0
  else if 0x9100 ≤ idx ∧ idx < 0x9139 ∧ sub = 2 ∧ !fitted p idx then some 5
  else if idx = 0x9201 ∧ 1 ≤ sub ∧ sub ≤ 24 ∧ !sensorFitted p (sub - 1) then some 0x80000000
  else none

/-- The name of the variant (R4), as a number. -/
def partName : Part → Nat
  | .fn84 => asciiLe [70, 78, 55, 45, 56, 52]
  | .fn83 => asciiLe [70, 78, 55, 45, 56, 51]
  | .fn82 => asciiLe [70, 78, 55, 45, 56, 50]
  | .fn44 => asciiLe [70, 78, 55, 45, 52, 52]

/-- `pwr.shed_cap` (R537). -/
def shedCapOf : Part → Nat
  | .fn84 => 1120
  | .fn83 => Config.shedCap 0x83 % 65536
  | .fn82 => Config.shedCap 0x82 % 65536
  | .fn44 => Config.shedCap 0x44 % 65536

/-! ### Rights -/

/-- The right that a rule of the spec fixes for a role on an entry (R34 to R36, R74, R357, R386, R396, R403, R448, R453, R463,
R500, R504, R513, R537, R550, R554, R561, R563, R598); none where no rule states one. PRESUMED (log 21); DEDUCED (log 22). -/
def statedRight (s : State) (role idx sub : Nat) : Option Nat :=
  if 0xF000 ≤ idx then some (if role = 0 ∧ s.get E.lc_state.s = 1 then 2 else 0)
  else if role = 0 then some (if s.get E.lc_state.s = 1 then 2 else 0)
  else if role = 4 then (if idx = 0x7300 ∧ sub = 9 then some 0 else none)
  else if idx = 0x1020 ∨ (idx = 0x1021 ∧ sub = 1) then (if role = 1 then some 2 else if role = 3 ∧ idx = 0x1021 then some 0 else some 1)
  else if idx = 0xE000 ∧ sub ≤ 3 then (if role = 1 then some 2 else if role = 2 then some 1 else none)
  else if idx = 0xB010 ∧ (sub = 1 ∨ sub = 2) ∧ role = 2 then some 1
  else if role = 3 then
    if idx = 0x7100 ∨ idx = 0xC800 ∨ idx = 0xD100 ∨ idx = 0xD400 then some 1
    else if idx = 0x7300 then some (if sub = 0x0A ∨ sub = 0x0B then 2 else 1)
    else if idx = 0x7400 then some 2
    else if idx = 0x8000 ∧ sub = 0x0D then some 1
    else if idx = 0xC200 ∨ (0x9000 ≤ idx ∧ idx < 0xB000) ∨ idx = 0x1021 ∨ idx = 0x1028 then some 0
    else none
  else none

/-- The right of a role where neither a rule nor a right record says otherwise: Owner and Operator read and write; a Tenant
reads, and writes the fields of its own collectives, templates, policers and gate schedules; an Observer reads.
PRESUMED (log 21). -/
def usualRight (role idx : Nat) : Nat :=
  if role = 1 ∨ role = 2 then 2
  else if role = 3 then (if idx = 0x5210 ∨ idx = 0x6100 ∨ idx = 0x4100 ∨ idx = 0x4800 then 2 else if idx / 4096 = 0xE then 0 else 1)
  else 1

/-- The right of a role on an entry (R34, R35). PRESUMED (log 21). -/
def rightOf (s : State) (role idx sub : Nat) : Nat :=
  let r := match statedRight s role idx sub with
    | some r => r
    | none =>
      match s.mgmt.rights.find? (fun x => x.role == role && decide (x.lo ≤ idx) && decide (idx ≤ x.hi)) with
      | some x => x.right
      | none => usualRight role idx
  if role = 4 then min r 1 else r

/-! ### The description -/

/-- The subindex that an entry's offset k stands at. -/
def Ent.subAt (e : Ent) (k : Nat) : Nat := e.sub + k * e.subStep

/-- A write of an entry that no role may hold (R34): RO, or of the status class. -/
def Ent.readOnly (e : Ent) : Bool := e.acc == .ro || e.cls == .status

/-- The highest subindex in use at an index (R31); none where the index has no entry. -/
def highestSub (idx : Nat) : Option Nat :=
  let subs := (E.all.filter fun e => decide (e.idx ≤ idx) && decide (idx < e.idx + e.rep)).map fun e => e.subAt (e.subN - 1)
  match subs with
  | [] => none
  | l => some (l.foldl max 0)

/-- Is the type numeric (R62: a record's lowest and highest value)? -/
def Ty.numeric (t : Ty) : Bool :=
  [Ty.bool, .u8, .u16, .u32, .u64, .i32, .i64, .ft, .enum8].contains t

/-- The type code of an entry type (R32). -/
def Ty.code (t : Ty) : Nat :=
  match t with
  | .bool => 1
  | .u8 => 2
  | .u16 => 3
  | .u32 => 4
  | .u64 => 5
  | .i32 => 6
  | .i64 => 7
  | .handle => 8
  | .ft => 9
  | .status => 10
  | .enum8 => 11
  | .bits32 => 12
  | .bits64 => 13
  | .octets => 14
  | .format => 15
  | .domain => 16

/-- The access code of a record (R62); the subscription target of R515 is no entry of it. -/
def Acc.code (a : Acc) : Nat :=
  match a with
  | .ro => 0
  | .rw => 1
  | .w1c => 2
  | .wo => 3
  | .rc => 4
  | .sub => 5

/-- The field class code (R38). -/
def Cls.code (c : Cls) : Nat :=
  match c with
  | .config => 0
  | .status => 1
  | .sticky => 2
  | .counter => 3
  | .handle => 4

/-- The lowest and highest value that an entry may hold, as numbers of its length (R32, R62). -/
def Ent.bounds (e : Ent) : Nat × Nat :=
  if !e.ty.numeric then (0, 0)
  else match e.rng with
    | .any =>
      if e.ty = .i32 ∨ e.ty = .i64 then (256 ^ e.len / 2, 256 ^ e.len / 2 - 1)
      else if e.ty = .bool then (0, 1) else (0, 256 ^ e.len - 1)
    | .range lo hi => (lo, hi)
    | .oneOf l => (l.foldl min (256 ^ e.len - 1), l.foldl max 0)
    | .mult lo hi _ => (lo, hi)
    | .pow2 lo hi => (lo, hi)
    | .orElse v lo hi _ => (min v lo, max v hi)

/-- The rights word of a record (R62): what each role holds on the entry, Factory as in the Factory state. No role writes an RO
or status entry (R34); a resource that is not fitted gives none, but for the entries that read a not-fitted value (R5, R61). -/
def State.bripolRights (s : State) (e : Ent) (idx sub : Nat) : Nat :=
  let cap := if fitted s.part idx then (if e.readOnly then 1 else 2) else if (unfittedValue s.part idx sub).isSome then 1 else 0
  let right := fun (role : Nat) => min cap (rightOf (if role = 0 then s.set E.lc_state.s 1 else s) role idx sub)
  right 0 + 4 * right 1 + 16 * right 2 + 64 * right 3 + 256 * right 4

/-- The default that a record states: the reset value, or for what the assembly fixes its value; of a handle field that of
index 0. DESIGN CHOICE (log 162). -/
def State.bripolDefault (s : State) (e : Ent) (n k : Nat) : List Byte :=
  if e.ty = .domain then []
  else leBytes e.len (
    if e = E.device_part then partName s.part
    else if e = E.device_serial then Config.serial % 2 ^ 128
    else if e = E.handle_limit then handleLimit (k + 1)
    else if e = E.pwr_shed_cap then shedCapOf s.part
    else e.dfltAt n k 0 0)

/-- What one record says: rights word and default, of repeat n and subindex offset k. -/
def State.bripolSays (s : State) (e : Ent) (n k : Nat) : Nat × List Byte :=
  (s.bripolRights e (e.idx + n) (e.subAt k), s.bripolDefault e n k)

/-- Runs of indices of which a record says the same, as (first, length), in order. -/
def runsOf {α : Type} [DecidableEq α] (f : Nat → α) : List Nat → List (Nat × Nat)
  | [] => []
  | n :: ns =>
    match runsOf f ns with
    | (m, len) :: rest => if f n = f m then (n, len + 1) :: rest else (n, 1) :: (m, len) :: rest
    | [] => [(n, 1)]

/-- One record (R62): the entry at repeat n and subindex offset k, `rep` indices of it, with a name and a default. -/
def Ent.record (e : Ent) (n k rep rights : Nat) (name : String) (dflt : List Byte) : List Byte :=
  let chars := name.toList.map fun c => BitVec.ofNat 8 c.toNat
  let b := leBytes 2 (e.idx + n) ++ leBytes 1 (e.subAt k) ++ leBytes 1 e.ty.code ++ leBytes 2 e.len ++ leBytes 2 rights ++
    leBytes 1 e.acc.code ++ leBytes 1 (e.cls.code + (if e.tmpl then 128 else 0)) ++ leBytes 2 rep ++
    leBytes 4 e.bounds.1 ++ leBytes 4 e.bounds.2 ++ leBytes 1 chars.length ++ leBytes 1 dflt.length ++ leBytes 2 0 ++ chars ++ dflt
  b ++ List.replicate (roundUp b.length 4 - b.length) 0

/-- The records of an entry (R62): one for each subindex and each run of indices of which the same is said, and for a numeric
type of 8 bytes the full range in two more of the group. DESIGN CHOICE (log 162). -/
def State.entRecords (s : State) (e : Ent) : List (List Byte) :=
  (List.range e.subN).flatMap fun k => (runsOf (fun n => s.bripolSays e n k) (List.range e.rep)).flatMap fun r =>
    let said := s.bripolSays e r.1 k
    let rec1 := e.record r.1 k r.2 said.1
    rec1 e.name said.2 ::
      (if e.ty.numeric && e.len == 8 then
        [rec1 (e.name ++ ".min") (leBytes 8 e.bounds.1), rec1 (e.name ++ ".max") (leBytes 8 e.bounds.2)] else [])

/-- The record of subindex 0x00 of the indices that start at an entry's index: U8, RO to every role (R31), with no name of its own.
DESIGN CHOICE (log 162). -/
def subZeroRecord (idx : Nat) : List Byte :=
  let rep := ((E.all.filter fun e => e.idx == idx).map (·.rep)).foldl max 1
  (⟨idx, rep, 0, 1, 1, .u8, 1, .ro, .status, .v 0, false, .any, false⟩ : Ent).record 0 0 rep 0x155 ""
    (leBytes 1 ((highestSub idx).getD 0))

/-- The variant code of the header (R62). -/
def partCode : Part → Nat
  | .fn84 => 0x0084
  | .fn83 => 0x0083
  | .fn82 => 0x0082
  | .fn44 => 0x0044

/-- The Bripol description (R61, R62): the 16-byte header, then the records of every entry. -/
def State.bripol (s : State) : List Byte :=
  let recs := (dedup (E.all.map (·.idx))).map subZeroRecord ++ E.all.flatMap s.entRecords
  [0x42, 0x52, 0x50, 0x4C] ++ leBytes 2 0x0100 ++ leBytes 4 recs.length ++ leBytes 2 (partCode s.part) ++ leBytes 1 0xB0 ++
    leBytes 3 0 ++ recs.flatten

end Sys2Proof.Machine
end

