-- ==== Sys2Proof/Machine/Reads.lean ====
section
/-!
DEFINITION. What an entry reads: entries whose value follows from the rest of the state, DOMAIN bytes, and the entries that have a snapshot shadow (R450).
-/

namespace Sys2Proof.Machine

/-- Launch record k as `millrace.launch_record` shows it (R111). -/
def launchWord (s : State) (k : Nat) : Nat :=
  match s.launches[k]? with
  | some r => r.seq % 2 ^ 32 + r.target % 2 ^ 64 * 2 ^ 32 + (if r.armed then 2 else 1) * 2 ^ 96
  | none => 0

/-- `pool.users` (R399): collectives with overflow slots, sequences that are Active or Failed, enabled host rings, Running
streams, and trace sessions that are Scheduled or Open. -/
def poolUsers (s : State) (p : Nat) : Nat :=
  let names := fun (h : Nat) => h != 0 && hType h == 3 && hIdx h == p
  let colls := (s.liveIdx 1).filter fun i => (s.crt i).overBufs.any fun x => x.1 == p
  let seqs := (s.liveIdx 2).filter fun i =>
    s.get (E.sequence_state.h i) != 0 &&
    (let t := s.seqTmpl i
     names (s.get (E.seqtemplate_table_pool.n t)) || (List.range 8).any fun k => names (s.get (E.seqtemplate_page_pool.nk t k)))
  let rings := (List.range 4).filter fun r => s.getB (E.hring_enable.n r) && names (s.get (E.hring_pool.n r))
  let streams := (s.liveIdx 5).filter fun i => s.get (E.spring_state.h i) == 3 && names (s.get (E.spring_pool.h i))
  let traces := (s.liveIdx 7).filter fun i =>
    (s.get (E.trace_state.h i) == 1 || s.get (E.trace_state.h i) == 2) && names (s.get (E.trace_pool.h i))
  colls.length + seqs.length + rings.length + streams.length + traces.length

/-- Active sequences. -/
def activeSeqs (s : State) : List Nat := (s.liveIdx 2).filter fun i => s.get (E.sequence_state.h i) == 1

/-- Live handles of type t in a partition (`quota.count`). -/
def State.countIn (s : State) (t part : Nat) : Nat :=
  (s.hs.live.filter fun p => p.1 / 2 ^ 20 == t && p.2.part == part).length

/-- Bindings of a policer as (ingress port, class). -/
def policerBinds (s : State) (i : Nat) : List (Nat × Nat) :=
  (s.bindings.filter fun b => hType b.2.2 == 4 && hIdx b.2.2 == i).map fun b => (b.1, b.2.1)

/-- A truth value as a number. -/
def boolNat (b : Bool) : Nat := if b then 1 else 0

/-- The value of an entry that follows from the rest of the state (repeat n, subindex offset k, handle slot i); none for a
stored entry. -/
def State.derived (s : State) (e : Ent) (n k i : Nat) : Option Nat :=
  match e.idx, e.sub with
  | 0x1000, 0x02 => some (partName s.part)
  | 0x1000, 0x04 => some (Config.serial % 2 ^ 128)
  | 0x1020, 0x04 => some (boolNat (s.get E.coord_rack.s != 0xFFFF && s.get E.coord_plane.s != 0xFF && s.get E.coord_slot.s != 0xFF))
  | 0x1050, 0x01 => some (handleLimit (k + 1))
  | 0x1100, 0x01 => some s.bripol.length
  | 0x1100, 0x03 => some (crc32c s.bripol)
  | 0x2830, 0x01 => some s.launches.length
  | 0x2830, 0x02 => some (launchWord s k)
  | 0x3000, 0x10 => some (ofBitList ((List.range 32).filter fun j => s.member n j != 0xFFFF && s.inService (s.member n j)))
  | 0x3000, 0x11 => some (s.weight n k)
  | 0x4000, 0x10 => some s.sharedCells
  | 0x4100, 0x04 => some (unsignedOf 64 (s.creditAt (i / 16) (i % 16) s.ft).1)
  | 0x4100, 0x05 => some (boolNat (s.gateOpen (i / 16) (i % 16)))
  | 0x4100, 0x77 => some (if (policerBinds s i).isEmpty then 0 else 1)
  | 0x4100, 0x78 => some (match policerBinds s i with | b :: _ => b.1 / 256 | [] => 0xFF)
  | 0x4800, 0x05 => some (s.gateCycle i)
  | 0x7000, 0x01 => some s.t1Bytes
  | 0x7000, 0x02 => some s.t2Bytes
  | 0x7300, 0x15 => some (poolUsers s i)
  | 0x7600, 0x11 => some (s.tmplUsers n)
  | 0x7500, 0x01 => some (activeSeqs s).length
  | 0x7500, 0x02 => some (dedup ((activeSeqs s).flatMap s.seqPages)).length
  | 0x7500, 0x03 => some (sumBy (fun j => s.get (E.sequence_length.h j)) (activeSeqs s))
  | 0x8000, 0x01 => some s.ft
  | 0x8000, 0x02 => some s.time.step
  | 0x8000, 0x11 => some s.pendingActs
  | 0x9000, 0x0C => some (shedCapOf s.part)
  | 0xA800, 0x01 => some s.pinLevel
  | 0xC000, 0x06 => some s.snaps.length
  | _, _ => none

/-- The entries that `derived` computes. -/
def derivedEnts : List Ent :=
  [E.device_part, E.device_serial, E.coord_set, E.handle_limit, E.bripol_length, E.bripol_crc, E.millrace_launch_count, E.millrace_launch_record,
   E.bundle_members_up, E.bundle_weight, E.rsv_shared_cells, E.queue_credit, E.queue_gate_open, E.policer_state,
   E.policer_die, E.gate_cycle, E.mem_t1_bytes, E.mem_t2_bytes, E.pool_users, E.seqtemplate_users,
   E.holdings_sequences, E.holdings_pages, E.holdings_tokens, E.ft_now, E.ft_step, E.ft_pending, E.pwr_shed_cap,
   E.fault_pin_level, E.snap_pending]

/-- What an entry that is not a DOMAIN reads (repeat n, subindex offset k, handle slot i). -/
def State.value (s : State) (e : Ent) (n k i : Nat) : Nat :=
  match unfittedValue s.part (e.idx + n) (e.sub + k * e.subStep) with
  | some v => v
  | none => (s.derived e n k i).getD (s.get (e.loc n k i 0))

/-- The length of a DOMAIN entry (R32): what its chapter gives. -/
def State.domLen (s : State) (e : Ent) (i : Nat) : Nat :=
  if e = E.bripol_data then s.bripol.length
  else if e = E.collective_dispatch_map then
    s.memberCount i * s.get (E.collective_rows.h i) * s.get (E.collective_topk.h i) * 12
  else if e = E.weir_schedule then 96 * s.get E.weir_slots.s
  else e.len

/-- The bytes lo to lo + len − 1 of a DOMAIN entry. -/
def State.domBytes (s : State) (e : Ent) (n i lo len : Nat) : List Byte :=
  if e = E.bripol_data then slice s.bripol lo len
  else if e = E.attr_table then
    (List.range len).map fun j => ((attrBytes s.attr ((lo + j) / 64)).getD ((lo + j) % 64) 0)
  else if e = E.quota_count then
    (List.range len).map fun j => BitVec.ofNat 8 (s.countIn (n + 1) ((lo + j) / 4) / 256 ^ ((lo + j) % 4))
  else if e = E.bridge_vlan_table then (List.range len).map fun j => BitVec.ofNat 8 (s.vlanByte (lo + j))
  else (List.range len).map fun j => BitVec.ofNat 8 (s.dom e n i (lo + j))

/-- Has an entry a snapshot shadow (R450): every counter, every numeric status value, the collective histogram and its
run, and the attribution table? Sticky and configuration entries have none. -/
def Ent.shadowed (e : Ent) : Bool :=
  (e.cls == .counter) ||
  (e.cls == .status && e.ty != .octets && e.ty != .domain && e != E.pool_alloc && e != E.trace_next) ||
  e == E.collective_histogram || e == E.collective_histogram_run || e == E.attr_table

/-- The repeat and subindex offset of an index and subindex within an entry's record. -/
def Ent.place (e : Ent) (idx sub : Nat) : Nat × Nat := (idx - e.idx, (sub - e.sub) / max 1 e.subStep)

/-- The instances of an entry: its handle slots that are live, or the one of a static entry. -/
def State.instances (s : State) (e : Ent) : List Nat :=
  if !e.tmpl then [0]
  else
    let t := typeOfTemplate e.idx
    if t = 4 then
      if 0x70 ≤ e.sub then s.liveIdx 4
      else s.portList.flatMap fun n => (List.range 16).map (qSlot n)
    else s.liveIdx t

end Sys2Proof.Machine
end

