-- ==== Sys2Proof/Machine/Snapshot.lean ====
section
/-!
DEFINITION. Snapshots: the capture, the shadows and the clearing (spec/16_counters_histograms_archive.md, R449 to R452).
-/

namespace Sys2Proof.Machine

/-- The stored entries that a capture takes, with the increments of the firing cycle taken out (R450, R452, R38).
DEDUCED (log 131). -/
def State.capStored (s : State) : NMap Nat :=
  s.cat.filterMap fun p =>
    match entOf (p.1 / 2 ^ 60) (p.1 / 2 ^ 52 % 256) with
    | some e =>
      if !e.shadowed then none
      else if e.cls == .counter then some (p.1, (p.2 + 2 ^ 64 - mgetD s.cyc.incs p.1 0) % 2 ^ 64)
      else some p
    | none => none

/-- The computed entries that a capture takes (R450). -/
def State.capDerived (s : State) : List (Nat × Nat) :=
  (derivedEnts.filter (·.shadowed)).flatMap fun e =>
    (List.range e.rep).flatMap fun n => (List.range e.subN).flatMap fun k => (s.instances e).map fun i =>
      ((e.loc n k i 0).key, s.value e n k i)

/-- The keys of every live handle, queue flow handles included. -/
def State.liveKeys (s : State) : List Nat :=
  mkeys s.hs.live ++ (s.portList.flatMap fun n => (List.range 16).map fun q => 4 * 2 ^ 20 + qSlot n q)

/-- The attribution table without what events of this cycle counted (R87). -/
def attrBefore (m : NMap AttrRec) (l : List AttrRec) : NMap AttrRec :=
  l.foldl (fun m d => mmod m (attrSlot m d.part d.layer d.op) (attrBlank 0 0 0) fun r => r.minus d) m

/-- The cleared attribution table with what events of this cycle counted (R87, R452). -/
def attrAgain (m : NMap AttrRec) (l : List AttrRec) : NMap AttrRec :=
  l.foldl (fun m d => mmod m (attrSlot m d.part d.layer d.op) (attrBlank 0 0 0) fun r => r.plus d) m

/-- A counter entry cleared on the firing cycle: the increments of that cycle remain (R452). -/
def State.snapClear (s : State) : State :=
  { s with
    cat := s.cat.map fun p =>
      match entOf (p.1 / 2 ^ 60) (p.1 / 2 ^ 52 % 256) with
      | some e => if e.cls == .counter then (p.1, mgetD s.cyc.incs p.1 0) else p
      | none => p
    attr := attrAgain (s.attr.map fun p => (p.1, attrBlank p.2.part p.2.layer p.2.op)) s.cyc.attrs }

/-- SNAPSHOT_FIRE (R450, R452): the capture on the firing cycle, and the clearing after it.
DESIGN CHOICE (log 4); DEDUCED (log 131). -/
def snapshotFire (s : State) : State :=
  if !s.isDue .snap then s
  else
    let cap := s.capDerived.foldl (fun (m : NMap Nat) p => mput m p.1 p.2) s.capStored
    let rest := match s.sched.find? (fun a => a.kind == .snap) with
      | some a => s.sched.erase a
      | none => s.sched
    let s := { s with
      sched := rest
      snap := { s.snap with cap := some cap, capAttr := attrBefore s.attr s.cyc.attrs, capLive := s.liveKeys, capFt := s.ft, lastFt := some s.ft } }
    if s.getB E.snap_clear.s then s.snapClear else s

/-- SNAPSHOT_SHADOW_READY (R450): the capture reaches the shadows, and `snap.seq` advances. -/
def snapshotReady (s : State) : State :=
  match s.snap.cap with
  | none => s
  | some m =>
    let s := { s with snap := { s.snap with
      cap := none, shadow := m, attr := s.snap.capAttr, live := s.snap.capLive, taken := true } }
    (s.set E.snap_seq.s ((s.get E.snap_seq.s + 1) % 2 ^ 32)).set E.snap_ft.s s.snap.capFt

/-- What an entry that is not a DOMAIN shows in view mode (R451). -/
def State.viewValue (s : State) (e : Ent) (n k i : Nat) : Nat :=
  if s.snap.taken && e.shadowed then
    (unfittedValue s.part (e.idx + n) (e.subAt k)).getD (mgetD s.snap.shadow (e.loc n k i 0).key (e.loc n k i 0).dflt)
  else s.value e n k i

/-- What bytes of a DOMAIN entry show in view mode (R451). -/
def State.viewBytes (s : State) (e : Ent) (n i lo len : Nat) : List Byte :=
  if !(s.snap.taken && e.shadowed) then s.domBytes e n i lo len
  else if e = E.attr_table then
    (List.range len).map fun j => ((attrBytes s.snap.attr ((lo + j) / 64)).getD ((lo + j) % 64) 0)
  else
    (List.range len).map fun j =>
      let l := e.loc n 0 i (lo + j)
      BitVec.ofNat 8 (mgetD s.snap.shadow l.key l.dflt)

end Sys2Proof.Machine
end

