-- ==== Sys2Proof/Machine/Writes.lean ====
section
/-!
DEFINITION. What a write of an entry does once its item checks have passed (R55 steps 8 and 9): one hook per entry that its
chapter gives a rule of its own, the created-state rule of R39 for handle fields, and the same-cycle rules of R38.
-/

namespace Sys2Proof.Machine

/-- Who makes a request: role, partition (4,096 for none), the owner of its transactions (session, or port of an implicit
session, R601), the transport, and whether the write is staged in a transaction. -/
structure Who where
  role : Nat
  part : Nat
  owner : Nat
  via : Transport
  inTx : Bool
deriving DecidableEq, Repr

/-- May the configuration fields of handle i of type t be written (R39, and the exceptions of R196, R211, R228, R390,
R453)? -/
def cfgState (s : State) (t i : Nat) (e : Ent) : Bool :=
  if t = 1 then s.get (E.collective_state.h i) == 0 || e == E.collective_laggard_timeout
  else if t = 2 then s.get (E.sequence_state.h i) == 0
  else if t = 3 then s.get (E.pool_state.h i) == 0 || e == E.pool_low_water
  else if t = 5 then s.get (E.spring_state.h i) == 0
  else if t = 6 then s.get (E.gauge_state.h i) == 0
  else if t = 7 then s.get (E.trace_state.h i) == 0 || s.get (E.trace_state.h i) == 3
  else if t = 8 then s.get (E.window_state.h i) == 0
  else if t = 9 then s.get (E.gate_state.h i) == 0
  else if t = 10 then s.get (E.template_state.h i) == 0
  else true

/-- A status from a test and the state where it passes. -/
def gate (bad : Bool) (st : Nat) (s s' : State) : Nat × State := if bad then (st, s) else (0, s')

/-- A write that 1 carries out and 0 leaves without effect. -/
def onOne (v : Nat) (s : State) (r : Nat × State) : Nat × State := if v = 0 then (0, s) else r

/-- Is a bundle's member list acceptable (R5, R148)? DEDUCED (log 159). -/
def bundleOk (s : State) (b : Nat) : Bool :=
  let ms := ((List.range 32).map fun i => s.member b i).filter fun n => n != 0xFFFF
  let roles := ms.map fun n => s.get (E.port_role.n n)
  ms.all (fun n => decide (n < 1024) && laneFitted s.part n) && (dedup ms).length == ms.length &&
  !(ms.any fun n => (List.range 1024).any fun c => c != b && (List.range 32).any fun i => s.member c i == n) &&
  (roles.all (fun r => r == 3) || roles.all (fun r => r != 3)) &&
  (s.get (E.tunnel_dst.n b) == 0 || roles.all (fun r => r == 3))

/-- Writes of fabric time, Millrace and bridge entries. -/
def writeTime (s : State) (e : Ent) (n v : Nat) : Option (Nat × State) :=
  match e.idx, e.sub with
  | 0x8000, 0x0D => some (localSet s v)
  | 0x8000, 0x13 => some (launchAt s v)
  | 0x8000, 0x15 => some (onOne v s (0, launchCancel s))
  | 0x2800, 0x01 => some (roleWrite s n v)
  | 0x2800, 0x02 => some (loopbackWrite s n v)
  | 0x2800, 0x03 => some (0, txSleepWrite s n v)
  | 0x2800, 0x05 => some (mrPrbsWrite s n v)
  | 0x2800, 0x06 => some (onOne v s (sendWake s n))
  | _, _ => none

/-- Is an entry one of a port's, of a lane that starts no port (R129, R137, R222)? Only `port.width` is written there. -/
def noPort (s : State) (e : Ent) (n : Nat) : Bool :=
  (e.idx == 0x2000 || e.idx == 0x4C00) && !s.isPort n && e != E.port_width

/-- Writes of port entries (R129, R137, R222). -/
def writePort (s : State) (e : Ent) (n k v : Nat) : Option (Nat × State) :=
  let l := e.loc n k 0 0
  if e.idx ≠ 0x2000 ∧ e.idx ≠ 0x4C00 then none
  else
    match e.idx, e.sub with
    | 0x2000, 0x01 => some (widthWrite s n v)
    | 0x2000, 0x02 => some (modeWrite s n v)
    | 0x2000, 0x03 => some (portRoleWrite s n v)
    | 0x2000, 0x04 => some (fecWrite s n v)
    | 0x2000, 0x05 => some (0, anWrite s n v)
    | 0x2000, 0x09 => some (onOne v s (restoreWrite s n))
    | 0x2000, 0x0C => some (0, loopWrite s n l v)
    | 0x2000, 0x0D => some (0, loopWrite s n l v)
    | 0x2000, 0x0E => some (0, (s.set l v).later (.controlClose n))
    | 0x2000, 0x0F => some (0, (s.set l v).later (.controlClose n))
    | 0x2000, 0x10 => some (mtuWrite s n v)
    | 0x4C00, 0x0F =>
      let was := s.get l
      let s' := (s.touchPort n).set l v
      some (0, s'.modTx n fun t => if was = 0 ∧ v ≠ 0 then { t with credit := (s.get (E.sched_port_burst.n n) * 65536 : Nat), rem := 0 } else t)
    | 0x4C00, 0x10 =>
      let s' := (s.touchPort n).set l v
      some (0, s'.modTx n fun t => { t with credit := min t.credit (v * 65536 : Nat) })
    | _, _ => none

/-- Writes of bundle, Rill, Reservoir and tunnel entries. DEDUCED (log 78). -/
def writeSwitch (s : State) (e : Ent) (n k v : Nat) : Option (Nat × State) :=
  let l := e.loc n k 0 0
  let s' := s.set l v
  match e.idx, e.sub with
  | 0x3000, 0x01 => some (gate (!bundleOk s' n) 0x06 s (s'.membersSet n (s.members n)))
  | 0x3C00, 0x01 => some (gate (!bundleOk s' n) 0x06 s s')
  | 0x4000, 0x01 => some (windowRegionWrite s v)
  | 0x4000, 0x03 => some (minCellsWrite s l v none)
  | 0x4000, 0x04 => some (gate (decide (v < s.get E.rsv_red_limit.s)) 0x06 s s')
  | 0x4000, 0x05 => some (gate (decide (s.get E.rsv_yellow_limit.s < v)) 0x06 s s')
  | 0x4000, 0x06 => some (0, redSeedWrite s v)
  | 0x4000, 0x20 => some (0, planeEnableWrite s v)
  | 0x4020, 0x01 => some (minCellsWrite s l v none)
  | 0x4200, 0x01 => some (gate (decide (s.get (E.red_max.nk n k) ≤ v)) 0x06 s s')
  | 0x4200, 0x02 => some (gate (decide (v ≤ s.get (E.red_min.nk n k))) 0x06 s s')
  | _, _ => none

/-- Writes of queue and policer fields (R190, R206, R209, R211). DEDUCED (log 78). -/
def writeFlow (s : State) (e : Ent) (i v : Nat) : Option (Nat × State) :=
  let l := e.h i
  let s' := s.set l v
  let n := i / 16
  let q := i % 16
  match e.idx, e.sub with
  | 0x4100, 0x30 => some (minCellsWrite s l v (some i))
  | 0x4100, 0x02 =>
    let was := s.get l
    let t := (s.touchQ n q).set l v
    some (0, t.modQ n q fun r => if was = 0 ∧ v ≠ 0 then { r with credit := (s.get (E.queue_burst.h i) * 65536 : Nat), rem := 0 } else r)
  | 0x4100, 0x03 =>
    let t := (s.touchQ n q).set l v
    some (0, t.modQ n q fun r => { r with credit := min r.credit (v * 65536 : Nat) })
  | 0x4100, 0x70 => some (gate (decide (s.get (E.policer_pir.h i) < v)) 0x06 s s')
  | 0x4100, 0x72 => some (gate (decide (v < s.get (E.policer_cir.h i))) 0x06 s s')
  | 0x4100, 0x71 => some (0, policerCut s' i)
  | 0x4100, 0x73 => some (0, policerCut s' i)
  | _, _ => none

/-- Writes of gate schedule fields (R214, R217, R218). -/
def writeGate (s : State) (e : Ent) (i v : Nat) : Option (Nat × State) :=
  match e.idx, e.sub with
  | 0x4800, 0x03 => let s' := s.set (e.h i) v; some (gate (!gateListOk s' i) 0x06 s s')
  | 0x4800, 0x06 => some (gateStart s i v)
  | 0x4800, 0x07 => some (gateSwitchAt s i v)
  | 0x4800, 0x08 => some (onOne v s (gateStop s i))
  | _, _ => none

/-- COLLECTIVE_ARM with the conditions of other chapters: a re-cabling window (R559), a gated Confluence domain (R525). -/
def armWrite (s : State) (i v : Nat) : Nat × State :=
  if v ≠ 0 ∧ recableBlocks s i then (0x0C, s) else collectiveArm s i v

/-- Writes of collective fields (R226, R230, R264). DEDUCED (log 90). -/
def writeColl (s : State) (e : Ent) (i v : Nat) : Option (Nat × State) :=
  let s' := s.set (e.h i) v
  let fmt := gate (!collFmtOk (s'.collOp i) (s'.collIn i) (s'.collOut i)) 0x06 s s'
  match e.idx, e.sub with
  | 0x5210, 0x02 => some (if collPairOk (s'.collTy i) v then fmt else (0x06, s))
  | 0x5210, 0x06 => some fmt
  | 0x5210, 0x07 => some fmt
  | 0x5210, 0x11 => some (gate (v == 1 && (s'.collTy i != 5 || !(s'.collPeers i).isEmpty)) 0x06 s s')
  | 0x5210, 0x1E => some (armWrite s i v)
  | 0x5210, 0x1F => some (collectiveDisarm s i v)
  | _, _ => none

/-- The answer of a write whose response waits for what it started (R409). It leaves the block as no status. -/
def waitCode : Nat := 0x100

/-- Writes of memory, pool, sequence and template entries. -/
def writeMem (s : State) (e : Ent) (n k i v : Nat) : Option (Nat × State) :=
  match e.idx, e.sub with
  | 0x7000, 0x03 => some (millWindowWrite s v)
  | 0x7100, 0x05 => some (windowOpenWrite s i v)
  | 0x7010, 0x01 => some (0, cxlEnable s n v)
  | 0x7010, 0x03 => some (cxlResume s n v)
  | 0x7010, 0x04 => some (0, cxlInvalidate s n v)
  | 0x7300, 0x08 => some (poolEnable s i v)
  | 0x7300, 0x0A => some (poolFree s i v)
  | 0x7300, 0x0B => some (poolShare s i v)
  | 0x7400, 0x05 => some (sequenceReserve s i v)
  | 0x7400, 0x06 => some (sequenceLength s i v)
  | 0x7400, 0x04 => let r := sequenceActivate s i v; some (if r.2.1 then waitCode else r.1, r.2.2)
  | 0x7600, _ => some (seqTemplateWrite s n (e.loc n k 0 0) v)
  | _, _ => none

/-- Writes of Weir, lock-step, snapshot and Archive entries. -/
def writeWeir (s : State) (w : Who) (e : Ent) (i v : Nat) : Option (Nat × State) :=
  let s' := s.set (e.loc 0 0 i 0) v
  match e.idx, e.sub with
  | 0x8100, 0x01 => some (0, weirClockMode s v)
  | 0x8100, 0x03 => some (if !scheduleOk s' then (0x06, s) else gate (s.get E.weir_state.s != 0 && !w.inTx) 0x0C s (s.weirNote.set (e.loc 0 0 i 0) v))
  | 0x8100, 0x04 => some (weirEngines s v)
  | 0x8100, 0x05 => some (weirMills s v)
  | 0x8100, 0x08 => some (weirStart s v)
  | 0x8100, 0x09 => some (weirStartOnLaunch s v)
  | 0x8100, 0x0A => some (0, weirStop s v)
  | 0x8200, 0x03 => some (lockstepStart s v)
  | 0x8200, 0x04 => some (lockstepStartOnLaunch s v)
  | 0x8200, 0x05 => some (0, lockstepStop s v)
  | 0xC000, 0x01 => some (snapAt s v)
  | 0xC000, 0x03 =>
    some (0, s.modMgmt fun m =>
      if w.owner < 2 ^ 32 then { m with sessions := m.sessions.map fun x => if x.id = w.owner then { x with snapView := v != 0 } else x }
      else { m with views := if v = 0 then m.views.filter (· != w.owner) else dedup (w.owner :: m.views) })
  | 0xC200, 0x03 => some (0, attrReset s v)
  | 0xC800, 0x02 => some (gate (bitAt v 0) 0x06 s (s.set (e.h i) (v ||| 0x300)))
  | 0xC800, 0x0A => some (traceOpenAt s i v)
  | 0xC800, 0x0B => some (traceCloseAt s i v)
  | _, _ => none

/-- Writes of Spring and Gauge fields. -/
def writeSpring (s : State) (e : Ent) (i v : Nat) : Option (Nat × State) :=
  match e.idx, e.sub with
  | 0xD100, 0x0F => some (springStart s i v)
  | 0xD100, 0x10 => some (springBind s i v)
  | 0xD100, 0x11 => some (springStop s i v)
  | 0xD400, 0x0A => some (0, gaugeEnable s i v)
  | _, _ => none

/-- Writes of host, firmware, security and communication entries. -/
def writeHost (s : State) (w : Who) (e : Ent) (n v : Nat) : Option (Nat × State) :=
  let l := e.loc n 0 0 0
  let key := fun (b : Nat) => some (0, (s.set l v).set E.sec_keys_set.s (setBitAt (s.get E.sec_keys_set.s) b))
  match e.idx, e.sub with
  | 0x1010, 0x02 => some (lcAdvance s w.role v)
  | 0xE100, 0x02 => some (0, fwVerify s v)
  | 0xE100, 0x04 => some (fwActivate s v)
  | 0xE100, 0x06 => some (0, fwCommit s v)
  | 0x1300, 0x05 => some (0, mctpRestart s v)
  | 0x1320, 0x04 => some (0, hringEnable s n v)
  | 0xE000, 0x01 => key 0
  | 0xE000, 0x02 => key 1
  | 0xE000, 0x03 => key 2
  | _, _ => none

/-- Writes of fault entries (R504, R506, R509, R513). -/
def writeFault (s : State) (e : Ent) (n v : Nat) : Option (Nat × State) :=
  let l := e.loc n 0 0 0
  match e.idx, e.sub with
  | 0xA000, 0x01 => some (if sourceKnown n then (0, (s.noteOld l).set l v) else (0x06, s))
  | 0xA000, 0x02 =>
    some (if !sourceKnown n ∨ (bitAt v 2 ∧ (unitOf n).isNone) then (0x06, s) else (0, ((s.noteOld l).set l v).pinTrack))
  | 0xA800, 0x03 => some (onOne v s (faultPinRearm s v))
  | 0xF0A0, 0x01 => some (faultInject s v)
  | _, _ => none

/-- Writes of power, self-test, rack and coordinate entries. -/
def writePower (s : State) (e : Ent) (n v : Nat) : Option (Nat × State) :=
  let l := e.loc n 0 0 0
  match e.idx, e.sub with
  | 0x9000, 0x01 => some (s.pwrRequest v)
  | 0x9000, 0x02 =>
    let ft := v % 2 ^ 64
    let target := v / 2 ^ 64 % 256
    some (if 3 < target ∨ v / 2 ^ 72 ≠ 0 then (0x06, s) else pwrEnterAt s ft target)
  | 0x9100, 0x03 => some (pwrDomRequest s n v)
  | 0x9100, 0x04 => some (onOne v s (pwrDomRetry s n v))
  | 0xB000, 0x01 => some (stShutdown s v)
  | 0xB010, 0x01 => some (scanWrite s l v)
  | 0xB010, 0x02 => some (scanWrite s l v)
  | 0x1021, 0x01 => some (rackResetAt s v)
  | 0x1028, 0x02 => some (recableOpenAt s v)
  | 0x1028, 0x03 => some (onOne v s (recableClose s v))
  | _, _ => none

/-- The value of a sticky entry after a clearing write: bits that hardware sets on this cycle stay (R38). Raises of a fault
source on this cycle while its bit was set become settings (R503). -/
def clearSticky (s : State) (l : Loc) (e : Ent) (n v : Nat) : State :=
  let cur := s.get l
  let gone := cur &&& v
  let hw := mgetD s.cyc.sticky l.key 0
  let s := s.set l (bitsMinus cur (bitsMinus gone hw))
  if e = E.fault_sticky then
    let s := s.pinTrack
    let again := (bitList 64 gone).filter fun k => s.cyc.again.contains (64 * n + k)
    let srcs := again.map fun k => 64 * n + k
    if srcs = [] then s
    else
      let s := { s with cyc := { s.cyc with again := s.cyc.again.filter fun x => !srcs.contains x } }
      let s := srcs.foldl (fun st src => st.inc (E.fault_sets.n src) 1) s
      let (s, lost) := s.react srcs
      if lost then s.raise 643 else s
  else s

/-- Is the entry a request on a handle's state, which a hardware transition of the same cycle turns away (R38, R229)? -/
def stateRequest (e : Ent) : Bool :=
  e.tmpl && (e.acc == .wo || e == E.sequence_activate || e == E.sequence_reserve || e == E.sequence_length) &&
  e != E.pool_free && e != E.pool_share

/-- The rule that a chapter gives the write of an entry, if one does: the status and the state. -/
def writeHook (s : State) (w : Who) (e : Ent) (n k i v : Nat) : Option (Nat × State) :=
  let r := ((writeTime s e n v).or (writePort s e n k v)).or ((writeSwitch s e n k v).or (writeFlow s e i v))
  let r := (r.or (writeGate s e i v)).or ((writeColl s e i v).or (writeMem s e n k i v))
  let r := (r.or (writeWeir s w e i v)).or ((writeSpring s e i v).or (writeHost s w e n v))
  (r.or (writeFault s e n v)).or (writePower s e n v)

/-- Is a field locked in the present state of its handle (R39), or an entry of a lane that starts no port (R137)? -/
def locked (s : State) (e : Ent) (n i : Nat) : Bool :=
  noPort s e n ||
  (e.tmpl && e.acc == .rw && e != E.sequence_reserve && e != E.sequence_length && !cfgState s (typeOfTemplate e.idx) i e)

/-- Does a value set a bit of `fault.sticky` that no source has (R16, R502)? -/
def stickyReserved (e : Ent) (n v : Nat) : Bool :=
  e == E.fault_sticky && (bitList 64 v).any fun k => !sourceKnown (64 * n + k)

/-- What a write of an entry does by the general rules of its class, or by the rule of its chapter: the status and the state. -/
def writeRule (s : State) (w : Who) (e : Ent) (n k i v : Nat) : Nat × State :=
  let l := e.loc n k i 0
  if e.acc == .w1c then gate (stickyReserved e n v) 0x06 s (clearSticky s l e n v)
  else if e.cls == .counter then (0, s.set l ((v + mgetD s.cyc.incs l.key 0) % 2 ^ 64))
  else
    let (st, s') := (writeHook s w e n k i v).getD (0, if e.acc == .wo then s else s.set l v)
    (st, { s' with cyc := { s'.cyc with touched := s.cyc.touched } })

/-- The last three checks of R55 on what the rule of an entry answers: the value (step 7), the state (step 8), a hardware
transition on the same cycle (step 9). -/
def lastChecks (s : State) (r : Nat × State) (lock conflict : Bool) : Nat × State :=
  if r.1 = 0x06 then r
  else if lock then (0x0C, s)
  else if conflict ∧ (r.1 = 0 ∨ r.1 = waitCode) then (0x09, s)
  else r

/-- Does a request meet a hardware transition of its handle on the same cycle (R38)? -/
def sameCycle (s : State) (e : Ent) (i : Nat) : Bool :=
  stateRequest e && s.cyc.touched.contains (typeOfTemplate e.idx * 2 ^ 20 + i)

/-- A write of an entry that is not a DOMAIN, its item checks passed up to its range: the status and the state.
DEDUCED (log 20, 32, 38). -/
def writeValue (s : State) (w : Who) (e : Ent) (n k i v : Nat) : Nat × State :=
  lastChecks s (writeRule s w e n k i v) (locked s e n i) (sameCycle s e i)

/-- The MAC slots that a write of bytes touches. -/
def macSlots (lo len : Nat) : List Nat := (List.range ((lo % 16 + len + 15) / 16)).map (· + lo / 16)

/-- The addresses that MAC slots hold are not learnt on this core cycle (R122): software writes them. -/
def State.macNote (s : State) (slots : List Nat) : State :=
  let recs := s.macTable.filter fun r => slots.contains r.slot
  { s with macWritten := recs.map (fun r => (r.mac, r.vlan)) ++ s.macWritten }

/-- The MAC table after a write of bytes: what was written, and the count of entries in use (R122, R139). -/
def macSync (s : State) (lo len : Nat) : State :=
  let slots := macSlots lo len
  let s := s.macNote slots
  let s := { s with macSeen := slots.foldl (fun (m : NMap Nat) x => mput m x s.ft) s.macSeen }
  s.set E.bridge_mac_count.s s.macTable.length

/-- What a write of bytes of a DOMAIN entry does by the rule of its chapter: the status and the state. -/
def bytesRule (s : State) (w : Who) (e : Ent) (n i off : Nat) (b : List Byte) : Nat × State :=
  let s' := s.domPut e n i off b
  if e = E.bridge_mac_table then (0, macSync ((s.macNote (macSlots off b.length)).domPut e n i off b) off b.length)
  else if e = E.template_descriptor then gate (s'.tmplOk (s'.tmplDesc i) != 0) (s'.tmplOk (s'.tmplDesc i)) s s'
  else if e = E.policer_bind then gate (!bindOk s') 0x06 s s'
  else if e = E.gate_list then gate (!gateListOk s' i) 0x06 s s'
  else if e = E.collective_members then gate (!membersOk s' (s'.collMembers i)) 0x06 s s'
  else if e = E.collective_dispatch_map then mapWrite s i off b
  else if e = E.weir_partitions then gate (!weirPartsOk s s') 0x0C s s'
  else if e = E.weir_schedule then
    if !scheduleOk s' then (0x06, s) else gate (s.get E.weir_state.s != 0 && !w.inTx) 0x0C s (s.weirNote.domPut e n i off b)
  else if e = E.lockstep_ports then gate (!lockPortsOk s') 0x06 s s'
  else if e = E.fw_image then (0, fwImageWrite s off b)
  else if e = E.recable_ports then gate (!recableWritable s) 0x0C s s'
  else (0, s')

/-- A write of bytes of a DOMAIN entry, its item checks passed (R32 and the rules of its chapter). -/
def writeBytes (s : State) (w : Who) (e : Ent) (n i off : Nat) (b : List Byte) : Nat × State :=
  let map := e == E.collective_dispatch_map && (s.get (E.collective_state.h i) == 1 || s.mapBusy i)
  lastChecks s (bytesRule s w e n i off b) (e.tmpl && !map && !cfgState s (typeOfTemplate e.idx) i e) false

end Sys2Proof.Machine
end

