-- ==== Sys2Proof/Machine/Catalogue.lean ====
section
/-!
DEFINITION. The Catalogue's item checks, reads, creation and destruction of handles, and transactions
(spec/02_catalogue.md, R31 to R56).
-/

namespace Sys2Proof.Machine

/-! ### The checks of an item (R55) -/

/-- Step 1 of R55: the entry exists and is fitted, the reserved fields are zero, and a handle is named just where the index
is a template index. DEDUCED (log 39, 40). -/
def existsOk (s : State) (it : Item) (write : Bool) : Bool :=
  let found :=
    if it.sub = 0 then !(decide (0xA400 ≤ it.index) && decide (it.index < 0xA410)) && (highestSub it.index).isSome
    else (entOf it.index it.sub).isSome
  let fit := fitted s.part it.index || (!write && (unfittedValue s.part it.index it.sub).isSome)
  let unfitSensor := write && (unfittedValue s.part it.index it.sub).isSome
  let t := typeOfTemplate it.index
  let flow := decide (t ≠ 4 ∨ it.sub = 0) || (decide (16384 ≤ hIdx it.handle) == decide (0x70 ≤ it.sub))
  found && fit && !unfitSensor && it.flags / 4 == 0 && it.rsv == 0 && (decide (t = 0) == decide (it.handle = 0)) && flow

/-- Is a handle visible to the requester (R36)? -/
def visible (w : Who) (r : HRec) : Bool := w.role != 3 || r.part == w.part

/-- Steps 1 to 4 of R55: existence, the handle, its generation, the right. A queue handle of a lane that is not fitted is a
bad handle, as R41 says of it, where R5 has 0x06. DEDUCED (log 20, 163). -/
def itemGate (s : State) (w : Who) (it : Item) (write : Bool) (need : Nat) : Nat :=
  if !existsOk s it write then 0x06
  else
    let t := typeOfTemplate it.index
    let h : Nat :=
      if t = 0 then 0
      else if hType it.handle ≠ t then 0x03
      else match s.liveAt t (hIdx it.handle) with
        | none => 0x03
        | some r => if !visible w r then 0x03 else if r.gen ≠ hGen it.handle then 0x04 else 0
    if h ≠ 0 then h
    else if it.sub ≠ 0 ∧ rightOf s w.role it.index it.sub < need then 0x05 else 0

/-- Is the value in the range of the entry (R32)? DEDUCED (log 161). -/
def Rng.ok (r : Rng) (v : Nat) : Bool :=
  match r with
  | .any => true
  | .range lo hi => decide (lo ≤ v) && decide (v ≤ hi)
  | .oneOf l => l.contains v
  | .mult lo hi m => decide (lo ≤ v) && decide (v ≤ hi) && v % max 1 m == 0
  | .pow2 lo hi => decide (lo ≤ v) && decide (v ≤ hi) && v == 2 ^ Nat.log2 v
  | .orElse x lo hi m => v == x || (decide (lo ≤ v) && decide (v ≤ hi) && v % max 1 m == 0)

/-! ### Holding a request (R392, R526, R527) -/

/-- Do a sequence's pools lie on a stack in retention? -/
def seqRetained (s : State) (i : Nat) : Bool :=
  let t := s.seqTmpl i
  (s.get (E.seqtemplate_table_pool.n t) :: (List.range 8).map fun k => s.get (E.seqtemplate_page_pool.nk t k)).any fun h =>
    h != 0 && s.poolRetained (hIdx h)

/-- The wake source of a write that waits for a domain or a stack (R526, R527); none for one that runs. -/
def holdSrc (s : State) (w : Who) (e : Ent) (i v : Nat) : Option Nat :=
  if w.inTx then none
  else if e = E.collective_arm then (if v = 1 ∧ s.armHeld i then some 1 else none)
  else if e = E.weir_start then (if s.weirHeld then some 1 else none)
  else if e = E.weir_start_on_launch then (if v = 1 ∧ s.weirHeld then some 1 else none)
  else if e = E.pool_free ∨ e = E.pool_share then (if s.poolRetained i then some 2 else none)
  else if e = E.sequence_activate ∨ e = E.sequence_reserve then (if v ≠ 0 ∧ seqRetained s i then some 2 else none)
  else none

/-! ### READ and READ_BLOCK -/

/-- Is the requester's session in view mode (R451)? -/
def viewing (s : State) (w : Who) : Bool :=
  if w.owner < 2 ^ 32 then s.mgmt.sessions.any fun x => x.id == w.owner && x.snapView else s.mgmt.views.contains w.owner

/-- Is the field's handle one that was not live when the shadows were captured (R451)? -/
def notCaptured (s : State) (w : Who) (it : Item) : Bool :=
  viewing s w && s.snap.taken && it.handle != 0 && !s.snap.live.contains (hKey it.handle)

/-- READ of one entry (R32, R55): status, data, state. An RC read clears, `pool.alloc` allocates, `trace.next` takes the
oldest buffer. DEDUCED (log 38). -/
def readItem (s : State) (w : Who) (it : Item) : Nat × List Byte × State :=
  let st := itemGate s w it false 1
  if st ≠ 0 then (st, [], s)
  else if it.sub = 0 then (if it.data ≠ [] then (0x07, [], s) else (0, leBytes 1 ((highestSub it.index).getD 0), s))
  else
    match entOf it.index it.sub with
    | none => (0x06, [], s)
    | some e =>
      let (n, k) := e.place it.index it.sub
      let i := hIdx it.handle
      let l := e.loc n k i 0
      if e.ty = .domain ∨ it.data ≠ [] then (0x07, [], s)
      else if notCaptured s w it then (0x03, [], s)
      else if e.acc = .wo then (0, List.replicate e.len 0, s)
      else if e = E.snap_view then (0, leBytes 1 (boolNat (viewing s w)), s)
      else if e = E.pool_alloc then
        if s.poolRetained i then (waitCode, [], wakeEvent s 2)
        else match poolAlloc s i with
          | (.addr a, s) => (0, leBytes 8 a, s)
          | (.err x, s) => (x, [], s)
          | (.wait, s) => (waitCode, [], s)
      else if e = E.trace_next then let (v, s) := traceNext s i; (0, leBytes 8 v, s)
      else if viewing s w && s.snap.taken && e.shadowed then (0, leBytes e.len (s.viewValue e n k i), s)
      else if e.acc = .rc then
        let hw := mgetD s.cyc.incs l.key 0
        let keep := if e = E.pool_low_free then s.get (E.pool_free_count.h i) else hw
        (0, leBytes e.len ((s.get l + 2 ^ 64 - hw) % 2 ^ 64), s.set l keep)
      else (0, leBytes e.len (s.value e n k i), s)

/-- READ_BLOCK of a range of a DOMAIN entry (R32). -/
def readBlock (s : State) (w : Who) (it : Item) : Nat × List Byte :=
  let st := itemGate s w it false 1
  if st ≠ 0 then (st, [])
  else if it.sub = 0 then (0x07, [])
  else
    match entOf it.index it.sub with
    | none => (0x06, [])
    | some e =>
      let n := it.index - e.idx
      let i := hIdx it.handle
      let off := leAt it.data 0 4
      let len := leAt it.data 4 4
      if e.ty ≠ .domain ∨ it.data.length ≠ 8 then (0x07, [])
      else if len = 0 ∨ 3968 < len ∨ s.domLen e i < off + len then (0x06, [])
      else if notCaptured s w it then (0x03, [])
      else if e.acc = .wo then (0, List.replicate len 0)
      else if viewing s w then (0, s.viewBytes e n i off len)
      else (0, s.domBytes e n i off len)

/-! ### WRITE and WRITE_BLOCK -/

/-- Staged items of other transactions on an entry that a request wrote (R50). DEDUCED (log 31). -/
def State.dirtyEntry (s : State) (own : Nat) (it : Item) : State :=
  s.modMgmt fun m => { m with txs := m.txs.map fun x =>
    if x.id = own ∨ 1 < x.state then x
    else { x with items := x.items.map fun g =>
      if (g.op = 2 ∨ g.op = 4) ∧ g.item.index = it.index ∧ g.item.sub = it.sub ∧ g.item.handle = it.handle then
        { g with dirty := true } else g } }

/-- The checks of a write up to step 5 of R55, and the entry. -/
def writeGate5 (s : State) (w : Who) (it : Item) : Except Nat (Ent × Nat × Nat × Nat) :=
  let e? := entOf it.index it.sub
  let ro := it.sub == 0 || (match e? with | some e => e.readOnly | none => false)
  let st := itemGate s w it true (if ro then 1 else 2)
  if st ≠ 0 then .error st
  else if ro then .error 0x08
  else match e? with
    | none => .error 0x06
    | some e => let (n, k) := e.place it.index it.sub; .ok (e, n, k, hIdx it.handle)

/-- WRITE of one entry (R32, R55). DEDUCED (log 20). -/
def writeItem (s : State) (w : Who) (it : Item) : Nat × State :=
  match writeGate5 s w it with
  | .error st => (st, s)
  | .ok (e, n, k, i) =>
    let v := ofLe it.data
    if e.ty = .domain ∨ it.data.length ≠ e.len then (0x07, s)
    else if !e.rng.ok v then (0x06, s)
    else if w.inTx ∧ (e = E.pool_free ∨ e = E.pool_share) then (0x0C, s)
    else match holdSrc s w e i v with
      | some src => (waitCode, wakeEvent s src)
      | none => writeValue s w e n k i v

/-- WRITE_BLOCK of a range of a DOMAIN entry (R32). -/
def writeBlock (s : State) (w : Who) (it : Item) : Nat × State :=
  match writeGate5 s w it with
  | .error st => (st, s)
  | .ok (e, n, _, i) =>
    let off := leAt it.data 0 4
    let b := it.data.drop 4
    if e.ty ≠ .domain ∨ it.data.length < 4 then (0x07, s)
    else if s.domLen e i < off + b.length then (0x06, s)
    else writeBytes s w e n i off b

/-! ### CREATE (R42, R43) -/

/-- The lowest creatable index of a type (R41). -/
def firstIdx (t : Nat) : Nat := if t = 4 then 16384 else 0

/-- Is an index in quarantine (R44)? -/
def State.quarFt (s : State) (t i : Nat) : Option Nat :=
  match mget? s.hs.quar (t * 2 ^ 20 + i) with
  | some ft => if s.ft < ft then some ft else none
  | none => none

/-- May an index be created: not live, not in quarantine, not reserved by a transaction? -/
def State.freeIdx (s : State) (t i : Nat) : Bool :=
  (s.liveAt t i).isNone && (s.quarFt t i).isNone && (mget? s.hs.held (t * 2 ^ 20 + i)).isNone

/-- Every store key of a handle's fields goes: the handle has its template defaults (R42). -/
def State.clearFields (s : State) (t i : Nat) : State :=
  { s with cat := s.cat.filter fun p => ¬ (p.1 / 2 ^ 60 = templateIdx t ∧ p.1 / 2 ^ 32 % 2 ^ 20 = i) }

/-- A handle goes live (R42); a collective gets its engine (R232, R431), a policer full buckets (R209). DEDUCED (log 155). -/
def State.makeLive (s : State) (t i part : Nat) : State :=
  let s := s.clearFields t i
  let g := s.genOf t i
  let s := { s with hs := { s.hs with live := mput s.hs.live (t * 2 ^ 20 + i) ⟨g, part⟩ } }
  if t = 1 then
    let e := (s.engineFor part).getD 0
    (s.set (E.collective_engine.h i) e).add (E.confluence_engine_handles.k e) 1
  else if t = 4 then { s with qs := { s.qs with pol := mput s.qs.pol i (s.polFull i) } }
  else s

/-- The index that CREATE takes, or its status and response data (R42, R43). `own` is the handle that the request's own
transaction has reserved. The item's index, subindex, flag bits 7:2 and reserved bytes are not judged (R43 lists no such test).
DEDUCED (log 23, 24, 166). -/
def createPick (s : State) (w : Who) (it : Item) (own : Option Nat) : Except (Nat × List Byte) (Nat × Nat × Nat) :=
  let t := hType it.handle
  let named := bitAt it.flags 1 || hIdx it.handle != 0
  let idx := match own with | some h => hIdx h | none => hIdx it.handle
  let part := if w.role = 3 then w.part else ofLe it.data
  let lim := handleLimit t
  let slots := lim - firstIdx t
  let quota := s.domLe E.quota_limit (t - 1) 0 (4 * part) 4
  let quar := (s.hs.quar.filter fun p => p.1 / 2 ^ 20 == t && decide (s.ft < p.2)).map (·.2)
  if t = 0 ∨ 10 < t then .error (0x03, [])
  else if t = 4 ∧ named ∧ idx < 16384 then .error (0x0C, [])
  else if rightOf s w.role (templateIdx t) 1 < 2 then .error (0x05, [])
  else if it.data.length ≠ 2 then .error (0x07, [])
  else if 4095 < part then .error (0x06, [])
  else if hGen it.handle ≠ 0 ∧ !named then .error (0x06, [])
  else if named ∧ lim ≤ idx then .error (0x06, [])
  else if slots ≤ (s.liveIdx t).length then .error (0x02, [])
  else if (if quota = 0 then slots else quota) ≤ s.countIn t part then .error (0x02, [])
  else
    let pick : Except (Nat × List Byte) Nat :=
      if own.isSome then .ok idx
      else if named then
        if (s.liveAt t idx).isSome ∨ (mget? s.hs.held (t * 2 ^ 20 + idx)).isSome then .error (0x09, [])
        else match s.quarFt t idx with
          | some ft => .error (0x01, leBytes 8 ft)
          | none => .ok idx
      else
        match ((List.range lim).drop (firstIdx t)).find? (s.freeIdx t) with
        | some i => .ok i
        | none =>
          match minBy? id quar with
          | some ft => .error (0x01, leBytes 8 ft)
          | none => .error (0x02, [])
    match pick with
    | .error x => .error x
    | .ok i =>
      if s.ft < s.hs.openAt then .error (0x01, leBytes 8 s.hs.openAt)
      else if hGen it.handle ≠ 0 ∧ hGen it.handle ≠ s.genOf t i then .error (0x04, leBytes 1 (s.genOf t i))
      else if t = 1 ∧ (s.engineFor part).isNone then .error (0x02, [])
      else .ok (t, i, part)

/-- CREATE (R42, R43): status, response data, handle, state. DEDUCED (log 160). -/
def createItem (s : State) (w : Who) (it : Item) (own : Option Nat) : Nat × List Byte × Nat × State :=
  match createPick s w it own with
  | .error (st, d) => (st, d, it.handle, s)
  | .ok (t, i, part) => (0, [], mkHandle t (s.genOf t i) i, s.makeLive t i part)

/-! ### DESTROY (R47) -/

/-- May a handle be destroyed without force, as its chapter says? -/
def destroyable (s : State) (t i : Nat) : Bool :=
  if t = 1 then decide (s.get (E.collective_state.h i) < 2)
  else if t = 2 then s.get (E.sequence_holders.h i) == 0 && (mget? s.copying i).isNone
  else if t = 3 then poolUsers s i == 0 && s.poolBusy i == 0
  else if t = 4 then (policerBinds s i).isEmpty
  else if t = 5 then s.get (E.spring_state.h i) == 0 || s.get (E.spring_state.h i) == 4
  else if t = 7 then s.get (E.trace_state.h i) == 0 || s.get (E.trace_state.h i) == 3
  else if t = 8 then s.get (E.window_state.h i) == 0
  else if t = 9 then s.get (E.gate_state.h i) == 0
  else if t = 10 then s.get (E.template_state.h i) == 0
  else true

/-- What a destroyed handle leaves, and its index in quarantine with the next generation (R44, R47). -/
def destroyNow (s : State) (t i : Nat) : State :=
  let s :=
    if t = 1 then collDestroyed s i
    else if t = 2 then seqRelease s i
    else if t = 3 then { s with pools := mdel s.pools i }
    else if t = 4 then { s with qs := { s.qs with pol := mdel s.qs.pol i } }
    else if t = 5 then { s with spring := { s.spring with rt := mdel s.spring.rt i } }
    else if t = 6 then gaugeDestroyed s i
    else if t = 7 then traceDestroyed s i
    else if t = 9 then { s with qs := { s.qs with gate := mdel s.qs.gate i } }
    else s
  let key := t * 2 ^ 20 + i
  let s := s.clearFields t i
  let s := if s.mgmt.parked = [] then s else s.later .upkeep
  { s with
    ms := { s.ms with dying := if t = 8 then s.ms.dying.filter (· != i) else s.ms.dying }
    hs := { s.hs with
      gens := mput s.hs.gens key (nextGen (s.genOf t i))
      live := mdel s.hs.live key
      quar := mput s.hs.quar key (s.ft + quietNs) } }

/-- A collective is force-destroyed: its abort path, then the destruction (R231). -/
def forceColl (s : State) (i : Nat) : State := destroyNow (collForce s i) 1 i

/-- A sequence is force-destroyed: jobs that hold it end with 0x0B (R411). -/
def forceSeq (s : State) (i : Nat) : State :=
  destroyNow (s.abortJobs (fun j => j.seq == some i) 0x0B) 2 i

/-- A pool is force-destroyed (R399): its collectives, its sequences, its rings, streams and trace sessions, then itself. -/
def forcePool (s : State) (p : Nat) : State :=
  let s := ((s.liveIdx 1).filter fun c => (s.crt c).overBufs.any fun x => x.1 == p).foldl forceColl s
  let s := ((s.liveIdx 2).filter fun q => s.seqUsesPool q p).foldl forceSeq s
  let s := tracePoolLost (springPoolLost (ringPoolLost s p) p true) p true
  destroyNow s 3 p

/-- A template is force-destroyed (R325): the collectives that name it, the jobs that hold it, then itself. -/
def forceTmpl (s : State) (i : Nat) : State :=
  let names := fun (c : Nat) =>
    let e := s.get (E.collective_epilogue.h c)
    decide (1 ≤ s.get (E.collective_state.h c)) && e != 0 && hIdx e == i
  let s := ((s.liveIdx 1).filter names).foldl forceColl s
  destroyNow (s.abortJobs (fun j => j.tmpl == some i) 0x0B) 10 i

/-- A gate schedule is force-destroyed (R217): it stops, and with it the running list that an Armed one waits for. -/
def forceGate (s : State) (i : Nat) : State :=
  let n := s.get (E.gate_port.h i)
  let run := if s.get (E.gate_state.h i) = 3 then s.portGate n else none
  let s := match run with
    | some r => (gateStop s r).2
    | none => s
  let s := if s.get (E.gate_state.h i) = 0 then s else (gateStop s i).2
  destroyNow s 9 i

/-- A window is force-destroyed (R360, R388): its pools fail, it closes, its jobs end with 0x0B; it is destroyed at once
where nothing is outstanding, else at the end of Closing. DEDUCED (log 122). -/
def forceWindow (s : State) (i : Nat) : State :=
  let s := poolsWindowLost s i
  let s := if s.get (E.window_state.h i) = 1 then s.hset (E.window_state.h i) 8 i 2 else s
  let s := s.abortJobs (fun j => j.wins.contains i) 0x0B
  if s.winQuiet i then destroyNow s 8 i
  else { s with ms := { s.ms with dying := dedup (i :: s.ms.dying) } }

/-- DESTROY with force of handle i of type t: the owning chapter's abort path, then the destruction (R47). -/
def forceDestroy (s : State) (t i : Nat) : State :=
  if t = 1 then forceColl s i
  else if t = 2 then forceSeq s i
  else if t = 3 then forcePool s i
  else if t = 4 then destroyNow (unbindPolicer s i) 4 i
  else if t = 5 then destroyNow (springForce s i) 5 i
  else if t = 7 then destroyNow (traceForce s i) 7 i
  else if t = 8 then forceWindow s i
  else if t = 9 then forceGate s i
  else if t = 10 then forceTmpl s i
  else destroyNow s t i

/-- DESTROY (R47, R55): the response of a forced window waits for its Closing. DEDUCED (log 26, 27). -/
def destroyItem (s : State) (w : Who) (it : Item) : Nat × State :=
  let t := hType it.handle
  let i := hIdx it.handle
  if t = 4 ∧ it.index = 0x4100 ∧ i < 16384 then (if !existsOk s { it with sub := 0 } true then 0x06 else if w.role = 3 then 0x03 else 0x0C, s)
  else
    let st := itemGate s w it true 2
    if st ≠ 0 then (st, s)
    else if rightOf s w.role it.index 1 < 2 then (0x05, s)
    else if it.data ≠ [] then (0x07, s)
    else if destroyable s t i then (0, destroyNow s t i)
    else if !bitAt it.flags 0 then (0x0C, s)
    else
      let s := forceDestroy s t i
      (if s.ms.dying.contains i ∧ t = 8 then waitCode else 0, s)

/-- WINDOW_CLOSING_END (R358, R360). DEDUCED (log 122). -/
def windowClosingEnd (s : State) (i : Nat) : State :=
  if (s.liveAt 8 i).isNone ∨ s.get (E.window_state.h i) ≠ 2 ∨ !s.winQuiet i then s
  else if s.ms.dying.contains i then (destroyNow s 8 i).later .upkeep
  else s.hset (E.window_state.h i) 8 i 0

/-! ### Transactions (R49 to R51) -/

/-- One staged item applied: its status and the state. A handle that a staged CREATE reserved is the one it makes. -/
def applyStaged (s : State) (w : Who) (g : Staged) : Nat × State :=
  let own := if g.made = 0 then none else some g.made
  let (st, s) :=
    if g.op = 2 then writeItem s w g.item
    else if g.op = 4 then writeBlock s w g.item
    else if g.op = 0x10 then let (st, _, _, s) := createItem s w g.item own; (st, s)
    else destroyItem s w g.item
  (if st = waitCode then 0 else st, s)

/-- The requester that a transaction's items run as. -/
def txWho (x : Tx) : Who := ⟨x.role, x.part, x.owner, .mailbox, true⟩

/-- The state that a transaction's staged items would produce (R49). -/
def staged (s : State) (x : Tx) : State := x.items.foldl (fun st g => (applyStaged st (txWho x) g).2) s

/-- Bytes that a transaction has staged. -/
def txBytes (x : Tx) : Nat := sumBy (fun g => g.item.data.length) x.items

/-- A transaction changed. -/
def State.modTxn (s : State) (id : Nat) (f : Tx → Tx) : State :=
  s.modMgmt fun m => { m with txs := m.txs.map fun x => if x.id = id then f x else x }

/-- One item checked and staged (R49): status, response data, handle, state. -/
def stageItem (s : State) (w : Who) (x : Tx) (op : Nat) (it : Item) : Nat × List Byte × Nat × State :=
  if x.state ≠ 0 then (0x0C, [], it.handle, s)
  else if 4096 ≤ x.items.length ∨ 2097152 < txBytes x + it.data.length then (0x02, [], it.handle, s)
  else
    let pre := staged s x
    let w := { w with inTx := true }
    if op = 0x10 then
      match createPick pre w it none with
      | .error (st, d) => (st, d, it.handle, s)
      | .ok (t, i, _) =>
        let h := mkHandle t (s.genOf t i) i
        let s := { s with hs := { s.hs with held := mput s.hs.held (t * 2 ^ 20 + i) x.id } }
        (0, [], h, s.modTxn x.id fun x => { x with items := x.items ++ [⟨op, it, h, false⟩] })
    else
      let (st, _) := applyStaged pre w ⟨op, it, 0, false⟩
      if st ≠ 0 then (st, [], it.handle, s)
      else (0, [], it.handle, s.modTxn x.id fun x => { x with items := x.items ++ [⟨op, it, 0, false⟩] })

/-- Every staged item checked again and applied, or the first that fails with its status (R50). -/
def applyAll (w : Who) : List Staged → State → Except (Nat × Item) State
  | [], s => .ok s
  | g :: gs, s =>
    if g.dirty then .error (0x09, g.item)
    else
      match applyStaged s w g with
      | (0, s) => applyAll w gs s
      | (st, _) => .error (st, g.item)

/-- An owner keeps its last 64 ended transactions (R51). -/
def State.pruneTx (s : State) (owner : Nat) : State :=
  let ended := s.mgmt.txs.filter fun x => x.owner == owner && decide (2 ≤ x.state)
  let old := ended.filter fun x => decide (64 ≤ (ended.filter fun y => decide (x.ended < y.ended)).length)
  old.foldl (fun st x => st.modMgmt fun m => { m with txs := m.txs.filter fun y => y.id != x.id }) s

/-- A transaction ends, committed (2) or failed (3) (R50, R51). -/
def State.endTx (s : State) (x : Tx) (state status : Nat) : State :=
  let s := s.modMgmt fun m => { m with endSeq := m.endSeq + 1 }
  let s := s.releaseHolds x.id
  (s.modTxn x.id fun x => { x with state := state, status := status, ended := s.mgmt.endSeq, items := [] }).pruneTx x.owner

/-- The commit point of a transaction (R50): the status and the failing item, and the state. DEDUCED (log 29). -/
def commitNow (s : State) (x : Tx) : Nat × Option Item × State :=
  match applyAll (txWho x) x.items (s.releaseHolds x.id) with
  | .ok t =>
    let t := x.items.foldl (fun st g => if g.op = 2 ∨ g.op = 4 then st.dirtyEntry x.id g.item else st) t
    (0, none, t.endTx x 2 0)
  | .error (st, it) => (st, some it, (s.modTxn x.id fun y => { y with bad := 256 * it.index + it.sub }).endTx x 3 st)

/-- TX_COMMIT (R50, R51): status, failing item, state. The test of a passed FT comes first. -/
def txCommit (s : State) (x : Tx) (ft : Nat) : Nat × Option Item × State :=
  if x.state ≠ 0 then (0x0C, none, s)
  else if ft = 0 then commitNow s x
  else if ft ≤ s.ft then (0x0A, none, s)
  else if ft < s.ft + 10000 then (0x06, none, s)
  else if s.pendingActs ≥ 1024 then (0x02, none, s)
  else (0, none, (s.schedule ft (.commit x.id)).modTxn x.id fun x => { x with state := 1 })

/-- The mark of an item that has begun and waits only for its end: a copy (R409), or a window's Closing (R360). -/
def begunMark : Nat := 0x10000

/-- Does a request wait between two of its items? No commit applies then (R52). DEDUCED (log 167). -/
def midRequest (s : State) : Bool :=
  s.mgmt.parked.any fun p => p.op != 0x21 && (!p.done.isEmpty || (decide (1 < p.items.length) && p.items.any (·.rsv == begunMark)))

/-- The commit point of a scheduled transaction (R50). -/
def commitDue (s : State) (id : Nat) : State :=
  match s.mgmt.txs.find? (fun x => x.id == id && x.state == 1) with
  | some x => (commitNow s x).2.2
  | none => s

/-- TX_COMMIT_FIRE (R50): the scheduled commit at the head of those due; in the middle of a request it waits for the request's
end (R52). DEDUCED (log 167). -/
def txCommitFire (s : State) : State :=
  match s.dueAct with
  | some ⟨_, _, .commit id⟩ =>
    let s := s.unschedule (.commit id)
    if midRequest s then s.modMgmt fun m => { m with late := m.late ++ [id] } else commitDue s id
  | _ => s

/-- Commits that waited for the end of a request (R52). DEDUCED (log 167). -/
def lateCommits (s : State) : State :=
  if midRequest s then s else s.mgmt.late.foldl commitDue (s.modMgmt fun m => { m with late := [] })

/-- Has the commit FT of a scheduled transaction come (R51)? -/
def commitCame (s : State) (x : Tx) : Bool :=
  x.state == 1 && (match s.schedFt (.commit x.id) with | some ft => decide (ft ≤ s.ft) | none => true)

end Sys2Proof.Machine
end

