-- ==== Sys2Proof/Machine/Pdu.lean ====
section
/-!
DEFINITION. The Catalogue PDU (spec/02_catalogue.md, R47 to R60, and R484, R485, R510, R567, R601): parsing, readiness,
sessions, transactions as requests, items in order, held requests, and the transports.
-/

namespace Sys2Proof.Machine

/-! ### Responses -/

/-- The bytes of a response item (R54). -/
def respItem (x : RItem) : List Byte :=
  leBytes 2 x.index ++ leBytes 1 x.sub ++ leBytes 1 x.status ++ leBytes 4 x.handle ++ leBytes 2 x.data.length ++
  leBytes 2 0 ++ x.data ++ List.replicate (roundUp x.data.length 4 - x.data.length) 0

/-- The bytes of a response PDU (R54). -/
def respPdu (r : Req) (op status tx : Nat) (items : List RItem) : List Byte :=
  leBytes 1 1 ++ leBytes 1 (op + 0x80) ++ leBytes 2 r.tag ++ leBytes 4 r.session ++ leBytes 4 tx ++
  leBytes 2 items.length ++ leBytes 1 status ++ leBytes 1 0 ++ (items.map respItem).flatten

/-- The response of the oldest unanswered request of an endpoint and tag is ready (R58). -/
def mctpFill (eid tag : Nat) (msg : List Byte) : List MctpSlot → List MctpSlot
  | [] => []
  | x :: xs => if x.eid = eid ∧ x.tag = tag ∧ x.resp = none then { x with resp := some msg } :: xs else x :: mctpFill eid tag msg xs

/-- Responses that no earlier request of their endpoint holds back, and the requests left (R58). -/
def mctpReady : List Nat → List MctpSlot → List (Nat × List Byte) × List MctpSlot
  | _, [] => ([], [])
  | held, x :: xs =>
    match (if held.contains x.eid then none else x.resp) with
    | some msg => let (out, rest) := mctpReady held xs; ((x.eid, msg) :: out, rest)
    | none => let (out, rest) := mctpReady (x.eid :: held) xs; (out, x :: rest)

/-- Responses to MCTP endpoints leave in request order (R58); a request that waits no more and was not answered is forgotten. -/
def mctpFlush (s : State) : State :=
  let waits := fun (x : MctpSlot) =>
    x.resp.isSome || s.mgmt.parked.any fun p => decide (p.carry = .mctp) && p.req.src == x.eid && p.req.tag == x.tag
  let (out, rest) := mctpReady [] (s.mgmt.mctpOut.filter waits)
  out.foldl (fun st o => st.emit (.mctp o.1 o.2)) (s.modMgmt fun m => { m with mctpOut := rest })

/-- A response leaves by the way its request came (R58, R59, R485). `sid` is the session whose key tags a datagram.
DESIGN CHOICE (log 8); DEDUCED (log 35). -/
def respondAs (s : State) (sid : Nat) (c : Carry) (r : Req) (op status tx : Nat) (items : List RItem) : State :=
  let pdu := respPdu r op status tx items
  match c with
  | .plain => s.emit (.response r (op + 0x80) status tx items)
  | .mctp => s.modMgmt fun m => { m with mctpOut := mctpFill r.src r.tag (mctpPrefix ++ pdu) m.mctpOut }
  | .udp =>
    let tag := match s.mgmt.sessions.find? (fun x => x.id == sid) with
      | some x => (hmac x.key pdu).take 16
      | none => List.replicate 16 0
    let o := Output.udp r.src (pdu ++ tag)
    (s.modMgmt fun m => { m with sessions := m.sessions.map fun x =>
      if x.id = r.session then { x with kept := (x.kept ++ [(r.tag, o)]).drop (x.kept.length - 63) } else x }).emit o
  | .mailbox => s.modMgmt fun m => { m with respWindow := pdu, respLen := pdu.length }
  | .rill h => s.originate 84 (respHeader h 8 (s.get E.rill_origin_lifetime.s)) pdu

/-- A response tagged by its own session. -/
def respond (s : State) (c : Carry) (r : Req) (op status tx : Nat) (items : List RItem) : State :=
  respondAs s r.session c r op status tx items

/-! ### Who asks, and whether the service is ready -/

/-- The requester: session 0, an open session of the same transport, or a port's implicit session (R37, R601). -/
def whoOf (s : State) (r : Req) : Option Who :=
  match r.via with
  | .control p =>
    let role := s.get (E.port_control_role.n p)
    if s.isPort p ∧ role ≠ 0xFF then
      some ⟨role, if role = 3 then s.get (E.port_control_partition.n p) else 4096, portOwner p, r.via, false⟩
    else none
  | v =>
    if r.session = 0 then some ⟨4, 4096, 0, v, false⟩
    else (s.mgmt.sessions.find? fun x => x.id == r.session && x.via == v).map fun x => ⟨x.role, x.part, x.id, v, false⟩

/-- Can a request of the transport reach the service (R163 check 8, R488, R490)? -/
def reachable (s : State) (r : Req) : Bool :=
  match r.via with
  | .mctp => !s.mgmt.sbFailed
  | .udp => true
  | .mailbox => s.hostOn
  | .control p => s.isPort p && s.get (E.port_control_role.n p) != 0xFF

/-- Does the start let the request through (R56, R567, R568)? -/
def readyFor (s : State) (r : Req) (op : Nat) (items : List Item) : Bool :=
  let read0 := (op == 1 || op == 3) && r.session == 0 && (match r.via with | .control _ => false | _ => true)
  if s.get E.boot_stage.s = 1 ∨ s.get E.lc_state.s = 0 then
    read0 && r.via == .mctp && items.all (fun it => it.index == 0x1040)
  else s.getB E.device_ready.s || read0

/-- May session 0 read the index (R37)? -/
def session0Index (idx : Nat) : Bool := (decide (0x1000 ≤ idx) && decide (idx ≤ 0x10FF)) || idx == 0x1100 || idx == 0x1101

/-! ### Items -/

/-- A transaction of a requester. -/
def State.txOf (s : State) (w : Who) (id : Nat) : Option Tx := s.mgmt.txs.find? fun x => x.id == id && x.owner == w.owner

/-- SUBSCRIBE of one item (R510). DEDUCED (log 40). -/
def subscribeItem (s : State) (w : Who) (r : Req) (it : Item) : Nat × State :=
  if it.index < 0xA400 ∨ 0xA410 ≤ it.index ∨ it.sub ≠ 0 ∨ it.flags / 4 ≠ 0 ∨ it.rsv ≠ 0 then (0x06, s)
  else if w.role = 3 then (0x05, s)
  else if it.data.length ≠ 8 then (0x07, s)
  else
    (0, s.modMgmt fun m => { m with sessions := m.sessions.map fun x =>
      if x.id = w.owner then { x with masks := mput x.masks (it.index - 0xA400) (ofLe it.data), subVia := r.src } else x })

/-- One item served: status, data, handle, state. `tx` is 0, or the transaction that the request names. DEDUCED (log 25). -/
def serveItem (s : State) (w : Who) (r : Req) (op : Nat) (it : Item) : Nat × List Byte × Nat × State :=
  if w.owner = 0 ∧ op ≠ 0x30 ∧ !((op = 1 ∨ op = 3) ∧ session0Index it.index) then (0x05, [], it.handle, s)
  else if op = 1 then let (st, d, s) := readItem s w it; (st, d, it.handle, s)
  else if op = 3 then let (st, d) := readBlock s w it; (st, d, it.handle, s)
  else if op = 0x30 then let (st, d, s) := sessionOpen s r it.data; (st, d, it.handle, s)
  else if op = 0x41 then let (st, s) := subscribeItem s w r it; (st, [], it.handle, s)
  else
    match (if r.tx = 0 then none else s.txOf w r.tx) with
    | some x => stageItem s w x op it
    | none =>
      if op = 2 then
        let (st, s) := writeItem s w it
        (st, [], it.handle, if st = 0 then s.dirtyEntry 0 it else s)
      else if op = 4 then
        let (st, s) := writeBlock s w it
        (st, [], it.handle, if st = 0 then s.dirtyEntry 0 it else s)
      else if op = 0x10 then
        let (st, d, h, s) := createItem s w it none
        (st, d, if st = 0 then h else it.handle, s)
      else let (st, s) := destroyItem s w it; (st, [], it.handle, s)

/-- The mark of an item that has had its turn at the buffer pool manager and waits for a refill or a stack (R392, R527). -/
def turnMark : Nat := 0x20000

/-- Does an item make a request to the buffer pool manager (R391, R396, R404, R406)? It waits for its turn of the core cycle,
unless a transaction stages it. -/
def managed (r : Req) (op : Nat) (it : Item) : Bool :=
  r.tx == 0 && decide (it.rsv < begunMark) &&
  ((op == 1 && it.index == 0x7300 && it.sub == 9) ||
   (op == 2 && ((it.index == 0x7300 && (it.sub == 0x0A || it.sub == 0x0B)) || (it.index == 0x7400 && (it.sub == 4 || it.sub == 5)))))

/-- Does such an item pass the first checks of R55, so that its request reaches the manager? -/
def reachesManager (s : State) (w : Who) (r : Req) (op : Nat) (it : Item) : Bool :=
  managed r op it &&
  (if op = 1 then itemGate s w it false 1 == 0 else match writeGate5 s w it with | .ok _ => true | .error _ => false)

/-- An item that must wait, marked where it has begun. -/
def markItem (s : State) (op : Nat) (it : Item) : Item :=
  if op = 0x11 ∨ (op = 2 ∧ it.index = 0x7400 ∧ (mget? s.copying (hIdx it.handle)).isSome) then { it with rsv := begunMark } else it

/-- Does a held item still wait for its domain or stack (R526, R527)? -/
def stillHeld (s : State) (w : Who) (op : Nat) (it : Item) : Bool :=
  if op = 1 then it.index == 0x7300 && it.sub == 9 && s.poolRetained (hIdx it.handle)
  else if op = 2 then
    match writeGate5 s w it with
    | .ok (e, _, _, i) => (holdSrc s w e i (ofLe it.data)).isSome
    | .error _ => false
  else false

/-- A waiting item looked at again: run it anew, keep waiting, or its status. -/
inductive Resume where
  | run
  | wait
  | done (status : Nat)
deriving DecidableEq, Repr

/-- How a waiting item goes on. DEDUCED (log 36). -/
def resumeItem (s : State) (w : Who) (op : Nat) (it : Item) : Resume :=
  if it.rsv ≠ begunMark then (if stillHeld s w op it then .wait else .run)
  else if op = 0x11 then
    match s.liveAt 8 (hIdx it.handle) with
    | some x => if x.gen = hGen it.handle then .wait else .done 0
    | none => .done 0
  else if (mget? s.copying (hIdx it.handle)).isSome then .wait
  else if (s.liveH 2 it.handle).isSome ∧ s.get (E.sequence_state.h (hIdx it.handle)) = 1 then .done 0
  else .done 0x0B

/-- Does an item that fails stop the request: writes, creates and destroys outside a transaction (R48)? DEDUCED (log 28). -/
def stopsAt (r : Req) (op : Nat) : Bool := r.tx == 0 && (op == 2 || op == 4 || op == 0x10 || op == 0x11)

/-- The largest PDU of a request's transport (R58). -/
def pduLimit (via : Transport) : Nat := if via = .udp then 1400 else 4096

/-- Does the answer of an item of a READ or READ_BLOCK, with those before it and the headers of those after it, pass the
largest PDU (R56)? -/
def overflows (r : Req) (op : Nat) (acc : List RItem) (d : List Byte) (rest : Nat) : Bool :=
  (op == 1 || op == 3) && d != [] &&
  decide (pduLimit r.via < 16 + sumBy (fun x => 12 + roundUp x.data.length 4) acc + 12 + roundUp d.length 4 + 12 * rest)

/-- One item served, as far as the response has room for its data; one that has none is answered 0x02 and has no effect.
DESIGN CHOICE (log 168). -/
def serveBounded (s : State) (w : Who) (r : Req) (op : Nat) (it : Item) (acc : List RItem) (rest : Nat) :
    Nat × List Byte × Nat × State :=
  let x := serveItem s w r op it
  if overflows r op acc x.2.1 rest then (0x02, [], it.handle, s) else x

/-- An item served (R48): the request stops here, with its items that must wait and its answers, or goes on with the next. -/
def oneItem (w : Who) (r : Req) (op : Nat) (it : Item) (rest : List Item) (acc : List RItem) (s : State) :
    Except (List Item × List RItem × State) (List RItem × State) :=
  let (st, d, h, s) := serveBounded s w r op it acc rest.length
  if st = waitCode then .error (markItem s op it :: rest, acc, s)
  else
    let acc := acc ++ [⟨it.index, it.sub, st, h, d⟩]
    if st ≠ 0 ∧ stopsAt r op then .error ([], acc ++ rest.map fun x => ⟨x.index, x.sub, 0x0B, x.handle, []⟩, s)
    else .ok (acc, s)

/-- Items in order (R48, R55): the items that must wait, the answers so far, the state. DEDUCED (log 28). -/
def runItems (w : Who) (r : Req) (op : Nat) : List Item → List RItem → State → List Item × List RItem × State
  | [], acc, s => ([], acc, s)
  | it :: rest, acc, s =>
    if reachesManager s w r op it then (it :: rest, acc, s)
    else
      match oneItem w r op it rest acc s with
      | .error x => x
      | .ok (acc, s) => runItems w r op rest acc s

/-- An item that has its turn at the buffer pool manager, then the items after it. -/
def runTurn (w : Who) (r : Req) (op : Nat) (it : Item) (rest : List Item) (acc : List RItem) (s : State) :
    List Item × List RItem × State :=
  match oneItem w r op it rest acc s with
  | .error (x :: xs, acc, s) => ((if x.rsv = begunMark then x else { x with rsv := turnMark }) :: xs, acc, s)
  | .error x => x
  | .ok (acc, s) => runItems w r op rest acc s

/-- What follows the items: the response, or the request waits with those left. -/
def settleItems (c : Carry) (r : Req) (op : Nat) (x : List Item × List RItem × State) : State :=
  match x with
  | ([], acc, s) =>
    let sid := match op, acc.reverse with
      | 0x30, a :: _ => if a.status = 0 then leAt a.data 0 4 else r.session
      | _, _ => r.session
    respondAs s sid c r op 0 r.tx acc
  | (rest, acc, s) => s.modMgmt fun m => { m with parked := m.parked ++ [⟨r, op, c, rest, acc, s.cyc.n⟩] }

/-- A waiting request goes on (R360, R392, R409, R526, R527); that of a session that has closed is gone. DEDUCED (log 36). -/
def resumeOne (s : State) (p : Parked) : State :=
  match whoOf s p.req, p.items with
  | some w, it :: rest =>
    match (if managed p.req p.op it then .wait else resumeItem s w p.op it) with
    | .wait => s.modMgmt fun m => { m with parked := m.parked ++ [p] }
    | .run => settleItems p.carry p.req p.op
        (if it.rsv = turnMark then runTurn w p.req p.op { it with rsv := 0 } rest p.done s else runItems w p.req p.op (it :: rest) p.done s)
    | .done st =>
      let acc := p.done ++ [⟨it.index, it.sub, st, it.handle, []⟩]
      if st ≠ 0 ∧ stopsAt p.req p.op then
        settleItems p.carry p.req p.op ([], acc ++ rest.map fun x => ⟨x.index, x.sub, 0x0B, x.handle, []⟩, s)
      else settleItems p.carry p.req p.op (runItems w p.req p.op rest acc s)
  | _, _ => s

/-! ### The turns at the buffer pool manager (R391, R393) -/

/-- The place of a waiting request in the order of R393: older requests first, then frees and shares, then allocations, each in
ascending requester number; none where it does not wait for its turn. -/
def turnKey (p : Parked) : Option (Nat × Nat × Nat) :=
  match p.items with
  | it :: _ => if managed p.req p.op it then
      some (p.since, if it.index = 0x7300 ∧ it.sub ≠ 9 then 0 else 1, requester p.req.via) else none
  | [] => none

/-- Does one place come before another? -/
def turnBefore (a b : Nat × Nat × Nat) : Bool :=
  decide (a.1 < b.1) || (a.1 == b.1 && (decide (a.2.1 < b.2.1) || (a.2.1 == b.2.1 && decide (a.2.2 < b.2.2))))

/-- A waiting request has its turn. -/
def takeTurn (s : State) (p : Parked) : State :=
  let s := s.modMgmt fun m => { m with parked := m.parked.erase p }
  match whoOf s p.req, p.items with
  | some w, it :: rest => settleItems p.carry p.req p.op (runTurn w p.req p.op it rest p.done s)
  | _, _ => s

/-- The pool that a waiting request is about, of those of which a pool applies four on a core cycle. -/
def turnPool (p : Parked) : Option Nat :=
  match p.items with
  | it :: _ => if it.index = 0x7300 then some (hIdx it.handle) else none
  | [] => none

/-- The requests of a core cycle to the pools, as it ends (R393): in order, up to four at each pool. DEDUCED (log 189). -/
def poolTurns (s : State) : State :=
  let due := s.mgmt.parked.filterMap fun p => (turnKey p).map fun k => (k, p)
  if due = [] then s
  else
    mctpFlush ((sortBy (fun x y => turnBefore x.1 y.1) due).foldl (fun (acc : NMap Nat × State) x =>
      match turnPool x.2 with
      | some i => let n := mgetD acc.1 i 0; if 4 ≤ n then acc else (mput acc.1 i (n + 1), takeTurn acc.2 x.2)
      | none => (acc.1, takeTurn acc.2 x.2)) ([], s)).2

/-! ### Requests about transactions and sessions -/

/-- A new transaction (R49): its identifier. -/
def txOpen (s : State) (w : Who) : Nat × State :=
  if 64 ≤ (s.mgmt.txs.filter fun x => decide (x.state ≤ 1)).length then (0, s)
  else
    let id := s.mgmt.nextTx
    (id, s.modMgmt fun m => { m with
      txs := m.txs ++ [⟨id, w.owner, w.role, w.part, 0, 0, [], s.ft, 0, 0⟩]
      nextTx := if id + 1 < 2 ^ 32 then id + 1 else 1 })

/-- TX_COMMIT as a request (R50, R51): one item, index 0, an FT; a commit now waits for the end of a request that is between its
items (R52). DEDUCED (log 29, 167). -/
def serveCommit (s : State) (c : Carry) (r : Req) (x : Tx) (items : List Item) : State :=
  let no := fun (st : Nat) => respond s c r 0x21 0 r.tx [⟨0, 0, st, 0, []⟩]
  match items with
  | [it] =>
    if it.index ≠ 0 then no 0x06
    else if it.data.length ≠ 8 then no 0x07
    else if ofLe it.data = 0 ∧ x.state = 0 ∧ midRequest s then
      s.modMgmt fun m => { m with parked := m.parked ++ [⟨r, 0x21, c, items, [], s.cyc.n⟩] }
    else
      let (st, bad, s) := txCommit s x (ofLe it.data)
      match bad with
      | some b => respond s c r 0x21 0 r.tx [⟨b.index, b.sub, st, 0, []⟩]
      | none => respond s c r 0x21 0 r.tx [⟨0, 0, st, 0, []⟩]
  | _ => no 0x07

/-- TX_ABORT as a request (R51): too late from the commit FT on. DEDUCED (log 29). -/
def serveAbort (s : State) (c : Carry) (r : Req) (x : Tx) : State :=
  if x.state ≤ 1 ∧ commitCame s x = false then respond (s.dropTx x.id) c r 0x22 0 r.tx [⟨0, 0, 0, 0, []⟩]
  else respond s c r 0x22 0 r.tx [⟨0, 0, 0x0C, 0, []⟩]

/-- TX_STATUS as a request (R51); the item names the index and subindex at which a commit failed (R50). DEDUCED (log 29). -/
def serveStatus (s : State) (c : Carry) (r : Req) (x : Tx) : State :=
  respond s c r 0x23 0 r.tx [⟨x.bad / 256, x.bad % 256, 0, 0, leBytes 1 x.state ++ leBytes 1 x.status⟩]

/-- A request whose requester and transaction are known. On session 0 its items are answered one by one (R37); items of a TX_OPEN,
TX_ABORT, TX_STATUS or SESSION_CLOSE of an open session are not looked at. DESIGN CHOICE (log 169). -/
def serveFor (s : State) (c : Carry) (r : Req) (w : Who) (x : Option Tx) (op : Nat) (items : List Item) : State :=
  if w.owner = 0 then settleItems c r op (runItems w r op items [] s)
  else if op = 0x20 then
    let (id, s) := txOpen s w
    respond s c r op (if id = 0 then 0x02 else 0) id []
  else if op = 0x31 then (respond s c r op 0 r.tx []).closeSession w.owner
  else if op = 0x21 ∨ op = 0x22 ∨ op = 0x23 then
    match x with
    | none => respond s c r op 0x06 r.tx []
    | some x => if op = 0x21 then serveCommit s c r x items else if op = 0x22 then serveAbort s c r x else serveStatus s c r x
  else settleItems c r op (runItems w r op items [] s)

/-- A datagram that cannot be authenticated (R58, R601). -/
def udpDrop (s : State) : State := s.inc E.comm_dropped.s 1

/-- A request served (R37, R49, R56, R567, R601). DESIGN CHOICE (log 7, 8); DEDUCED (log 34). -/
def serve (s : State) (c : Carry) (r : Req) (op : Nat) (items : List Item) : State :=
  let no := fun (st : Nat) => respond s c r op st r.tx []
  if !reachable s r then s
  else if r.via = .udp ∧ r.session = 0 ∧ op ≠ 0x30 then udpDrop s
  else if !readyFor s r op items then no 0x01
  else
    match whoOf s r with
    | none => if r.via = .udp then udpDrop s else no 0x05
    | some w =>
      let control := decide (2 ^ 32 ≤ w.owner)
      if control ∧ (op = 0x30 ∨ op = 0x31 ∨ op = 0x41) then no 0x05
      else if op = 0x30 ∧ w.owner ≠ 0 then no 0x06
      else if w.owner = 0 ∧ op ≠ 0x30 ∧ items = [] then no 0x05
      else
        match (if r.tx = 0 then none else s.txOf w r.tx) with
        | some x => serveFor (s.modTxn x.id fun y => { y with active := s.ft }) c r w (some x) op items
        | none => if r.tx ≠ 0 then no 0x06 else serveFor s c r w none op items

/-- A commit now that waited for the end of a request goes on (R52). DEDUCED (log 167). -/
def resumeCommit (s : State) (p : Parked) : State :=
  match whoOf s p.req with
  | some w =>
    match s.txOf w p.req.tx with
    | some x => serveCommit s p.carry p.req x p.items
    | none => respond s p.carry p.req 0x21 0x06 p.req.tx []
  | none => s

/-- Waiting requests are looked at again in the order of their receipt, then commits that waited for them (R52).
DEDUCED (log 36, 167). -/
def unpark (s : State) : State :=
  let ps := s.mgmt.parked
  let s := (ps.filter (·.op != 0x21)).foldl resumeOne (s.modMgmt fun m => { m with parked := [] })
  mctpFlush ((ps.filter (·.op == 0x21)).foldl resumeCommit (lateCommits s))

/-! ### Transports -/

/-- The items of a request PDU, where they end with it (R54, R56). -/
def parseItems : Nat → List Byte → Option (List Item)
  | 0, b => if b = [] then some [] else none
  | n + 1, b =>
    let len := leAt b 8 2
    let all := 12 + roundUp len 4
    if b.length < all then none
    else (parseItems n (b.drop all)).map fun l =>
      ⟨leAt b 0 2, leAt b 2 1, leAt b 3 1, leAt b 4 4, leAt b 10 2, slice b 12 len⟩ :: l

/-- The bytes of a request item (R54). -/
def itemBytes (it : Item) : List Byte :=
  leBytes 2 it.index ++ leBytes 1 it.sub ++ leBytes 1 it.flags ++ leBytes 4 it.handle ++ leBytes 2 it.data.length ++
  leBytes 2 it.rsv ++ it.data ++ List.replicate (roundUp it.data.length 4 - it.data.length) 0

/-- Is the opcode one of a request (R54, R56)? -/
def opKnown (op : Nat) : Bool := [1, 2, 3, 4, 0x10, 0x11, 0x20, 0x21, 0x22, 0x23, 0x30, 0x31, 0x41].contains op

/-- The mailbox's request is done (R59): busy clears and vector 0 is raised. -/
def mailboxDone (s : State) : State := (s.modMgmt fun m => { m with busy := false }).emit (.irq 0)

/-- A request PDU taken whole from a transport (R54, R56): parsed and served, refused with PDU status 0x06, or dropped where
it is shorter than its header. The form of a PDU is judged before the readiness of the service. DEDUCED (log 170). -/
def receivePdu (s : State) (c : Carry) (via : Transport) (src : Nat) (b : List Byte) : State :=
  if b.length < 16 then
    match via with
    | .udp => udpDrop s
    | .mailbox => mailboxDone (s.modMgmt fun m => { m with respLen := 0 })
    | _ => s
  else
    let r : Req := ⟨via, src, leAt b 2 2, leAt b 4 4, leAt b 8 4⟩
    let op := leAt b 1 1
    let bad := leAt b 0 1 ≠ 1 ∨ !opKnown op ∨ pduLimit via < b.length ∨ leAt b 14 2 ≠ 0
    match (if bad then none else parseItems (leAt b 12 2) (b.drop 16)) with
    | some items => serve s c r op items
    | none => if reachable s r then respond s c r (op % 128) 0x06 r.tx [] else s

/-- MCTP_MESSAGE (R58): the vendor-defined message of the enterprise number carries a PDU; a failed sideband takes none
(R488). A tag of the endpoint that is still outstanding is not taken again. DESIGN CHOICE (log 171). -/
def mctpMessage (s : State) (eid : Nat) (b : List Byte) : State :=
  let tag := leAt b 7 2
  if s.mgmt.sbFailed ∨ b.take 5 ≠ mctpPrefix ∨ s.mgmt.mctpOut.any (fun x => x.eid == eid && x.tag == tag) then s
  else
    mctpFlush (receivePdu (s.modMgmt fun m => { m with mctpOut := m.mctpOut ++ [⟨eid, tag, none⟩] }) .mctp .mctp eid (b.drop 5))

/-- UDP_DATAGRAM (R58, R485): the PDU and its tag of 16 bytes. DEDUCED (log 35). -/
def udpDatagram (s : State) (src : Nat) (b : List Byte) : State :=
  let pdu := b.take (b.length - 16)
  let tag := b.drop (b.length - 16)
  let session := leAt pdu 4 4
  let t := leAt pdu 2 2
  if b.length < 32 then udpDrop s
  else if session = 0 then
    if leAt pdu 1 1 = 0x30 ∧ tag = List.replicate 16 0 then receivePdu s .udp .udp src pdu else udpDrop s
  else
    match s.mgmt.sessions.find? (fun x => x.id == session && x.via == .udp) with
    | none => udpDrop s
    | some x =>
      if tag ≠ (hmac x.key pdu).take 16 then udpDrop s
      else
        let ahead := (t + 65536 - x.hiTag % 65536) % 65536
        if 1 ≤ ahead ∧ ahead ≤ 32767 then
          receivePdu (s.modMgmt fun m => { m with sessions := m.sessions.map fun y =>
            if y.id = session then { y with hiTag := t } else y }) .udp .udp src pdu
        else
          match x.kept.find? (fun k => k.1 == t) with
          | some k => s.emit k.2
          | none => s.inc E.comm_udp_replays.s 1

/-- MAILBOX_DOORBELL (R59): the host has written the request window, and rings with the length of the PDU. A doorbell while busy
is ignored and counted. DEDUCED (log 37); DESIGN CHOICE (log 172). -/
def mailboxDoorbell (s : State) (ring : Ring) (window : List Byte) : State :=
  let s := if s.hostOn ∧ bitAt ring.clear 1 then s.modMgmt fun m => { m with overrun := false } else s
  if !s.hostOn then s
  else if s.mgmt.busy then s.modMgmt fun m => { m with overrun := true, overruns := m.overruns + 1 }
  else
    let win := (window ++ List.replicate 4096 0).take 4096
    let s := s.modMgmt fun m => { m with reqWindow := win, busy := true, respLen := 0 }
    receivePdu s .mailbox .mailbox 0 ((win ++ [0]).take (min ring.len 4097))

/-- MAILBOX_RESPONSE_DONE (R59): the response is complete in the response window. -/
def mailboxResponseDone (s : State) : State :=
  if s.mgmt.busy ∧ !(s.mgmt.parked.any fun p => decide (p.carry = .mailbox)) then mailboxDone s else s

/-- The item that writes value v to an entry: repeat n, subindex offset k, handle word h. -/
def writeIt (e : Ent) (n k h v : Nat) : Item := ⟨e.idx + n, e.sub + k * e.subStep, 0, h, 0, leBytes e.len v⟩

/-- A WRITE request of one entry. DESIGN CHOICE (log 7). -/
def writeCmd (s : State) (r : Req) (e : Ent) (n k h v : Nat) : State := serve s .plain r 2 [writeIt e n k h v]

end Sys2Proof.Machine
end

