-- ==== Sys2Proof/Machine/Arrival.lean ====
section
/-!
DEFINITION. The arrival of Rill frames and packets (spec/05 R117, R118, spec/06 R145, R154 to R166, R174, R186): the frame
tests, the thirteen arrival checks, forwarding, and delivery to an internal end point.
-/

namespace Sys2Proof.Machine

/-! ### The arrival checks (R163) -/

/-- A packet fails check k on port n (R163): it is dropped and counted once; the window of R165 counts it too.
DEDUCED (log 70). -/
def arrFail (s : State) (n k : Nat) (h : Rill) : State :=
  let s := s.inc (E.rill_rx_fail.nk n (k - 1)) 1
  let s := { s with sw := { s.sw with faultCnt := mmod s.sw.faultCnt (16 * n + k) 0 (· + 1) } }
  s.recDropR (0x3400 + n) k 0xFFFF n h

/-- ARRIVAL_FAULT_WINDOW (R165, R261): a window has ended; each check and each engine above the rate sets its flag and raises
its source. DEDUCED (log 71). -/
def arrivalFaultWindow (s : State) : State :=
  if s.ft < mgetD s.sw.faultWin 0 0 + s.get E.rill_fault_window.s then s
  else
    let above := s.sw.faultCnt.filter fun p => decide (s.get E.rill_fault_rate.s < p.2)
    let s := { s with sw := { s.sw with faultCnt := [], faultWin := [(0, s.ft)] } }
    let ports := above.filter fun p => decide (p.1 < 20000)
    let s := ports.foldl (fun st p => st.stick (E.rill_rx_flags.n (p.1 / 16)) (p.1 % 16 - 1)) s
    let srcs := above.map fun p => if p.1 < 20000 then 192 + p.1 / 16 / 256 else 320 + (p.1 - 20000)
    if srcs = [] then s else s.raiseAll srcs

/-- The internal crossbar output of a packet's end point (R21, R142). DEDUCED (log 72, 73). -/
def endOutput (s : State) (h : Rill) : Nat :=
  if h.kind = 0 then 89 else if h.kind = 1 ∨ h.kind = 2 then s.memInp (rillAddr h) else if h.kind = 6 then 72 else 84

/-- Does the handle name a live index of its type in the packet's partition (check 9)? -/
def handleIn (s : State) (t : Nat) (h : Rill) : Bool :=
  hType h.handle == t && (match s.liveAt t (hIdx h.handle) with | some r => r.part == h.partition | none => false)

/-- The handle type that a kind names (R143), 0 for none. -/
def kindType (h : Rill) : Nat :=
  if h.kind = 1 ∨ h.kind = 2 then 8 else if h.kind = 4 ∨ h.kind = 5 then 1 else if h.kind = 6 ∧ h.handle ≠ 0 then 10 else 0

/-- Check 9 of R163. No request of the FN7's own is ever outstanding, so no completion's tag matches one. DEDUCED (log 70). -/
def check9 (s : State) (h : Rill) : Bool :=
  kindWordsOk h && h.kind != 3 && (if kindType h = 0 then h.kind == 0 || h.handle == 0 else handleIn s (kindType h) h)

/-- Is a packet of kind 6 on its way to the dispatcher? -/
def jobPacket (p : Pkt) : Bool :=
  match p.body with
  | .rill h _ => decide (1024 ≤ p.out) && h.kind == 6
  | _ => false

/-- Check 13 of R163: the end point has room, and so has its internal output (R186). Contributions and results never fail it
(R239); a packet of a Weir partition is admitted by R426. -/
def check13 (s : State) (h : Rill) : Bool :=
  let room := s.weirPart h.partition || s.intRoom (endOutput s h) (rillCells h)
  if h.kind = 4 ∨ h.kind = 5 then true
  else if h.kind = 1 ∨ h.kind = 2 then !s.memFull && room
  else if h.kind = 6 then decide (s.packetJobs + (s.sw.pkts.filter jobPacket).length < s.get E.mill_queue_limit.s) && room
  else room

/-- The descriptor that a Mill-job packet names (R320, R321). -/
def packetDesc (s : State) (h : Rill) (payload : List Byte) : List Nat :=
  if h.handle = 0 then descWords payload else applyArgs (s.tmplDesc (hIdx h.handle)) payload

/-- A request that fails check 13 is answered busy where it expects a response (R164). -/
def answerBusy (s : State) (n : Nat) (h : Rill) (payload : List Byte) : State :=
  if h.kind = 1 ∨ h.kind = 2 then s.complete h 1 []
  else if h.kind = 6 then
    let j := mkJob s 0 h none [] none (packetDesc s h payload) payload h.partition h.cls h.layer h.operator
    s.sendResult j 1 ev0 [] 0
  else if h.kind = 8 then
    let r : Req := ⟨.control n, 0, leAt payload 2 2, leAt payload 4 4, leAt payload 8 4⟩
    respond s (.rill h) r (leAt payload 1 1 % 128) 0x01 r.tx []
  else s

/-- A time notice that ends here (R166): a query is answered, a reply changes nothing (R75). DEDUCED (log 72). -/
def timeNotice (s : State) (h : Rill) (startFt : Nat) : State :=
  if h.w10 % 2 = 1 then s
  else
    let r := { respHeader h 9 (s.get E.rill_origin_lifetime.s) with w10 := 1 }
    s.originate 84 r (leBytes 8 startFt ++ leBytes 8 0 ++ leBytes 1 (s.get E.ft_sync_state.s) ++
      leBytes 1 (s.get E.ft_source_port.s) ++ leBytes 6 0)

/-- A packet reaches its internal end point (R142, R156, R161): dropped where its lifetime is used up, or where its handle is
no longer the one it names (R45). DEDUCED (log 72). -/
def deliver (s : State) (n bundle : Nat) (h : Rill) (payload : List Byte) (startFt : Nat) : State :=
  let t := kindType h
  if h.lifetime ≤ residenceUnits startFt s.ft then
    (s.inc (E.rill_rx_expired.n n) 1).recDropR (0x3400 + n) 0x0E 0xFFFF n h
  else if t ≠ 0 ∧ (s.liveH t h.handle).isNone then s
  else
    let s := gaugeTerminate s n h payload startFt
    if h.kind = 1 ∨ h.kind = 2 then s.memAccept (n / 16) h payload
    else if h.kind = 4 ∨ h.kind = 5 then collPacket s n bundle h payload
    else if h.kind = 6 then millPacket s h payload
    else if h.kind = 8 then receivePdu s (.rill h) (.control n) 0 payload
    else if h.kind = 9 then timeNotice s h startFt
    else s

/-- A packet that passed every check that applied (R169, R191, R447, R458). -/
def arrAccept (s : State) (n : Nat) (h : Rill) (payload : List Byte) (startFt : Nat) : State :=
  let s := (s.inc (E.rill_rx_accepted.n n) 1).sampleSee n 0 0 0xFFFF (.rill h payload) startFt
  (s.attrPacket h).later (.record 1 h.partition h.layer h.operator h.handle n (rillBytes h))

/-- A packet whose route ends here, checks 8 to 13 (R163), then its way to the end point: contributions and results at once
(R29), the others over an internal output. `h1` is the header with its return slot written. -/
def arriveHere (s : State) (n bundle : Nat) (h h1 : Rill) (payload : List Byte) (startFt : Nat) : State :=
  let t := kindType h
  if h.kind = 8 ∧ s.get (E.port_control_role.n n) = 0xFF then arrFail s n 8 h
  else if !check9 s h then arrFail s n 9 h
  else if t ≠ 0 ∧ (s.liveH t h.handle).isNone then arrFail s n 10 h
  else if (h.kind = 4 ∨ h.kind = 5) ∧ (s.collSender (hIdx h.handle) n bundle h.hopCount).isNone then arrFail s n 11 h
  else if (h.kind = 1 ∨ h.kind = 2) ∧ !s.check12 h then arrFail s n 12 h
  else if !check13 s h then answerBusy (arrFail s n 13 h) n h1 payload
  else if h.kind = 4 ∨ h.kind = 5 then deliver (arrAccept s n h payload startFt) n bundle h1 payload startFt
  else
    let o := endOutput s h
    let need := rillCells h
    let p := { mkPkt (.rill h1 payload) (n / 16) n (s.width n) bundle need startFt with
      out := 1024 + o, queue := h.cls, arrCyc := s.cyc.n }
    if s.weirPart h.partition then
      match (arrAccept s n h payload startFt).weirInt (n / 16) o need with
      | (some s, _) => s.join { p with weir := s.get E.weir_cycle.s + 1 }
      | (none, s) => s
    else
      match s.admitInt o need with
      | some s => (arrAccept s n h payload startFt).join p
      | none => answerBusy (arrFail s n 13 h) n h1 payload

/-- A packet arrives on port n (R145, R155, R163), as far as check 6. `b` is header, payload and padding as they came; `outer`
the outer source of a tunnel; `left` says that its header had left before its frame ended, `bad` that the frame ended bad
(R117). What passes is tested further when the core cycle ends (R185). -/
def arrive (s : State) (n : Nat) (b : List Byte) (outer : Option Nat) (left bad : Bool) (startFt : Nat) : State :=
  let h := parseRill b
  let payload := (b.drop 48).take h.length
  let role := s.get (E.port_role.n n)
  let goes := continues h
  let gone := left && goes
  let lenOk := b.length == max 64 (48 + h.length)
  if s.recabled n then s.inc E.recable_drops.s 1
  else if bad && !gone then dropRx s n
  else if !headerOk h then arrFail s n 1 h
  else if !roleAdmits role h.kind then arrFail s n 2 h
  else if !payloadOk h || (!lenOk && !gone) then arrFail s n 3 h
  else if !s.domBit E.rill_partition_sets 0 0 (4096 * n + h.partition) then arrFail s n 4 h
  else if h.lifetime = 0 ∨ s.get (E.rill_lifetime_max.k (role - 1)) < h.lifetime then arrFail s n 5 h
  else
    match s.ingressBundle n outer with
    | none => arrFail s n 6 h
    | some bundle =>
      let way := if goes then (s.members (h.route.getD h.hopPtr 0)).any fun c => s.inService c.2
        else decide (h.hopPtr ≤ 3) && h.kind != 7
      if !way then arrFail s n 6 h
      else (if bad then s.inc (E.port_rx_stomped.n n) 1 else s).addTry n (.rill n bundle h payload b.length bad startFt)

/-- A packet that passed check 6 comes to its placement (R155, R163, R185, R209, R211): check 7, the claim of a data packet that
ends here (R470), then its way out or checks 8 to 13. A packet whose header had left and whose frame has the wrong length fails
check 3 at the end of its frame; it leaves stomped, at the stated length or the arrived one. DEDUCED (log 65). -/
def placeRill (s : State) (n bundle : Nat) (h : Rill) (payload : List Byte) (len : Nat) (bad : Bool) (startFt : Nat) : State :=
  let lenOk := len == max 64 (48 + h.length)
  let (col, drop, s) := s.police n h.cls h.colour (rillWire h) startFt
  if drop then arrFail s n 7 h
  else if !continues h ∧ h.kind = 0 ∧ (gaugeClaims s n h payload).isNone then arrFail s n 6 h
  else
    let h := { h with colour := col }
    let h1 := advance h bundle
    if continues h then
      let s := if lenOk then arrAccept s n h payload startFt else arrFail s n 3 h
      s.attempt { mkPkt (.rill h1 payload) (n / 16) n (s.width n) (h.route.getD h.hopPtr 0) (rillCells h) startFt with
        cells := ceilDiv (48 + payload.length) 256, arrCyc := s.cyc.n, stomp := bad || !lenOk }
    else arriveHere s n bundle h h1 payload startFt

/-- RILL_PACKET_ARRIVAL (R163, R174): `used` is what the landing reserve of the port's group holds of packets that no command has
shown yet. DEDUCED (log 65, 75). -/
def packetArrival (s : State) (n : Nat) (b : List Byte) (used startFt : Nat) : State :=
  if !s.isPort n ∨ s.get (E.port_mode.n n) ≠ 0 ∨ !(s.inService n || s.recabled n) then s
  else if landingFull s n used then s.inc E.rsv_landing_drops.s 1
  else arrive s n b none false false startFt

/-- RILL_FRAME_RECEIVE (R117, R118, R135, R174): FEC and the CRC-32 are judged. `words` are the codewords that carried the
frame, `left` says that its header had left the ingress stage when the frame ended. In far-end loopback the lanes send it back.
DEDUCED (log 65). -/
def rillFrame (s : State) (n : Nat) (b : List Byte) (crc : Nat) (words : List (Nat × List Nat)) (left : Bool) (idle startFt : Nat) :
    State :=
  if !s.isPort n ∨ s.get (E.port_mode.n n) ≠ 0 then s
  else if s.get (E.port_state.n n) = 5 ∧ s.get (E.port_loopback.n n) = 3 then s.emit (.laneReturn n b crc)
  else if !(s.inService n || s.recabled n) then s
  else
    let (fixed, lost) := fecCount (s.get (E.port_fec.n n)) words
    let s := (s.inc (E.port_fec_corrected.n n) fixed).inc (E.port_fec_uncorrectable.n n) lost
    let ending := endingOf b crc
    let s := if lost = 0 then gaugeReceive s n b ending idle startFt else s
    let bad := lost != 0 || ending != 0
    if b.length < 64 ∨ 4144 < b.length then dropRx s n
    else if bad && !(left && continues (parseRill b)) then
      if lost = 0 ∧ ending = 2 then s.inc (E.port_rx_stomped.n n) 1 else dropRx s n
    else if landingFull s n 0 then s.inc E.rsv_landing_drops.s 1
    else arrive s n b none left bad startFt

/-- A packet comes out of a tunnel (R126). -/
def arriveTunnel (s : State) (n : Nat) (b : List Byte) (outer : Nat) (stomp : Bool) (startFt : Nat) : State :=
  if landingFull s n 0 then s.inc E.rsv_landing_drops.s 1 else arrive s n b (some outer) stomp stomp startFt

end Sys2Proof.Machine
end

