-- ==== Sys2Proof/Machine/Match.lean ====
section
/-!
DEFINITION. One cell time of the crossbar (spec/07_switch_core.md, R178 to R186, spec/15, R427, R436): requests, grants and
accepts on each plane, reserved slots, the egress staging, the start of transmission, and the placements of a core cycle.
-/

namespace Sys2Proof.Machine

/-- One request of a plane's match (R179): its priority, crossbar input and output, egress port, and packet. -/
structure Ask where
  prio : Nat
  inp : Nat
  out : Nat
  port : Nat
  pkt : Nat
deriving DecidableEq, Repr

/-- The crossbar output of a packet: its port group, or an internal output (R21). -/
def outOf (p : Pkt) : Nat := if p.out < 1024 then p.out / 16 else p.out - 1024

/-- The cells of a packet that have left the staging by now: a port sends them at its line rate; an internal output takes them
once it holds the packet's first two cells. DEDUCED (log 80). -/
def State.sentCells (s : State) (p : Pkt) : Nat :=
  if 1024 ≤ p.out then (if p.crossed < min 2 p.cells then 0 else p.crossed)
  else if p.started then
    min p.cells (((s.wireLen p.out p + s.overhead p.out) * 65536 - s.toSend p.out s.ft) / (256 * 65536))
  else 0

/-- Are two packets copies of one Confluence result to ports of one group, which cross as one (R177, R241)? -/
def twins (p y : Pkt) : Bool :=
  p.store != 0 && p.store == y.store && decide (64 ≤ p.inp) && decide (p.out < 1024) && p.out / 16 == y.out / 16

/-- Cells in the egress staging of an output on plane x, those granted among them, a cell of several copies once (R181, R241). -/
def State.staging (s : State) (o x : Nat) : Nat :=
  let mine := s.sw.pkts.filter fun p => outOf p == o
  let lies := fun (p : Pkt) (k : Nat) => decide (k < p.crossed) && decide (s.sentCells p ≤ k)
  sumBy (fun p =>
    let before := mine.filter fun y => twins y p && decide (y.id < p.id)
    ((List.range p.crossed).filter fun k =>
      lies p k && (if bitAt p.planes k then x == 1 else x == 0) && !before.any fun y => lies y k).length +
    (s.sw.grants.filter fun g => g.pkt == p.id && g.plane == x && !before.any fun y => y.granted == p.granted).length) mine

/-- Does the running schedule name an output (R427)? -/
def State.weirNames (s : State) (o : Nat) : Bool := s.weirRunning && s.weir.table.any fun p => p.2 == o

/-- Has the staging of an output room for k cells more (R181)? A named output keeps 34 for Weir cells (R427).
DEDUCED (log 80). -/
def State.stagingRoom (s : State) (o x k : Nat) : Bool :=
  decide (s.staging o x + k ≤ (if s.weirNames o then 94 else 128))

/-- Does a packet cross in reserved slots alone (R427)? -/
def State.slotted (s : State) (p : Pkt) : Bool := p.weir != 0 && s.weirRunning

/-- Is it a sample copy, a record for the Archive or a copy for Gauge, which may cross in observation slots (R436)? -/
def observes (p : Pkt) : Bool :=
  match p.body with
  | .inner (.sample _ _) _ => true
  | .inner (.archive _ _) _ => true
  | .inner (.gauge _ _ _ _ _ _) _ => true
  | _ => false

/-- Does a packet cross in observation slots alone while the schedule runs (R436, R460, R470): a copy for Gauge, or what shows Weir
traffic? DEDUCED (log 80). -/
def State.observesWeir (s : State) (p : Pkt) : Bool :=
  s.weirRunning &&
  (match p.body with
   | .inner (.sample _ w) _ => w
   | .inner (.archive _ w) _ => w
   | .inner (.gauge _ _ _ _ _ _) _ => true
   | _ => false)

/-- Is a packet at the head of its virtual output queue, the one of its input, egress and queue (R178)? What observes has queues
of its own. -/
def State.headOfVoq (s : State) (p : Pkt) : Bool :=
  match s.sw.pkts.find? fun y =>
      y.inp == p.inp && y.out == p.out && y.queue == p.queue && decide (y.granted < y.cells) && !s.slotted y &&
      observes y == observes p && s.observesWeir y == s.observesWeir p with
  | some y => y.id == p.id
  | none => false

/-- Has the scheduler named a packet's queue, and does no packet of it cross or wait in staging yet (R179, R205)? -/
def State.calls (s : State) (p : Pkt) : Bool :=
  (s.ptx p.out).named == some p.queue &&
  !s.sw.pkts.any fun y => y.out == p.out && y.queue == p.queue && !y.started && decide (0 < y.granted)

/-! ### The running schedule's cell times (R422, R427, R436) -/

/-- The slot that runs k core cycles from now, with its table: of the running cycle, or of the next one with the committed
tables. -/
def State.weirSlot (s : State) (k : Nat) : Option (Nat × NMap Nat) :=
  let t := s.cyc.n + k - s.weir.base
  if !s.weirRunning || s.weir.realign.isSome then none
  else if t < s.weir.s then some (t, s.weir.table)
  else if k = 0 || s.weir.stopping then none
  else some (t - s.weir.s, s.weirTable)

/-- The reservations of the cell time k core cycles from now: (input, output). -/
def State.weirPairs (s : State) (k : Nat) : List (Nat × Nat) :=
  match s.weirSlot k with
  | some (n, t) => t.filterMap fun p => if p.1 / 96 = n then some (p.1 % 96, p.2) else none
  | none => []

/-- Is the cell time k core cycles from now an observation slot (R436)? Then no other input or output moves. -/
def State.observing (s : State) (k : Nat) : Bool := match s.weirSlot k with | some (n, _) => n % 32 == 31 | none => false

/-! ### Matching -/

/-- The requests of a plane (R178 to R180, R436) for the cell time three core cycles from now: continuations; from each input
the head of its queue for a named egress queue; heads toward internal outputs. -/
def State.asks (s : State) (x : Nat) : List Ask :=
  let obs := s.observing 3
  s.sw.pkts.filterMap fun p =>
    let o := outOf p
    let port := if p.out < 1024 then p.out else 0
    if s.slotted p || (if obs then !observes p else s.observesWeir p) then none
    else if p.granted = 0 then
      if s.cyc.n ≤ p.admCyc ∨ !s.headOfVoq p then none
      else if p.out < 1024 then (if s.calls p && s.stagingRoom o x 2 then some ⟨2, p.inp, o, port, p.id⟩ else none)
      else if s.stagingRoom o x 1 then some ⟨3, p.inp, o, port, p.id⟩ else none
    else if p.granted < p.cells ∧ p.granted < arrivedCells p s.cyc.n ∧ s.stagingRoom o x 1 then
      some ⟨1, p.inp, o, port, p.id⟩
    else none

/-- How far a round-robin pointer has to go. -/
def turn (ptr k m : Nat) : Nat := (k + m - ptr % m) % m

/-- How far the lane wheel of a port group has to go to a port: each port holds as many lanes as its active width (R180). -/
def State.laneTurn (s : State) (ptr n : Nat) : Nat :=
  if n % 16 ≤ ptr ∧ ptr < n % 16 + s.width n then 0 else turn ptr (n % 16) 16

/-- The grant of one output on plane x: highest priority, then the port by the wheel, then the input in turn (R179, R180). -/
def State.grantOf (s : State) (x o : Nat) (l : List Ask) : Option Ask :=
  let mine := l.filter fun a => a.out == o
  let best := mine.filter fun a => mine.all fun b => decide (a.prio ≤ b.prio)
  let wheel := mgetD s.sw.portPtr (96 * x + o) 0
  let inp := mgetD s.sw.outPtr (96 * x + o) 0
  minBy? (fun a => (if o < 64 then s.laneTurn wheel a.port else 0) * 4096 + turn inp a.inp 96) best

/-- What each input accepts among its grants (R180). -/
def State.acceptOf (s : State) (x i : Nat) (gs : List Ask) : Option Ask :=
  minBy? (fun a => turn (mgetD s.sw.inPtr (96 * x + i) 0) a.out 96) (gs.filter fun a => a.inp == i)

/-- The pointers after a grant accepted in the first iteration (R180). -/
def State.advanceTurns (s : State) (x : Nat) (a : Ask) : State :=
  let k := 96 * x + a.out
  let wheel := mgetD s.sw.portPtr k 0
  let lane := if s.laneTurn wheel a.port = 0 then wheel else a.port % 16
  { s with sw := { s.sw with
      outPtr := mput s.sw.outPtr k ((a.inp + 1) % 96)
      inPtr := mput s.sw.inPtr (96 * x + a.inp) ((a.out + 1) % 96)
      portPtr := if a.out < 64 then mput s.sw.portPtr k ((lane + 1) % 16) else s.sw.portPtr } }

/-- One iteration: grants of the free outputs, accepts of the free inputs. -/
def matchIter (x : Nat) (first : Bool) (l : List Ask) (acc : List Ask × State) : List Ask × State :=
  let (done, s) := acc
  let free := l.filter fun a => !done.any fun d => d.inp == a.inp || d.out == a.out
  let gs := (dedup (free.map fun a => a.out)).filterMap fun o => s.grantOf x o free
  let ok := (dedup (gs.map fun a => a.inp)).filterMap fun i => s.acceptOf x i gs
  (done ++ ok, if first then ok.foldl (fun st a => st.advanceTurns x a) s else s)

/-- The packets whose next cell a cell of a packet is: itself, and copies of one result at one group that are as far (R241). -/
def State.together (s : State) (id : Nat) : List Pkt :=
  match s.sw.pkts.find? fun p => p.id == id with
  | none => []
  | some p => s.sw.pkts.filter fun y => y.id == id || (twins p y && y.granted == p.granted && decide (y.admCyc < s.cyc.n))

/-- One plane's match (R179): three iterations; the cells cross three cell times later. DEDUCED (log 80). -/
def planeMatch (busyIn busyOut : List Nat) (s : State) (x : Nat) : State :=
  if !bitAt (s.get E.xbar_plane_state.s) x then s
  else
    let l := (s.asks x).filter fun a => !busyIn.contains a.inp && !busyOut.contains a.out
    let (ok, s) := matchIter x false l (matchIter x false l (matchIter x true l ([], s)))
    let ids := ok.flatMap fun a => (s.together a.pkt).map (·.id)
    { s with sw := { s.sw with
        pkts := s.sw.pkts.map fun p => if ids.contains p.id then { p with granted := p.granted + 1 } else p
        grants := s.sw.grants ++ ids.map fun id => (⟨x, id, s.cyc.n + 3⟩ : Grant) } }

/-- A cell crosses on plane x; a packet that has crossed whole to an internal output leaves the core for its end point. -/
def crossCell (x : Nat) (s : State) (id : Nat) : State :=
  match s.sw.pkts.find? fun p => p.id == id with
  | none => s
  | some p =>
    let p := { p with crossed := p.crossed + 1, planes := putBitAt p.planes p.crossed (x == 1) }
    if 1024 ≤ p.out ∧ p.cells ≤ p.crossed then
      let s := s.dropPkt p
      match p.body with
      | .rill h b => s.later (.deliver p.ingress h b p.arrFt)
      | .inner what b => s.later (.crossed (p.out - 1024) what b)
      | _ => s
    else s.setPkt p

/-- The crossbar input of a packet. -/
def State.inputOf (s : State) (id : Nat) : Nat := match s.sw.pkts.find? fun p => p.id == id with | some p => p.inp | none => 96

/-- The matches that take effect on this cell time, in ascending order of crossbar input (R471). -/
def crossDue (s : State) : State :=
  let due := sortBy (fun x y => decide (s.inputOf x.pkt < s.inputOf y.pkt)) (s.sw.grants.filter fun g => decide (g.due ≤ s.cyc.n))
  let s := { s with sw := { s.sw with grants := s.sw.grants.filter fun g => decide (s.cyc.n < g.due) } }
  due.foldl (fun st g => crossCell g.plane st g.pkt) s

/-! ### Reserved slots (R427, R436) -/

/-- The cell that input i sends to output o in a reserved slot (R427). -/
def State.weirPick (s : State) (i o : Nat) : Option Pkt :=
  let mine := s.sw.pkts.filter fun p => p.weir != 0 && p.inp == i && outOf p == o && decide (p.crossed < p.cells)
  let cont := mine.find? fun p => decide (0 < p.crossed) && decide (p.crossed < arrivedCells p s.cyc.n)
  let voq := fun (p : Pkt) => if p.out < 1024 then qSlot p.out p.queue else p.queue
  let heads := mine.filter fun p => p.crossed == 0 && decide (p.admCyc < s.cyc.n) && (match mine.find? (fun y => voq y == voq p) with
    | some y => y.id == p.id
    | none => false)
  match cont with
  | some p => some p
  | none => minBy? (fun p => turn (mgetD s.weir.voq (96 * i + o) 0) (voq p) 16384) heads

/-- One reserved slot of an input: a cell crosses on the lowest plane in service, or the slot stays idle.
DEDUCED (log 125). -/
def weirSend (s : State) (i o : Nat) : State :=
  match s.weirPick i o with
  | none => s.inc E.weir_idle_slots.s 1
  | some p =>
    let v := if p.out < 1024 then qSlot p.out p.queue else p.queue
    let s := if p.crossed = 0 then { s with weir := { s.weir with voq := mput s.weir.voq (96 * i + o) (v + 1) } } else s
    let plane := if bitAt (s.get E.xbar_plane_state.s) 0 then 0 else 1
    (s.together p.id).foldl (fun st y => crossCell plane (st.setPkt { y with granted := y.granted + 1 }) y.id) s

/-! ### Egress -/

/-- May the head packet of the named queue start (R154, R181)? -/
def State.mayStart (s : State) (n : Nat) (p : Pkt) : Bool :=
  decide (min 2 p.cells ≤ p.crossed) &&
  (decide (s.width n ≤ p.ingW) || p.ingress == 0xFFFF || decide (p.cells ≤ arrivedCells p s.cyc.n))

/-- A port that is idle and has a named queue starts its head packet, where the gates still let the frame start and end (R216); else
the frame waits for the next opening and the port names again. -/
def tryStart (s : State) (n : Nat) : State :=
  let t := s.ptx n
  match t.txPkt, t.named with
  | none, some q =>
    match s.headPkt n q with
    | some p =>
      if !s.mayStart n p then s
      else if s.gateLetsStart n q s.ft (s.frameLen n p) then startTx s n p
      else (s.gateWait n q).modTx n fun x => { x with named := none }
    | none => s.modTx n fun x => { x with named := none }
  | _, _ => s

/-- The next cell of a packet in transmission is missing when the port needs it (R181): the frame ends at once.
DEDUCED (log 86). -/
def underrun (s : State) (n : Nat) : State :=
  match (s.ptx n).txPkt with
  | none => s
  | some id =>
    match s.sw.pkts.find? fun p => p.id == id with
    | none => s
    | some p =>
      if p.crossed < p.cells ∧ p.crossed ≤ s.sentCells p then
        let s := ((s.inc E.xbar_underruns.s 1).inc (E.port_tx_stomped.n n) 1).emit (.stomp n)
        (s.endFrame n).dropPkt p
      else s

/-! ### The placements of a core cycle (R185) -/

/-- One placement. -/
def runTry (s : State) (t : Try) : State :=
  match t.kind with
  | .rill n bundle h payload len bad startFt => placeRill s n bundle h payload len bad startFt
  | .eth f => placeFrame s f
  | .again p => s.attempt p

/-- Has the last cell of a frame on the landing reserve arrived (R208)? -/
def State.landed (s : State) (f : EthIn) : Bool :=
  landedBy (ethCells f.bytes) (s.width f.port) f.cyc s.cyc.n == ethCells f.bytes

/-- The placements that come under one key: those of a port or of an Eddy input, then those of an internal source (R185, R186,
R466). -/
def placeKey (ts : List Try) (s : State) (k : Nat) : State :=
  let s := (ts.filter fun t => t.key == k).foldl runTry s
  let s := if k = 88 * 16 then springPlace s else s
  if k < 1024 then s else s.runSource (k / 16)

/-- The core cycle ends (R158, R175, R185, R211, R367, R393, R492, R560): its accesses to memory take effect, its requests to
the pools have their turns, host rings take their entries, a window at its limit closes; then releases come first, then its
placements in ascending order of crossbar input, and of ingress port within one. DEDUCED (log 80). -/
def closeCycle (s : State) : State :=
  let s := (poolTurns s.memEffects).releaseSurplus
  let s : State := s.cyc.rings.foldl (fun (st : State) r => st.later (.ringTake r)) s
  let s := if s.cyc.limit then s.later .recableLimit else s
  let ts := s.sw.tries ++ ((s.sw.landing.filter s.landed).map fun f => (⟨f.port, .eth f⟩ : Try))
  let s := { s with sw := { s.sw with tries := [], landing := s.sw.landing.filter fun f => !s.landed f } }
  let keys := (ts.map fun t => t.key) ++ (s.sw.held.map fun p => 16 * p.inp) ++ (if s.spring.wait = [] then [] else [88 * 16])
  (sortBy (fun a b => decide (a < b)) (dedup keys)).foldl (placeKey ts) s

/-! ### The cell time -/

/-- A new core cycle: what the same-cycle rules remember is forgotten (R38, R122, R503, R506, R512), and the sources injected on
the cycle before are raised (R513); FAULT_N is driven as the cycle before says (R507). DESIGN CHOICE (log 156). -/
def nextCycle (s : State) : State :=
  ({ s with cyc := ⟨s.cyc.n + 1, [], [], [], false, [], [], [], [], false⟩, macWritten := [], macLearnt := []
            flt := { s.flt with injected := [], drive := s.faultDriven } }).raiseAll s.flt.injected

/-- CELL_TIME_MATCH (R179 to R182, R185, R186, R427, R436, R466, R528): the core cycle completes its reserved slots, its match
on each plane, which leaves out what the schedule reserves where it takes effect, and its placements; on the next one the cells
of due matches cross, and ports start. DEDUCED (log 80); DESIGN CHOICE (log 158). -/
def cellTimeMatch (s : State) : State :=
  let s := (s.weirPairs 0).foldl (fun st p => weirSend st p.1 p.2) s
  let next := s.weirPairs 3
  let s := [0, 1].foldl (planeMatch (next.map (·.1)) (next.map (·.2))) s
  let s := (crossDue (nextCycle (closeCycle s))).slewWait
  s.portList.foldl (fun st n => tryStart (underrun st n) n) s

end Sys2Proof.Machine
end

