-- ==== Sys2Proof/Machine/Settle.lean ====
section
/-!
DEFINITION. What one command does to units other than its own: the work that it left is done in order, and then what waited
for it goes on. Scheduled actions that a load of FT jumped past fire here (R79, R80).
-/

namespace Sys2Proof.Machine

/-! ### Scheduled actions -/

/-- A launch fires (R80, R84): every bound object starts: the Weir schedule, the Spring streams, then lock-step. -/
def launchBound (s : State) : State :=
  let s := if s.get E.weir_state.s = 2 then s.weirGo else s
  let s := springsLaunch s
  if s.get E.lockstep_state.s = 2 then s.lockGo else s

/-- The next due action fires (R78, R80). -/
def fireDue (s : State) : State :=
  match s.dueAct with
  | none => s
  | some a =>
    match a.kind with
    | .snap => snapshotFire s
    | .commit _ => txCommitFire s
    | .launch => launchBound { launchFire s with todo := s.todo }
    | .weirStart => weirStartFire s
    | .gateStart _ => gateStartFire s
    | .gateSwitch _ => gateSwitchLand s
    | .springStart _ => springStartFire s
    | .lockstep => s.lockDue
    | .recable => recableOpenFire s
    | .traceOpen _ => traceOpenFire s
    | .traceClose _ => traceCloseFire s
    | .pwrEnter _ => pwrEnterFire s
    | .shutdown => pwrEnterFire s
    | .fwActivate _ => fwActivateFire s
    | .rackReset => rackResetFire s

/-- FT was loaded (R79, R219, R424): the actions jumped past fire on this cycle, in the order of R80; running gate lists and
the Weir schedule realign. DEDUCED (log 49). -/
def ftWasLoaded (s : State) (old new : Nat) : State :=
  let n := if old < new then (s.acts.filter fun a => decide (a.ft ≤ new)).length else 0
  let s := (List.range n).foldl (fun st _ => fireDue st) s
  weirFtLoaded ((s.liveIdx 9).foldl (fun st i => gateRealign st old new i) s) new

/-! ### Losses -/

/-- A CXL port was lost (R377, R398): pools there fail, and running jobs with an access there end with 0x0B. -/
def cxlLost (s : State) (c : Nat) : State :=
  let s := poolsCxlLost s c
  s.abortJobs (fun j => j.state == 1 && (s.rangesOf j).any fun r => (s.cxlsOf r.1 r.2.1).contains c) 0x0B

/-- The slots of collective i that are buffers of pool p (R235). DEDUCED (log 97). -/
def overflowSlots (s : State) (i p : Nat) : List Nat :=
  let bufs := (s.crt i).overBufs
  let per := ceilDiv (max 1 (s.slotBytes i)) (max 1 (s.get (E.pool_buffer_size.h p)))
  let w := s.get (E.collective_window.h i)
  if bufs.any fun x => x.1 == p then (List.range w).drop (w - bufs.length / max 1 per) else []

/-- A pool entered Failed (R398, R412, R467, R495): segments in its overflow slots abort, its sequences fail, its streams, trace
sessions and rings stop. -/
def poolFailed (s : State) (p : Nat) : State :=
  let s := (s.liveIdx 1).foldl (fun st i => (overflowSlots st i p).foldl (fun acc k => reservoirSlot acc i k) st) s
  ringPoolLost (tracePoolLost (springPoolLost (seqsFail s p) p false) p false) p

/-- A sequence entered Failed (R412): its running jobs end with 0x0B, those that wait with 0x0C. DEDUCED (log 121). -/
def seqFailed (s : State) (i : Nat) : State :=
  (s.abortJobs (fun j => j.state == 1 && j.seq == some i) 0x0B).abortJobs (fun j => j.seq == some i) 0x0C

/-! ### The work of a command -/

/-- What crossed to a unit (R21): a sample record, for the host's sample ring or for the Curator (R191); a record for the
Archive, or what it writes (R459); a copy for Gauge (R470); an epilogue's values or its result (R249); an operand of a job,
whose bytes the job takes from memory as it completes (R368). -/
def crossed (s : State) (o : Nat) (what : Inner) (b : List Byte) : State :=
  match what with
  | .sample n _ => if o = 85 then s.later (.hostRecord 1 1 n 0 0 b) else s.emit (.device 84 (b.map fun x => x.toNat))
  | .archive i _ => archiveRecord s i b
  | .archiveWrite i buf a => archiveWritten s i buf a b
  | .gauge i tap n ending idle ft => gaugeCopied s i (gFrame tap n b ending idle ft)
  | .handOver id => handedOver s id b
  | .handBack id => handedBack s id b
  | .operand _ => s

/-- One piece of work. DEDUCED (log 3). -/
def runTodo (s : State) (t : Todo) : State :=
  match t with
  | .blockReset u => blockReset s u
  | .memberLost n => collMemberLost s n
  | .ftLoaded old new => ftWasLoaded s old new
  | .syncLeft => weirSyncLeft s
  | .launch => launchBound s
  | .record kind part layer op handle port body => traceEvent s kind part layer op handle port body
  | .wakeEvent src => wakeEvent s src
  | .scanOpens => s.scanOpens
  | .arrive n b crc words idle ft => rillFrame s n b crc words false idle ft
  | .arriveEth n b fcs words ft => ethReceive s n b fcs false words ft
  | .crossed o what b => crossed s o what b
  | .millFault x => millFailure s x true
  | .deliver n h payload ft => deliver s n 0 h payload ft
  | .barrierRelease h => collReleased s (hIdx h)
  | .mrDigest p payload => lockDigestFrame s p payload
  | .poolFailed p => poolFailed s p
  | .controlClose n => s.controlClose n
  | .hostRecord ring typ port sess cnt b => hostStage s ring typ port sess cnt b
  | .archiveRing => ringArchive s
  | .datagram src b => udpDatagram s src b
  | .chipReset cause => s.chipReset cause
  | .forceDestroy t i => forceDestroy s t i
  | .gaugeTx n b stomped => gaugeTransmit s n b stomped
  | .digest n b weir => lockFrame s n b weir
  | .arriveTunnel n b outer stomp ft => arriveTunnel s n b outer stomp ft
  | .cxlLost c => cxlLost s c
  | .stackFailed h => poolsStackLost s h
  | .seqFailed i => seqFailed s i
  | .upkeep => s.lockDue
  | .routerMap c b => routerMap s c b
  | .ringTake r => ringTake s r
  | .recableLimit => s.recableExpire

/-- The work in order, what it leaves behind it included. DEDUCED (log 3). -/
def drain : Nat → State → State
  | 0, s => s
  | k + 1, s =>
    match s.todo with
    | [] => s
    | t :: ts => drain k (runTodo { s with todo := ts } t)

/-- What waited for the work: ports that are being disabled (R379), lock-step without its peer (R441), held aperture accesses
(R527), waiting requests (R526), the FAULT_N line (R508). DEDUCED (log 3). -/
def upkeep (s : State) : State :=
  let s := if s.ms.disabling = [] then s else s.cxlQuiesce
  let s := lockPeerLost s
  let s := if s.ms.apHeld = [] then s else s.apServe
  let s := if s.mgmt.parked = [] then s else unpark s
  s.pinTrack

/-- The work of a command and what it lets go on, until nothing is left; the counts bound a command's work far above any that
a command leaves. DEDUCED (log 3). -/
def settleN : Nat → State → State
  | 0, s => { s with todo := [] }
  | k + 1, s => if s.todo = [] then s else settleN k (upkeep (drain 65536 s))

/-- A command's effect completed: its work is done. DEDUCED (log 3). -/
def settle (s : State) : State := settleN 64 s

/-- The outcome of a command with effect `t` on `s`: the settled state, the queue as it was.
DEDUCED (log 3); DESIGN CHOICE (log 6). -/
def complete (s t : State) : Host.Outcome State Fault Refusal := .next { settle t with pending := s.pending }

end Sys2Proof.Machine
end

