-- ==== Sys2Proof/Machine/CmdArchive.lean ====
section
/-!
DEFINITION. The meanings of the commands about snapshots, attribution and the Archive (spec/16): each is its effect and what that leaves to do.
-/

namespace Sys2Proof.Machine

/-- SNAP_AT: a snapshot is scheduled (R449). -/
def execSnapAt (req : Req) (ft : Nat) (s : State) : Host.Outcome State Fault Refusal :=
  complete s (writeCmd s req E.snap_at 0 0 0 ft)

/-- SNAPSHOT_FIRE: the values are captured (R450). -/
def execSnapshotFire (s : State) : Host.Outcome State Fault Refusal :=
  complete s (snapshotFire s).lockFollow

/-- SNAPSHOT_SHADOW_READY: the capture reaches the shadows (R450). -/
def execSnapshotShadowReady (s : State) : Host.Outcome State Fault Refusal :=
  complete s (snapshotReady s)

/-- ATTR_RESET: the attribution table is cleared (R448). -/
def execAttrReset (req : Req) (v : Nat) (s : State) : Host.Outcome State Fault Refusal :=
  complete s (writeCmd s req E.attr_reset 0 0 0 v)

/-- TRACE_OPEN_AT: a trace session is to open (R454). -/
def execTraceOpenAt (req : Req) (h : Nat) (ft : Nat) (s : State) : Host.Outcome State Fault Refusal :=
  complete s (writeCmd s req E.trace_open_at 0 0 h ft)

/-- TRACE_OPEN_FIRE: a trace session opens (R454). -/
def execTraceOpenFire (s : State) : Host.Outcome State Fault Refusal :=
  complete s (traceOpenFire s)

/-- TRACE_CLOSE_AT: a trace session is to close (R454). -/
def execTraceCloseAt (req : Req) (h : Nat) (ft : Nat) (s : State) : Host.Outcome State Fault Refusal :=
  complete s (writeCmd s req E.trace_close_at 0 0 h ft)

/-- TRACE_CLOSE_FIRE: a trace session closes (R454). -/
def execTraceCloseFire (s : State) : Host.Outcome State Fault Refusal :=
  complete s (traceCloseFire s)

/-- TRACE_NEXT: the oldest published buffer is taken (R455). -/
def execTraceNext (req : Req) (h : Nat) (s : State) : Host.Outcome State Fault Refusal :=
  complete s (serve s .plain req 1 [⟨E.trace_next.idx, E.trace_next.sub, 0, h, 0, []⟩])

end Sys2Proof.Machine
end

