-- ==== Sys2Proof/Machine/CmdCatalogue.lean ====
section
/-!
DEFINITION. The meanings of the commands about requests, transactions, sessions and transports (spec/02_catalogue.md): each is its effect and what that leaves to do.
-/

namespace Sys2Proof.Machine

/-- READ: the items of a READ in order (R32, R55). -/
def execRead (req : Req) (items : List Item) (s : State) : Host.Outcome State Fault Refusal :=
  complete s (serve s .plain req 0x1 items)

/-- WRITE: the items of a WRITE in order, stopping at the first that fails outside a transaction (R48, R55). -/
def execWrite (req : Req) (items : List Item) (s : State) : Host.Outcome State Fault Refusal :=
  complete s (serve s .plain req 0x2 items)

/-- READ_BLOCK: byte ranges of DOMAIN entries (R32). -/
def execReadBlock (req : Req) (items : List Item) (s : State) : Host.Outcome State Fault Refusal :=
  complete s (serve s .plain req 0x3 items)

/-- WRITE_BLOCK: byte ranges written to DOMAIN entries (R32, R48). -/
def execWriteBlock (req : Req) (items : List Item) (s : State) : Host.Outcome State Fault Refusal :=
  complete s (serve s .plain req 0x4 items)

/-- CREATE: handles created (R42, R43). -/
def execCreate (req : Req) (items : List Item) (s : State) : Host.Outcome State Fault Refusal :=
  complete s (serve s .plain req 0x10 items)

/-- DESTROY: handles destroyed, with their abort path where forced (R47). -/
def execDestroy (req : Req) (items : List Item) (s : State) : Host.Outcome State Fault Refusal :=
  complete s (serve s .plain req 0x11 items)

/-- TX_OPEN: a transaction opens (R49). -/
def execTxOpen (req : Req) (s : State) : Host.Outcome State Fault Refusal :=
  complete s (serve s .plain req 0x20 [])

/-- TX_COMMIT: a commit now, or scheduled at an FT (R50, R51). -/
def execTxCommit (req : Req) (ft : Nat) (s : State) : Host.Outcome State Fault Refusal :=
  complete s (serve s .plain req 0x21 [⟨0, 0, 0, 0, 0, leBytes 8 ft⟩])

/-- TX_COMMIT_FIRE: the scheduled commit whose turn has come (R50). -/
def execTxCommitFire (s : State) : Host.Outcome State Fault Refusal :=
  complete s (txCommitFire s).lockFollow

/-- TX_ABORT: an open or scheduled transaction ends (R51). -/
def execTxAbort (req : Req) (s : State) : Host.Outcome State Fault Refusal :=
  complete s (serve s .plain req 0x22 [])

/-- TX_STATUS: the state and commit status of a transaction (R51). -/
def execTxStatus (req : Req) (s : State) : Host.Outcome State Fault Refusal :=
  complete s (serve s .plain req 0x23 [])

/-- TX_INACTIVITY_TIMEOUT: an open transaction with no activity for 10 s (R53). -/
def execTxInactivityTimeout (id : Nat) (s : State) : Host.Outcome State Fault Refusal :=
  complete s (txInactivity s id)

/-- SESSION_OPEN: credentials are judged and a session opens (R484). -/
def execSessionOpen (req : Req) (data : List Byte) (s : State) : Host.Outcome State Fault Refusal :=
  complete s (serve s .plain req 0x30 [⟨0, 0, 0, 0, 0, data⟩])

/-- SESSION_CLOSE: a session closes (R53). -/
def execSessionClose (req : Req) (s : State) : Host.Outcome State Fault Refusal :=
  complete s (serve s .plain req 0x31 [])

/-- SUBSCRIBE: notification masks of a session (R510). -/
def execSubscribe (req : Req) (items : List Item) (s : State) : Host.Outcome State Fault Refusal :=
  complete s (serve s .plain req 0x41 items)

/-- PDU_RECEIVE: a request PDU taken whole from a transport (R54, R56). -/
def execPduReceive (via : Transport) (src : Nat) (bytes : List Byte) (s : State) : Host.Outcome State Fault Refusal :=
  complete s (receivePdu s .plain via src bytes)

/-- MCTP_MESSAGE: a vendor-defined MCTP message (R58). -/
def execMctpMessage (eid : Nat) (bytes : List Byte) (s : State) : Host.Outcome State Fault Refusal :=
  complete s (mctpMessage s eid bytes)

/-- UDP_DATAGRAM: a datagram of the management port (R58, R485). -/
def execUdpDatagram (src : Nat) (bytes : List Byte) (s : State) : Host.Outcome State Fault Refusal :=
  complete s (udpDatagram s src bytes)

/-- MAILBOX_DOORBELL: the host rings the mailbox (R59). -/
def execMailboxDoorbell (ring : Ring) (window : List Byte) (s : State) : Host.Outcome State Fault Refusal :=
  complete s (mailboxDoorbell s ring window)

/-- MAILBOX_RESPONSE_DONE: the response is complete in the window (R59). -/
def execMailboxResponseDone (s : State) : Host.Outcome State Fault Refusal :=
  complete s (mailboxResponseDone s)

/-- QUARANTINE_END: the quiet interval of an index has ended (R44). -/
def execQuarantineEnd (t : Nat) (i : Nat) (s : State) : Host.Outcome State Fault Refusal :=
  complete s (quarantineEnd s t i)

/-- CREATION_QUIET_END: creation opens (R46). -/
def execCreationQuietEnd (s : State) : Host.Outcome State Fault Refusal :=
  complete s (creationQuietEnd s)

/-- SESSION_LOCKOUT_END: a lockout ends (R484). -/
def execSessionLockoutEnd (s : State) : Host.Outcome State Fault Refusal :=
  complete s (lockoutEnd s)

end Sys2Proof.Machine
end

