-- ==== Sys2Proof/Machine/CmdConfluence.lean ====
section
/-!
DEFINITION. The meanings of the commands about collectives (spec/09_confluence_collectives.md): each is its effect and what that leaves to do.
-/

namespace Sys2Proof.Machine

/-- COLLECTIVE_ARM: a collective is armed (R230). -/
def execCollectiveArm (req : Req) (h : Nat) (v : Nat) (s : State) : Host.Outcome State Fault Refusal :=
  complete s (writeCmd s req E.collective_arm 0 0 h v)

/-- COLLECTIVE_DISARM: an Armed collective returns to Created (R229). -/
def execCollectiveDisarm (req : Req) (h : Nat) (v : Nat) (s : State) : Host.Outcome State Fault Refusal :=
  complete s (writeCmd s req E.collective_disarm 0 0 h v)

/-- SEGMENT_REDUCTION_DONE: the reduction of a segment completes (R241). -/
def execSegmentReductionDone (i : Nat) (seg : Nat) (s : State) : Host.Outcome State Fault Refusal :=
  complete s (segmentDone s i seg)

/-- EPILOGUE_RESULT: an epilogue job returned (R249). -/
def execEpilogueResult (i : Nat) (seg : Nat) (s : State) : Host.Outcome State Fault Refusal :=
  complete s (epilogueResult s i seg)

/-- EPILOGUE_PLACE_FREE: an engine hands over a held epilogue (R327). -/
def execEpiloguePlaceFree (e : Nat) (s : State) : Host.Outcome State Fault Refusal :=
  complete s (epiloguePlaceFree s e)

/-- LAGGARD_TIMEOUT: the laggard timer of a segment expires (R258). -/
def execLaggardTimeout (i : Nat) (seg : Nat) (s : State) : Host.Outcome State Fault Refusal :=
  complete s (laggardTimeout s i seg)

end Sys2Proof.Machine
end

