-- ==== Sys2Proof/Machine/CmdFaults.lean ====
section
/-!
DEFINITION. The meanings of the commands about faults and reactions (spec/19): each is its effect and what that leaves to do.
-/

namespace Sys2Proof.Machine

/-- FAULT_SETTING: the conditions of sources occur (R502, R506). -/
def execFaultSetting (srcs : List Nat) (s : State) : Host.Outcome State Fault Refusal :=
  complete s (faultSetting s srcs)

/-- CHIP_RESET_REACTION: a pending chip reset begins (R506). -/
def execChipResetReaction (s : State) : Host.Outcome State Fault Refusal :=
  complete s (chipResetReaction s)

/-- FAULT_N_EXTERNAL: the level that others give FAULT_N (R508). -/
def execFaultNExternal (low : Bool) (s : State) : Host.Outcome State Fault Refusal :=
  complete s (faultNExternal s low)

/-- FAULT_N_STUCK: FAULT_N low for 10 ms (R509). -/
def execFaultNStuck (s : State) : Host.Outcome State Fault Refusal :=
  complete s (faultNStuck s)

/-- FAULT_PIN_REARM: the sampling of FAULT_N (R509). -/
def execFaultPinRearm (req : Req) (v : Nat) (s : State) : Host.Outcome State Fault Refusal :=
  complete s (writeCmd s req E.fault_pin_rearm 0 0 0 v)

/-- FAULT_INJECT: a source raised in the Factory state (R513). -/
def execFaultInject (req : Req) (v : Nat) (s : State) : Host.Outcome State Fault Refusal :=
  complete s (writeCmd s req E.fault_inject 0 0 0 v)

/-- BLOCK_RESET_DONE: a block reset completes (R506). -/
def execBlockResetDone (u : Nat) (s : State) : Host.Outcome State Fault Refusal :=
  complete s (blockResetDone s u)

end Sys2Proof.Machine
end

