-- ==== Sys2Proof/Machine/CmdGates.lean ====
section
/-!
DEFINITION. The meanings of the commands about time gates (spec/08_queues_shapers_policers_gates.md): each is its effect and what that leaves to do.
-/

namespace Sys2Proof.Machine

/-- GATE_START: a gate list is to start (R217). -/
def execGateStart (req : Req) (h : Nat) (ft : Nat) (s : State) : Host.Outcome State Fault Refusal :=
  complete s (writeCmd s req E.gate_start 0 0 h ft)

/-- GATE_START_FIRE: a gate list starts (R217). -/
def execGateStartFire (s : State) : Host.Outcome State Fault Refusal :=
  complete s (gateStartFire s).lockFollow

/-- GATE_BOUNDARY: the boundary of a gate entry (R215, R218). -/
def execGateBoundary (n : Nat) (s : State) : Host.Outcome State Fault Refusal :=
  complete s (gateBoundary s n)

/-- GATE_STOP: a gate list stops (R217). -/
def execGateStop (req : Req) (h : Nat) (v : Nat) (s : State) : Host.Outcome State Fault Refusal :=
  complete s (writeCmd s req E.gate_stop 0 0 h v)

/-- GATE_SWITCH_AT: a switch to the alternate list (R218). -/
def execGateSwitchAt (req : Req) (h : Nat) (ft : Nat) (s : State) : Host.Outcome State Fault Refusal :=
  complete s (writeCmd s req E.gate_switch_at 0 0 h ft)

/-- GATE_SWITCH_LAND: a scheduled switch request lands (R218). -/
def execGateSwitchLand (s : State) : Host.Outcome State Fault Refusal :=
  complete s (gateSwitchLand s).lockFollow

end Sys2Proof.Machine
end

