-- ==== Sys2Proof/Machine/CmdHost.lean ====
section
/-!
DEFINITION. The meanings of the commands about the Curator, firmware, sideband, management port and host endpoint (spec/18): each is its effect and what that leaves to do.
-/

namespace Sys2Proof.Machine

/-- CURATOR_SAFETY_MISMATCH: the cores of the safety pair disagree (R476). -/
def execCuratorSafetyMismatch (s : State) : Host.Outcome State Fault Refusal :=
  complete s (curatorMismatch s)

/-- CURATOR_WATCHDOG_RESTART: a missed watchdog restarts the general cores (R476, R477). -/
def execCuratorWatchdogRestart (s : State) : Host.Outcome State Fault Refusal :=
  complete s (curatorWatchdog s)

/-- CURATOR_READY: the restarted firmware is ready (R477). -/
def execCuratorReady (s : State) : Host.Outcome State Fault Refusal :=
  complete s (curatorReady s)

/-- FW_VERIFY: the inactive slot is verified (R479). -/
def execFwVerify (req : Req) (v : Nat) (s : State) : Host.Outcome State Fault Refusal :=
  complete s (writeCmd s req E.fw_verify 0 0 0 v)

/-- FW_ACTIVATE: the activation of the verified slot (R479). -/
def execFwActivate (req : Req) (ft : Nat) (s : State) : Host.Outcome State Fault Refusal :=
  complete s (writeCmd s req E.fw_activate 0 0 0 ft)

/-- FW_ACTIVATE_FIRE: the activation fires (R480). -/
def execFwActivateFire (s : State) : Host.Outcome State Fault Refusal :=
  complete s (fwActivateFire s)

/-- FW_FALLBACK: the previous slot is started (R480). -/
def execFwFallback (s : State) : Host.Outcome State Fault Refusal :=
  complete s (fwFallback s)

/-- FW_COMMIT: the running slot becomes permanent (R480). -/
def execFwCommit (req : Req) (v : Nat) (s : State) : Host.Outcome State Fault Refusal :=
  complete s (writeCmd s req E.fw_commit 0 0 0 v)

/-- LC_ADVANCE: the next life-cycle state (R482). -/
def execLcAdvance (req : Req) (v : Nat) (s : State) : Host.Outcome State Fault Refusal :=
  complete s (writeCmd s req E.lc_advance 0 0 0 v)

/-- SPDM_REQUEST: an SPDM request (R486). -/
def execSpdmRequest (eid : Nat) (bytes : List Byte) (s : State) : Host.Outcome State Fault Refusal :=
  complete s (spdmRequest s eid bytes)

/-- SET_ENDPOINT_ID: the MCTP endpoint ID (R487). -/
def execSetEndpointId (eid : Nat) (s : State) : Host.Outcome State Fault Refusal :=
  complete s (setEndpointId s eid)

/-- SIDEBAND_STUCK: SB_SDA low for 10 ms (R488). -/
def execSidebandStuck (s : State) : Host.Outcome State Fault Refusal :=
  complete s (sidebandStuck s)

/-- SIDEBAND_RECOVERY_ROUND: another round of pulses (R488). -/
def execSidebandRecoveryRound (low : Bool) (s : State) : Host.Outcome State Fault Refusal :=
  complete s (sidebandRound s low)

/-- SIDEBAND_FAILED: the sideband fails (R488). -/
def execSidebandFailed (sclAlone : Bool) (s : State) : Host.Outcome State Fault Refusal :=
  complete s (sidebandFailed s sclAlone)

/-- MCTP_RESTART: a failed sideband restarts (R488). -/
def execMctpRestart (req : Req) (v : Nat) (s : State) : Host.Outcome State Fault Refusal :=
  complete s (writeCmd s req E.mctp_restart 0 0 0 v)

/-- MGMT_FRAME_RECEIVE: a frame of the management port (R489). -/
def execMgmtFrameReceive (bytes : List Byte) (s : State) : Host.Outcome State Fault Refusal :=
  complete s (mgmtFrame s bytes)

/-- APERTURE_ACCESS: a host access through the aperture (R491). -/
def execApertureAccess (write : Bool) (off : Nat) (len : Nat) (data : List Byte) (s : State) : Host.Outcome State Fault Refusal :=
  complete s (apertureAccess s write off len data)

/-- RING_TAIL: the host posts entries (R492), and may clear flags of the ring (R490). -/
def execRingTail (r : Nat) (post : Post) (entries : List (List Byte)) (s : State) : Host.Outcome State Fault Refusal :=
  complete s (ringTail s r post entries)

/-- HRING_ENABLE: a ring starts or stops (R492). -/
def execHringEnable (req : Req) (r : Nat) (v : Nat) (s : State) : Host.Outcome State Fault Refusal :=
  complete s (writeCmd s req E.hring_enable r 0 0 v)

/-- RING_RECORD_DELIVER: a record is written to the host (R493). -/
def execRingRecordDeliver (r : Nat) (s : State) : Host.Outcome State Fault Refusal :=
  complete s (ringDeliver s r)

/-- RING_IRQ_HOLDOFF: the holdoff of a ring expires (R493). -/
def execRingIrqHoldoff (r : Nat) (s : State) : Host.Outcome State Fault Refusal :=
  complete s (ringIrq s r)

/-- TX_DESCRIPTOR: a descriptor of the transmit ring (R496). -/
def execTxDescriptor (data : List Byte) (s : State) : Host.Outcome State Fault Refusal :=
  complete s (txDescriptor s data)

end Sys2Proof.Machine
end

