-- ==== Sys2Proof/Machine/CmdMemory.lean ====
section
/-!
DEFINITION. The meanings of the commands about windows and memory tiers (spec/13): each is its effect and what that leaves to do.
-/

namespace Sys2Proof.Machine

/-- MEMORY_ACCESS_COMPLETE: an access reaches its serialisation points, and takes effect as the core cycle ends (R364, R367). -/
def execMemoryAccessComplete (id : Nat) (chk : EccCheck) (s : State) : Host.Outcome State Fault Refusal :=
  complete s (memAccessComplete s id chk)

/-- WINDOW_OPEN: a window opens, or closes (R359). -/
def execWindowOpen (req : Req) (h : Nat) (v : Nat) (s : State) : Host.Outcome State Fault Refusal :=
  complete s (writeCmd s req E.window_open 0 0 h v)

/-- WINDOW_CLOSING_END: a Closing window is done (R358). -/
def execWindowClosingEnd (i : Nat) (s : State) : Host.Outcome State Fault Refusal :=
  complete s (windowClosingEnd s i)

/-- T2_FILL_RETURN: a fill of the read cache returns (R372). -/
def execT2FillReturn (id : Nat) (line : Nat) (poisoned : Bool) (s : State) : Host.Outcome State Fault Refusal :=
  complete s (t2FillReturn s id line poisoned)

/-- CXL_INVALIDATE: the lines of a CXL port go (R373). -/
def execCxlInvalidate (req : Req) (c : Nat) (v : Nat) (s : State) : Host.Outcome State Fault Refusal :=
  complete s (writeCmd s req E.cxl_invalidate c 0 0 v)

/-- CXL_TIMEOUT: a request to an expander times out (R376). -/
def execCxlTimeout (id : Nat) (s : State) : Host.Outcome State Fault Refusal :=
  complete s (cxlTimeout s id)

/-- CXL_PORT_LOST: a CXL port is lost (R377). -/
def execCxlPortLost (c : Nat) (s : State) : Host.Outcome State Fault Refusal :=
  complete s (cxlPortLost s c)

/-- CXL_DEVICE_APPEAR: a device trains on a CXL port (R378), but not while the general cores restart (R477). -/
def execCxlDeviceAppear (c : Nat) (width : Nat) (size : Nat) (ident : Nat) (slow : Bool) (s : State) : Host.Outcome State Fault Refusal :=
  complete s (if s.mgmt.restarting then s else cxlDeviceAppear s c ⟨width, size, ident, slow⟩)

/-- CXL_RESUME: a Held port becomes Active (R378). -/
def execCxlResume (req : Req) (c : Nat) (v : Nat) (s : State) : Host.Outcome State Fault Refusal :=
  complete s (writeCmd s req E.cxl_resume c 0 0 v)

/-- CXL_ENABLE: a CXL port is disabled in order, or retrained (R379). -/
def execCxlEnable (req : Req) (c : Nat) (v : Nat) (s : State) : Host.Outcome State Fault Refusal :=
  complete s (writeCmd s req E.cxl_enable c 0 0 v)

/-- HBM_STACK_FAIL: a Tier 1 stack fails (R381). -/
def execHbmStackFail (h : Nat) (s : State) : Host.Outcome State Fault Refusal :=
  complete s (hbmStackFail s h)

end Sys2Proof.Machine
end

