-- ==== Sys2Proof/Machine/CmdMillrace.lean ====
section
/-!
DEFINITION. The meanings of the commands about Millrace links and their frames (spec/04_millrace.md): each is its effect and what that leaves to do.
-/

namespace Sys2Proof.Machine

/-- ARM: an arm frame (R105). -/
def execArm (p : Nat) (rx : MrRx) (seq : Nat) (target : Nat) (s : State) : Host.Outcome State Fault Refusal :=
  complete s (armFrame s p rx seq target)

/-- CONFIRM: a confirm frame (R105). -/
def execConfirm (p : Nat) (rx : MrRx) (seq : Nat) (s : State) : Host.Outcome State Fault Refusal :=
  complete s (confirmFrame s p rx seq)

/-- ABORT: an abort frame (R105). -/
def execAbort (p : Nat) (rx : MrRx) (seq : Nat) (s : State) : Host.Outcome State Fault Refusal :=
  complete s (abortFrame s p rx seq)

/-- CONFIRM_DEADLINE: no confirm by the deadline (R105). -/
def execConfirmDeadline (seq : Nat) (s : State) : Host.Outcome State Fault Refusal :=
  complete s (confirmDeadline s seq)

/-- ABORTED_SEQUENCE_EXPIRE: an aborted number is forgotten (R105). -/
def execAbortedSequenceExpire (seq : Nat) (s : State) : Host.Outcome State Fault Refusal :=
  complete s (abortedExpire s seq)

/-- MISSED_NOTICE_REPEAT: a missed notice is sent again (R106). -/
def execMissedNoticeRepeat (p : Nat) (s : State) : Host.Outcome State Fault Refusal :=
  complete s (noteRepeat s p)

/-- MISSED_NOTICE_SLEEP_AGAIN: a direction woken for notices sleeps again (R106). -/
def execMissedNoticeSleepAgain (p : Nat) (s : State) : Host.Outcome State Fault Refusal :=
  complete s (noteSleepAgain s p)

/-- MILLRACE_ROLE_WRITE: the role of a Millrace port (R90). -/
def execMillraceRoleWrite (req : Req) (p : Nat) (v : Nat) (s : State) : Host.Outcome State Fault Refusal :=
  complete s (writeCmd s req E.millrace_role p 0 0 v)

/-- DETECT_PROBE: a receiver-detect probe (R97). -/
def execDetectProbe (p : Nat) (found : Bool) (s : State) : Host.Outcome State Fault Refusal :=
  complete s (detectProbe s p found)

/-- TRAIN_PHASE_ALIGNED: both lanes aligned (R97). -/
def execTrainPhaseAligned (p : Nat) (s : State) : Host.Outcome State Fault Refusal :=
  complete s (trainAligned s p)

/-- SYMBOL_LOCK_ACHIEVED: both lock conditions hold (R97). -/
def execSymbolLockAchieved (p : Nat) (s : State) : Host.Outcome State Fault Refusal :=
  complete s (symbolLock s p)

/-- BRINGUP_TIMEOUT: a bring-up stage times out (R97). -/
def execBringupTimeout (p : Nat) (s : State) : Host.Outcome State Fault Refusal :=
  complete s (bringupTimeout s p)

/-- CAPABILITY: a capability frame (R98). -/
def execCapability (p : Nat) (rx : MrRx) (payload : List Byte) (s : State) : Host.Outcome State Fault Refusal :=
  complete s (capability s p rx payload)

/-- ROLE_MISMATCH_RETRY: the capability exchange is tried again (R98). -/
def execRoleMismatchRetry (p : Nat) (s : State) : Host.Outcome State Fault Refusal :=
  complete s (mismatchRetry s p)

/-- DELAY_PROBE: a delay probe is echoed (R99). -/
def execDelayProbe (p : Nat) (rx : MrRx) (n : Nat) (turn : Nat) (s : State) : Host.Outcome State Fault Refusal :=
  complete s (delayProbe s p rx n turn)

/-- DELAY_ECHO: a delay echo arrives (R99). -/
def execDelayEcho (p : Nat) (rx : MrRx) (n : Nat) (turn : Nat) (edge : Nat) (s : State) : Host.Outcome State Fault Refusal :=
  complete s (delayEcho s p rx n turn edge)

/-- CODE_ERROR: an invalid symbol begins a bubble (R96). -/
def execCodeError (p : Nat) (s : State) : Host.Outcome State Fault Refusal :=
  complete s (codeError s p)

/-- MILLRACE_LOCK_LOSS: a bubble of 1,024 pair times loses the lock (R103). -/
def execMillraceLockLoss (p : Nat) (stuck0 : Bool) (stuck1 : Bool) (s : State) : Host.Outcome State Fault Refusal :=
  complete s (mrLockLoss s p stuck0 stuck1)

/-- CLOCK_LOST: no clock edge for 16 ns (R103). -/
def execClockLost (p : Nat) (s : State) : Host.Outcome State Fault Refusal :=
  complete s (clockLost s p)

/-- MILLRACE_LOOPBACK_WRITE: the loopback of a Millrace port (R100). -/
def execMillraceLoopbackWrite (req : Req) (p : Nat) (v : Nat) (s : State) : Host.Outcome State Fault Refusal :=
  complete s (writeCmd s req E.millrace_loopback p 0 0 v)

/-- MILLRACE_PRBS_WRITE: the test pattern of a Millrace port (R100). -/
def execMillracePrbsWrite (req : Req) (p : Nat) (v : Nat) (s : State) : Host.Outcome State Fault Refusal :=
  complete s (writeCmd s req E.millrace_prbs p 0 0 v)

/-- TX_SLEEP: the transmit direction sleeps or wakes (R101). -/
def execTxSleep (req : Req) (p : Nat) (v : Nat) (s : State) : Host.Outcome State Fault Refusal :=
  complete s (writeCmd s req E.millrace_tx_sleep p 0 0 v)

/-- SLEEP: a sleep frame (R101). -/
def execSleep (p : Nat) (rx : MrRx) (s : State) : Host.Outcome State Fault Refusal :=
  complete s (sleepFrame s p rx)

/-- TX_WAKE_TIMEOUT: a wake that does not become active (R102). -/
def execTxWakeTimeout (p : Nat) (s : State) : Host.Outcome State Fault Refusal :=
  complete s (txWakeTimeout s p)

/-- RECEIVE_WAKE: clock activity wakes a sleeping receiver (R102). -/
def execReceiveWake (p : Nat) (s : State) : Host.Outcome State Fault Refusal :=
  complete s (receiveWake s p)

/-- SEND_WAKE: a wake frame is sent (R102). -/
def execSendWake (req : Req) (p : Nat) (v : Nat) (s : State) : Host.Outcome State Fault Refusal :=
  complete s (writeCmd s req E.millrace_send_wake p 0 0 v)

/-- WAKE: a wake frame arrives (R102). -/
def execWake (p : Nat) (s : State) : Host.Outcome State Fault Refusal :=
  complete s (wakeFrame s p)

/-- BARRIER_RELEASE: a release frame (R107, R252). -/
def execBarrierRelease (p : Nat) (rx : MrRx) (h : Nat) (s : State) : Host.Outcome State Fault Refusal :=
  complete s (barrierReleaseFrame s p rx h)

/-- LOCK_STEP_DIGEST: a digest frame (R109, R110). -/
def execLockStepDigest (p : Nat) (rx : MrRx) (payload : List Byte) (s : State) : Host.Outcome State Fault Refusal :=
  complete s (digestFrame s p rx payload)

/-- DIGEST_MISSING: frames of a window are missing (R110). -/
def execDigestMissing (s : State) : Host.Outcome State Fault Refusal :=
  complete s (digestMissing s)

/-- BUBBLE_END: a bubble ends (R96). -/
def execBubbleEnd (p : Nat) (pairs : Nat) (s : State) : Host.Outcome State Fault Refusal :=
  complete s (bubbleEnd s p pairs)

/-- MISSED_NOTICE: a missed notice is relayed (R107). -/
def execMissedNotice (p : Nat) (rx : MrRx) (payload : List Byte) (s : State) : Host.Outcome State Fault Refusal :=
  complete s (missedNotice s p rx payload)

/-- BARRIER_ARRIVE: an arrive frame is relayed (R107). -/
def execBarrierArrive (p : Nat) (rx : MrRx) (h : Nat) (s : State) : Host.Outcome State Fault Refusal :=
  complete s (barrierArrive s p rx h)

/-- TRANSMIT_WAKE_DONE: a waking direction is active (R102). -/
def execTransmitWakeDone (p : Nat) (s : State) : Host.Outcome State Fault Refusal :=
  complete s (txWakeDone s p)

end Sys2Proof.Machine
end

