-- ==== Sys2Proof/Machine/CmdMills.lean ====
section
/-!
DEFINITION. The meanings of the commands about Mill jobs (spec/12): each is its effect and what that leaves to do.
-/

namespace Sys2Proof.Machine

/-- MILL_JOB_START: a job starts on Mills (R327). -/
def execMillJobStart (id : Nat) (mills : List Nat) (s : State) : Host.Outcome State Fault Refusal :=
  complete s (millJobStart s id mills)

/-- MILL_JOB_COMPLETE: the shares of a job finish (R330). -/
def execMillJobComplete (id : Nat) (shares : List Share) (cycles : Nat) (s : State) : Host.Outcome State Fault Refusal :=
  complete s (millJobComplete s id shares cycles)

/-- MILL_JOB_TIMEOUT: a job is not done within the timeout (R328). -/
def execMillJobTimeout (id : Nat) (s : State) : Host.Outcome State Fault Refusal :=
  complete s (millJobTimeout s id)

/-- MILL_FAILURE: an error strikes a Mill; one that is not corrected fails it (R346, R347). -/
def execMillFailure (x : Nat) (what : MillError) (s : State) : Host.Outcome State Fault Refusal :=
  complete s (millStruck s x what)

end Sys2Proof.Machine
end

