-- ==== Sys2Proof/Machine/CmdPools.lean ====
section
/-!
DEFINITION. The meanings of the commands about buffer pools and the Holdings (spec/14): each is its effect and what that leaves to do.
-/

namespace Sys2Proof.Machine

/-- POOL_ENABLE: a pool is enabled (R389). -/
def execPoolEnable (req : Req) (h : Nat) (v : Nat) (s : State) : Host.Outcome State Fault Refusal :=
  complete s (writeCmd s req E.pool_enable 0 0 h v)

/-- POOL_FILL_DONE: the ring of a pool is written (R389). -/
def execPoolFillDone (i : Nat) (s : State) : Host.Outcome State Fault Refusal :=
  complete s (poolFillDone s i)

/-- POOL_ALLOC: one buffer is allocated by a read of `pool.alloc` (R392, R396). -/
def execPoolAlloc (req : Req) (h : Nat) (s : State) : Host.Outcome State Fault Refusal :=
  complete s (serve s .plain req 1 [⟨0x7300, 9, 0, h, 0, []⟩])

/-- POOL_FREE: one reference to a buffer is freed (R394). -/
def execPoolFree (req : Req) (h : Nat) (v : Nat) (s : State) : Host.Outcome State Fault Refusal :=
  complete s (writeCmd s req E.pool_free 0 0 h v)

/-- POOL_SHARE: one reference to a buffer is added (R394). -/
def execPoolShare (req : Req) (h : Nat) (v : Nat) (s : State) : Host.Outcome State Fault Refusal :=
  complete s (writeCmd s req E.pool_share 0 0 h v)

/-- POOL_REFILL_DONE: a refill of the head cache completes (R392). -/
def execPoolRefillDone (i : Nat) (s : State) : Host.Outcome State Fault Refusal :=
  complete s (poolRefillDone s i)

/-- SEQUENCE_ACTIVATE: a sequence is activated (R404). -/
def execSequenceActivate (req : Req) (h : Nat) (v : Nat) (s : State) : Host.Outcome State Fault Refusal :=
  complete s (writeCmd s req E.sequence_activate 0 0 h v)

/-- PREFIX_COPY_DONE: the copy of a partial prefix page is done (R409). -/
def execPrefixCopyDone (i : Nat) (s : State) : Host.Outcome State Fault Refusal :=
  complete s (prefixCopyDone s i)

/-- SEQUENCE_RESERVE: the capacity of a sequence (R406). -/
def execSequenceReserve (req : Req) (h : Nat) (v : Nat) (s : State) : Host.Outcome State Fault Refusal :=
  complete s (writeCmd s req E.sequence_reserve 0 0 h v)

/-- SEQUENCE_LENGTH: the readable length of a sequence (R407). -/
def execSequenceLength (req : Req) (h : Nat) (v : Nat) (s : State) : Host.Outcome State Fault Refusal :=
  complete s (writeCmd s req E.sequence_length 0 0 h v)

end Sys2Proof.Machine
end

