-- ==== Sys2Proof/Machine/CmdPorts.lean ====
section
/-!
DEFINITION. The meanings of the commands about ports, lanes and Ethernet (spec/05_ports_and_lanes.md): each is its effect and what that leaves to do.
-/

namespace Sys2Proof.Machine

/-- LANE_LOST: a lane without lock for 1,000 ns (R113, R131). -/
def execLaneLost (l : Nat) (s : State) : Host.Outcome State Fault Refusal :=
  complete s (laneLost s l)

/-- LANE_GOOD: a lane in lock for 1,000 ns (R113). -/
def execLaneGood (l : Nat) (snr : Nat) (s : State) : Host.Outcome State Fault Refusal :=
  complete s (laneGood s l snr)

/-- REFERENCE_LOST: the reference of an I/O die is lost (R112). -/
def execReferenceLost (die : Nat) (s : State) : Host.Outcome State Fault Refusal :=
  complete s (referenceLost s die)

/-- PORT_WIDTH: the width of a port (R129). -/
def execPortWidth (req : Req) (n : Nat) (v : Nat) (s : State) : Host.Outcome State Fault Refusal :=
  complete s (writeCmd s req E.port_width n 0 0 v)

/-- PORT_MODE: the mode of a port (R129). -/
def execPortMode (req : Req) (n : Nat) (v : Nat) (s : State) : Host.Outcome State Fault Refusal :=
  complete s (writeCmd s req E.port_mode n 0 0 v)

/-- PORT_FEC: the FEC of a port (R129). -/
def execPortFec (req : Req) (n : Nat) (v : Nat) (s : State) : Host.Outcome State Fault Refusal :=
  complete s (writeCmd s req E.port_fec n 0 0 v)

/-- PORT_ROLE: the role of a port (R129). -/
def execPortRole (req : Req) (n : Nat) (v : Nat) (s : State) : Host.Outcome State Fault Refusal :=
  complete s (writeCmd s req E.port_role n 0 0 v)

/-- PORT_AN: the auto-negotiation of a port (R129). -/
def execPortAn (req : Req) (n : Nat) (v : Nat) (s : State) : Host.Outcome State Fault Refusal :=
  complete s (writeCmd s req E.port_an n 0 0 v)

/-- PORT_CONTROL_ROLE: the control role, or partition, of a port (R601). -/
def execPortControlRole (req : Req) (n : Nat) (partition : Bool) (v : Nat) (s : State) : Host.Outcome State Fault Refusal :=
  complete s (if partition then writeCmd s req E.port_control_partition n 0 0 v else writeCmd s req E.port_control_role n 0 0 v)

/-- TRAINING_DONE: training completes (R130, R602). -/
def execTrainingDone (n : Nat) (map : Nat) (s : State) : Host.Outcome State Fault Refusal :=
  complete s (trainingDone s n map)

/-- TRAINING_TIMEOUT: training is tried again (R130), but not while the general cores restart (R477). -/
def execTrainingTimeout (n : Nat) (fecMismatch : Bool) (s : State) : Host.Outcome State Fault Refusal :=
  complete s (if s.mgmt.restarting then s else trainingTimeout s n fecMismatch)

/-- PARTIAL_TRAINING_DEGRADE: lanes still without lock 100,000,000 ns after a partial set (R602). -/
def execPartialTrainingDegrade (n : Nat) (s : State) : Host.Outcome State Fault Refusal :=
  complete s (partialDegrade s n)

/-- FEC_DEGRADED: what a window of 1 s shows of a port's lanes: their error rates (R116), or the test pattern (R135). -/
def execFecDegraded (n : Nat) (window : LaneWindow) (s : State) : Host.Outcome State Fault Refusal :=
  complete s (fecDegraded s n window)

/-- RILL_FRAME_RECEIVE: a Rill frame ends on a port (R117, R118). -/
def execRillFrameReceive (n : Nat) (bytes : List Byte) (crc : Nat) (words : List (Nat × List Nat)) (left : Bool) (idle : Nat) (startFt : Nat) (s : State) : Host.Outcome State Fault Refusal :=
  complete s (rillFrame s n bytes crc words left idle startFt)

/-- LANE_STATUS_MARKER: the lane-status blocks of a marker period (R119). -/
def execLaneStatusMarker (n : Nat) (s : State) : Host.Outcome State Fault Refusal :=
  complete s (laneMarker s n)

/-- LANE_STATUS_BLOCK: a lane-status block arrives (R119, R132). -/
def execLaneStatusBlock (n : Nat) (bytes : List Byte) (s : State) : Host.Outcome State Fault Refusal :=
  complete s (laneStatusBlock s n bytes)

/-- ETHERNET_FRAME_RECEIVE: an Ethernet frame (R120, R174); `used` is what the landing reserve holds of packets that no command has
shown yet. DEDUCED (log 75). -/
def execEthernetFrameReceive (n : Nat) (bytes : List Byte) (fcs : Nat) (left : Bool) (words : List (Nat × List Nat)) (used : Nat) (startFt : Nat) (s : State) : Host.Outcome State Fault Refusal :=
  complete s (if s.inService n && landingFull s n used then s.inc E.rsv_landing_drops.s 1 else ethReceive s n bytes fcs left words startFt)

/-- MAC_AGEING: learnt addresses age out (R121, R122). -/
def execMacAgeing (s : State) : Host.Outcome State Fault Refusal :=
  complete s (macAgeing s)

/-- RESTORE_HOLD_EXPIRE: the lanes of a port have been good for the restore hold (R133). -/
def execRestoreHoldExpire (n : Nat) (s : State) : Host.Outcome State Fault Refusal :=
  complete s (restoreHold s n)

/-- PORT_RESTORE: a port is to restore (R133). -/
def execPortRestore (req : Req) (n : Nat) (v : Nat) (s : State) : Host.Outcome State Fault Refusal :=
  complete s (writeCmd s req E.port_restore n 0 0 v)

/-- PORT_LOOPBACK: the loopback of a port (R135). -/
def execPortLoopback (req : Req) (n : Nat) (v : Nat) (s : State) : Host.Outcome State Fault Refusal :=
  complete s (writeCmd s req E.port_loopback n 0 0 v)

/-- PORT_PRBS: the test pattern of a port (R135). -/
def execPortPrbs (req : Req) (n : Nat) (v : Nat) (s : State) : Host.Outcome State Fault Refusal :=
  complete s (writeCmd s req E.port_prbs n 0 0 v)

end Sys2Proof.Machine
end

