-- ==== Sys2Proof/Machine/CmdPower.lean ====
section
/-!
DEFINITION. The meanings of the commands about power, supplies and self-test (spec/20, spec/21): each is its effect and what that leaves to do.
-/

namespace Sys2Proof.Machine

/-- PWR_TARGET: a power state is requested (R520). -/
def execPwrTarget (req : Req) (v : Nat) (s : State) : Host.Outcome State Fault Refusal :=
  complete s (writeCmd s req E.pwr_target 0 0 0 v)

/-- PWR_ENTER_AT: a power state is scheduled (R520). -/
def execPwrEnterAt (req : Req) (ft : Nat) (target : Nat) (s : State) : Host.Outcome State Fault Refusal :=
  complete s (writeCmd s req E.pwr_enter_at 0 0 0 (ft + target * 2 ^ 64))

/-- PWR_ENTER_FIRE: a scheduled request fires (R520, R522). -/
def execPwrEnterFire (s : State) : Host.Outcome State Fault Refusal :=
  complete s (pwrEnterFire s)

/-- PWR_DOM_REQUEST: one domain is switched off, or returned (R521). -/
def execPwrDomRequest (req : Req) (k : Nat) (v : Nat) (s : State) : Host.Outcome State Fault Refusal :=
  complete s (writeCmd s req E.pwr_dom_request k 0 0 v)

/-- DRAIN_DONE: the drain ends and the entry completes (R522). -/
def execDrainDone (s : State) : Host.Outcome State Fault Refusal :=
  complete s (drainDone s)

/-- DRAIN_LIMIT: the drain limit is reached (R522). -/
def execDrainLimit (s : State) : Host.Outcome State Fault Refusal :=
  complete s (drainLimit s)

/-- WAKE_EVENT: a wake event (R525). -/
def execWakeEvent (src : Nat) (s : State) : Host.Outcome State Fault Refusal :=
  complete s (wakeEvent s src)

/-- LANE_SIGNAL_WAKE: signal on a wake lane (R525). -/
def execLaneSignalWake (l : Nat) (s : State) : Host.Outcome State Fault Refusal :=
  complete s (laneSignalWake s l)

/-- DOMAIN_ADMIT: a waiting domain is admitted (R528). -/
def execDomainAdmit (s : State) : Host.Outcome State Fault Refusal :=
  complete s (domainAdmit s)

/-- RAMP_WINDOW_END: a ramp window ends (R531). -/
def execRampWindowEnd (k : Nat) (good : Bool) (s : State) : Host.Outcome State Fault Refusal :=
  complete s (rampWindowEnd s k good)

/-- DOMAIN_USABLE: a restored domain is usable (R529). -/
def execDomainUsable (k : Nat) (s : State) : Host.Outcome State Fault Refusal :=
  complete s (domainUsable s k)

/-- PWR_DOM_RETRY: one more restore of a failed domain (R531). -/
def execPwrDomRetry (req : Req) (k : Nat) (v : Nat) (s : State) : Host.Outcome State Fault Refusal :=
  complete s (writeCmd s req E.pwr_dom_retry k 0 0 v)

/-- PWR_WARN_ASSERT: PWR_WARN_N asserted (R534). -/
def execPwrWarnAssert (s : State) : Host.Outcome State Fault Refusal :=
  complete s (pwrWarnAssert s)

/-- PWR_WARN_DEASSERT: PWR_WARN_N deasserted (R535). -/
def execPwrWarnDeassert (s : State) : Host.Outcome State Fault Refusal :=
  complete s (pwrWarnDeassert s)

/-- HOLD_WINDOW_EXPIRE: the hold window expires (R535). -/
def execHoldWindowExpire (s : State) : Host.Outcome State Fault Refusal :=
  complete s (holdWindowExpire s)

/-- ST_SHUTDOWN: an orderly shut-down (R542). -/
def execStShutdown (req : Req) (ft : Nat) (s : State) : Host.Outcome State Fault Refusal :=
  complete s (writeCmd s req E.st_shutdown 0 0 0 ft)

/-- SHUTDOWN_TEST: one partition of the shut-down test (R542). -/
def execShutdownTest (ok : Bool) (rail : Nat) (s : State) : Host.Outcome State Fault Refusal :=
  complete s (shutdownTest s ok rail)

/-- LANE_RUNTIME_REPAIR: a UCIe lane is steered, or its module retired (R548). -/
def execLaneRuntimeRepair (join : Nat) (m : Nat) (s : State) : Host.Outcome State Fault Refusal :=
  complete s (laneRepair s join m)

/-- VDD_SD_WAIT_TIMEOUT: a die waited too long for VDD_SD (R584). -/
def execVddSdWaitTimeout (s : State) : Host.Outcome State Fault Refusal :=
  complete s (vddSdTimeout s)

/-- SELFTEST_RAIL_OUT_OF_WINDOW: the core rail leaves its window during the test (R541). -/
def execSelftestRailOutOfWindow (rail : Nat) (s : State) : Host.Outcome State Fault Refusal :=
  complete s (railOut s rail)

end Sys2Proof.Machine
end

