-- ==== Sys2Proof/Machine/CmdSpring.lean ====
section
/-!
DEFINITION. The meanings of the commands about Spring and Gauge (spec/17): each is its effect and what that leaves to do.
-/

namespace Sys2Proof.Machine

/-- SPRING_START: a stream is to start (R463). -/
def execSpringStart (req : Req) (h : Nat) (ft : Nat) (s : State) : Host.Outcome State Fault Refusal :=
  complete s (writeCmd s req E.spring_start 0 0 h ft)

/-- SPRING_START_ON_LAUNCH: a stream is bound to the next launch (R463). -/
def execSpringStartOnLaunch (req : Req) (h : Nat) (v : Nat) (s : State) : Host.Outcome State Fault Refusal :=
  complete s (writeCmd s req E.spring_start_on_launch 0 0 h v)

/-- SPRING_START_FIRE: a stream starts (R465). -/
def execSpringStartFire (s : State) : Host.Outcome State Fault Refusal :=
  complete s (springStartFire s).lockFollow

/-- SPRING_PACKET_CREATE: a packet of a stream is built (R466). -/
def execSpringPacketCreate (s : State) : Host.Outcome State Fault Refusal :=
  complete s (springPacketCreate s)

/-- SPRING_STOP: a stream stops (R463). -/
def execSpringStop (req : Req) (h : Nat) (v : Nat) (s : State) : Host.Outcome State Fault Refusal :=
  complete s (writeCmd s req E.spring_stop 0 0 h v)

/-- GAUGE_ENABLE: a check is activated or deactivated (R469). -/
def execGaugeEnable (req : Req) (h : Nat) (v : Nat) (s : State) : Host.Outcome State Fault Refusal :=
  complete s (writeCmd s req E.gauge_enable 0 0 h v)

end Sys2Proof.Machine
end

