-- ==== Sys2Proof/Machine/CmdStart.lean ====
section
/-!
DEFINITION. The meanings of the commands about re-cabling, resets, the start and temperature (spec/22 to spec/24): each is its effect and what that leaves to do.
-/

namespace Sys2Proof.Machine

/-- RECABLE_OPEN_AT: a re-cabling window is to open (R558). -/
def execRecableOpenAt (req : Req) (ft : Nat) (s : State) : Host.Outcome State Fault Refusal :=
  complete s (writeCmd s req E.recable_open_at 0 0 0 ft)

/-- RECABLE_OPEN_FIRE: a scheduled window opens, or is refused (R558). -/
def execRecableOpenFire (s : State) : Host.Outcome State Fault Refusal :=
  complete s (recableOpenFire s)

/-- RECABLE_CLOSE: the window closes (R560). -/
def execRecableClose (req : Req) (v : Nat) (s : State) : Host.Outcome State Fault Refusal :=
  complete s (writeCmd s req E.recable_close 0 0 0 v)

/-- RECABLE_LIMIT: the window reaches its limit (R560). -/
def execRecableLimit (s : State) : Host.Outcome State Fault Refusal :=
  complete s (recableLimit s)

/-- RACK_RESET_AT: a chip reset is scheduled (R561). -/
def execRackResetAt (req : Req) (ft : Nat) (s : State) : Host.Outcome State Fault Refusal :=
  complete s (writeCmd s req E.rack_reset_at 0 0 0 ft)

/-- RACK_RESET_FIRE: the scheduled chip reset fires (R561). -/
def execRackResetFire (s : State) : Host.Outcome State Fault Refusal :=
  complete s (rackResetFire s)

/-- POWER_ON: the first release of RESET_N (R564). -/
def execPowerOn (s : State) : Host.Outcome State Fault Refusal :=
  complete s (powerOn s)

/-- CHIP_RESET: a RESET_N pulse (R564). -/
def execChipReset (s : State) : Host.Outcome State Fault Refusal :=
  complete s (chipResetPin s)

/-- BOOT_STAGE_END: a start stage ends (R566). -/
def execBootStageEnd (fails : List BootUnit) (s : State) : Host.Outcome State Fault Refusal :=
  complete s (bootStageEnd s fails)

/-- STAGE_LIMIT_OVERRUN: a start stage overruns its limit (R566). -/
def execStageLimitOverrun (unfinished : List BootUnit) (s : State) : Host.Outcome State Fault Refusal :=
  complete s (stageOverrun s unfinished)

/-- VIN_IVR_LOW: VIN_IVR is low (R583). -/
def execVinIvrLow (s : State) : Host.Outcome State Fault Refusal :=
  complete s (vinLow s)

/-- VDD_AON_LOW: VDD_AON is low (R583). -/
def execVddAonLow (s : State) : Host.Outcome State Fault Refusal :=
  complete s (aonLow s)

/-- THERMAL_SAMPLE: the sensors are sampled (R592). -/
def execThermalSample (temps : List Int) (supplies : List Nat) (s : State) : Host.Outcome State Fault Refusal :=
  complete s (thermalSample s temps supplies)

/-- THROTTLE_STEP_DOWN: the Mill clock steps down (R593). -/
def execThrottleStepDown (s : State) : Host.Outcome State Fault Refusal :=
  complete s (throttleDown s)

/-- THROTTLE_STEP_UP: the Mill clock steps up (R593). -/
def execThrottleStepUp (s : State) : Host.Outcome State Fault Refusal :=
  complete s (throttleUp s)

/-- VIN_IVR_RECOVERED: VIN_IVR is back (R583). -/
def execVinIvrRecovered (s : State) : Host.Outcome State Fault Refusal :=
  complete s (vinRecovered s)

end Sys2Proof.Machine
end

