-- ==== Sys2Proof/Machine/CmdSwitch.lean ====
section
/-!
DEFINITION. The meanings of the commands about Rill packets and the switch core (spec/06_rill_packets.md, spec/07_switch_core.md): each is its effect and what that leaves to do.
-/

namespace Sys2Proof.Machine

/-- An error of the Reservoir (R194, R260): one bit is corrected and counted; two bits in a packet's cell are counted and its source
raised, the packet dropped or stomped; in a Basin the segment aborts. The row is noted (R549). -/
def reservoirError (s : State) (what : RsvError) (i k : Nat) : State :=
  match what with
  | .corrected row => (s.inc E.rsv_ecc_corrected.s 1).rowError (rsvRow row)
  | .packet row => ((reservoirPacket (s.inc E.rsv_ecc_uncorrectable.s 1) i).raise 256).rowPending (rsvRow row)
  | .basin row => ((reservoirSlot s i k).raise 256).rowPending (rsvRow row)

/-- RILL_PACKET_ARRIVAL: a Rill packet arrives (R163). -/
def execRillPacketArrival (n : Nat) (bytes : List Byte) (used : Nat) (startFt : Nat) (s : State) : Host.Outcome State Fault Refusal :=
  complete s (packetArrival s n bytes used startFt)

/-- EDDY_REENTRY: a deflected packet comes back (R157, R161). -/
def execEddyReentry (id : Nat) (s : State) : Host.Outcome State Fault Refusal :=
  complete s (eddyReentry s id)

/-- ARRIVAL_FAULT_WINDOW: a fault window has ended (R165, R261). -/
def execArrivalFaultWindow (s : State) : Host.Outcome State Fault Refusal :=
  complete s (arrivalFaultWindow s)

/-- BUNDLE_ADAPT: the health factors of a bundle (R151). -/
def execBundleAdapt (b : Nat) (s : State) : Host.Outcome State Fault Refusal :=
  complete s (bundleAdapt s b)

/-- CELL_TIME_MATCH: one cell time (R179); a lock-step start whose FT has come is taken (R437). -/
def execCellTimeMatch (s : State) : Host.Outcome State Fault Refusal :=
  complete s (cellTimeMatch s.lockDue)

/-- SCHEDULER_DECISION: the next queue of a port is named (R205). -/
def execSchedulerDecision (n : Nat) (s : State) : Host.Outcome State Fault Refusal :=
  complete s (schedDecision s n)

/-- PACKET_TRANSMITTED: the last cell of a packet has left (R175). -/
def execPacketTransmitted (n : Nat) (s : State) : Host.Outcome State Fault Refusal :=
  complete s (packetTransmitted s n)

/-- QUEUE_AVG_DECAY: the average depth of an empty queue (R187). -/
def execQueueAvgDecay (n : Nat) (q : Nat) (s : State) : Host.Outcome State Fault Refusal :=
  complete s (queueAvgDecay s n q)

/-- PLANE_ENABLE: the planes in service (R172). -/
def execPlaneEnable (req : Req) (v : Nat) (s : State) : Host.Outcome State Fault Refusal :=
  complete s (writeCmd s req E.xbar_plane_enable 0 0 0 v)

/-- PLANE_SELF_CHECK_FAIL: a plane fails its self-check (R172). -/
def execPlaneSelfCheckFail (p : Nat) (s : State) : Host.Outcome State Fault Refusal :=
  complete s (planeFail s p)

/-- RSV_RED_SEED: the seed of early drop (R188). -/
def execRsvRedSeed (req : Req) (v : Nat) (s : State) : Host.Outcome State Fault Refusal :=
  complete s (writeCmd s req E.rsv_red_seed 0 0 0 v)

/-- RSV_WINDOW_REGION: the window region of the Reservoir (R190). -/
def execRsvWindowRegion (req : Req) (v : Nat) (s : State) : Host.Outcome State Fault Refusal :=
  complete s (writeCmd s req E.rsv_window_region 0 0 0 v)

/-- RESERVOIR_UNCORRECTABLE: an error of the Reservoir, in a packet, or in slot k of a Basin (R194, R260). -/
def execReservoirUncorrectable (what : RsvError) (i : Nat) (k : Nat) (s : State) : Host.Outcome State Fault Refusal :=
  complete s (reservoirError s what i k)

/-- QUEUE_SAMPLE: the sample fields of every queue (R213). -/
def execQueueSample (s : State) : Host.Outcome State Fault Refusal :=
  complete s (queueSample s)

end Sys2Proof.Machine
end

