-- ==== Sys2Proof/Machine/CmdTime.lean ====
section
/-!
DEFINITION. The meanings of the commands about fabric time and launches (spec/03_fabric_time.md): each is its effect and what that leaves to do.
-/

namespace Sys2Proof.Machine

/-- FT_TICK: FT advances by one (R65); a lock-step start whose FT has come is taken (R437). -/
def execFtTick (s : State) : Host.Outcome State Fault Refusal :=
  complete s ((ftTick s).lockDue)

/-- TIME_MARK: a time mark arrives (R70 to R73). -/
def execTimeMark (p : Nat) (rx : MrRx) (value : Nat) (s : State) : Host.Outcome State Fault Refusal :=
  complete s (timeMark s p rx value)

/-- MISSED_TIME_MARKS: two marks in a row are missing on the source port (R72). -/
def execMissedTimeMarks (p : Nat) (s : State) : Host.Outcome State Fault Refusal :=
  complete s (missedMarks s p)

/-- HOLDOVER_EXPIRE: holdover exceeds its limit (R73). -/
def execHoldoverExpire (s : State) : Host.Outcome State Fault Refusal :=
  complete s (holdoverExpire s)

/-- FT_LOCAL_SET: FT loaded with a written value (R74). -/
def execFtLocalSet (req : Req) (v : Nat) (s : State) : Host.Outcome State Fault Refusal :=
  complete s (writeCmd s req E.ft_local_set 0 0 0 v)

/-- FT_LAUNCH_AT: the local launch scheduled (R86). -/
def execFtLaunchAt (req : Req) (v : Nat) (s : State) : Host.Outcome State Fault Refusal :=
  complete s (writeCmd s req E.ft_launch_at 0 0 0 v)

/-- FT_LAUNCH_CANCEL: the local launch cancelled (R86). -/
def execFtLaunchCancel (req : Req) (v : Nat) (s : State) : Host.Outcome State Fault Refusal :=
  complete s (writeCmd s req E.ft_launch_cancel 0 0 0 v)

/-- LAUNCH_FIRE: a launch fires (R84). -/
def execLaunchFire (s : State) : Host.Outcome State Fault Refusal :=
  complete s (launchFire s).lockFollow

end Sys2Proof.Machine
end

