-- ==== Sys2Proof/Machine/CmdWeir.lean ====
section
/-!
DEFINITION. The meanings of the commands about Weir mode and lock-step (spec/15): each is its effect and what that leaves to do.
-/

namespace Sys2Proof.Machine

/-- WEIR_CLOCK_MODE: the reference of the core PLL (R420). -/
def execWeirClockMode (req : Req) (v : Nat) (s : State) : Host.Outcome State Fault Refusal :=
  complete s (writeCmd s req E.weir_clock_mode 0 0 0 v)

/-- WEIR_START: the schedule is to start (R423). -/
def execWeirStart (req : Req) (ft : Nat) (s : State) : Host.Outcome State Fault Refusal :=
  complete s (writeCmd s req E.weir_start 0 0 0 ft)

/-- WEIR_START_ON_LAUNCH: the start is bound to the next launch (R423). -/
def execWeirStartOnLaunch (req : Req) (v : Nat) (s : State) : Host.Outcome State Fault Refusal :=
  complete s (writeCmd s req E.weir_start_on_launch 0 0 0 v)

/-- WEIR_START_FIRE: the schedule runs (R424). -/
def execWeirStartFire (s : State) : Host.Outcome State Fault Refusal :=
  complete s (weirStartFire s).lockFollow

/-- WEIR_CYCLE_BOUNDARY: a Weir cycle begins (R424); a lock-step start whose FT has come is taken first (R438). -/
def execWeirCycleBoundary (s : State) : Host.Outcome State Fault Refusal :=
  complete s (weirCycleBoundary s.lockDue)

/-- WEIR_STOP: the schedule stops (R425). -/
def execWeirStop (req : Req) (v : Nat) (s : State) : Host.Outcome State Fault Refusal :=
  complete s (writeCmd s req E.weir_stop 0 0 0 v)

/-- WEIR_ENGINES: the engines of Weir partitions (R431). -/
def execWeirEngines (req : Req) (v : Nat) (s : State) : Host.Outcome State Fault Refusal :=
  complete s (writeCmd s req E.weir_engines 0 0 0 v)

/-- WEIR_MILLS: the Mills reserved for Weir jobs (R433). -/
def execWeirMills (req : Req) (v : Nat) (s : State) : Host.Outcome State Fault Refusal :=
  complete s (writeCmd s req E.weir_mills 0 0 0 v)

/-- LOCKSTEP_START: lock-step is to start (R437). -/
def execLockstepStart (req : Req) (ft : Nat) (s : State) : Host.Outcome State Fault Refusal :=
  complete s (writeCmd s req E.lockstep_start 0 0 0 ft)

/-- LOCKSTEP_START_ON_LAUNCH: lock-step is bound to the next launch (R437). -/
def execLockstepStartOnLaunch (req : Req) (v : Nat) (s : State) : Host.Outcome State Fault Refusal :=
  complete s (writeCmd s req E.lockstep_start_on_launch 0 0 0 v)

/-- LOCKSTEP_WINDOW_CLOSE: a lock-step window ends (R438). -/
def execLockstepWindowClose (s : State) : Host.Outcome State Fault Refusal :=
  complete s (lockstepWindowClose s)

/-- LOCKSTEP_STOP: lock-step stops (R441). -/
def execLockstepStop (req : Req) (v : Nat) (s : State) : Host.Outcome State Fault Refusal :=
  complete s (writeCmd s req E.lockstep_stop 0 0 0 v)

/-- CORE_CLOCK_LOCKED: the core PLL is locked to FT (R420). -/
def execCoreClockLocked (s : State) : Host.Outcome State Fault Refusal :=
  complete s (coreClockLocked s)

end Sys2Proof.Machine
end

