-- ==== Sys2Proof/Machine/Dispatch.lean ====
section
/-!
DEFINITION. The effect of each command: one meaning for each constructor.
-/

namespace Sys2Proof.Machine

def exec (i : Instr) (s : State) : Host.Outcome State Fault Refusal :=
  match i with
  | .read req items => Sys2Proof.Machine.execRead req items s
  | .write req items => Sys2Proof.Machine.execWrite req items s
  | .readBlock req items => Sys2Proof.Machine.execReadBlock req items s
  | .writeBlock req items => Sys2Proof.Machine.execWriteBlock req items s
  | .create req items => Sys2Proof.Machine.execCreate req items s
  | .destroy req items => Sys2Proof.Machine.execDestroy req items s
  | .txOpen req => Sys2Proof.Machine.execTxOpen req s
  | .txCommit req ft => Sys2Proof.Machine.execTxCommit req ft s
  | .txCommitFire => Sys2Proof.Machine.execTxCommitFire s
  | .txAbort req => Sys2Proof.Machine.execTxAbort req s
  | .txStatus req => Sys2Proof.Machine.execTxStatus req s
  | .txInactivityTimeout id => Sys2Proof.Machine.execTxInactivityTimeout id s
  | .sessionOpen req data => Sys2Proof.Machine.execSessionOpen req data s
  | .sessionClose req => Sys2Proof.Machine.execSessionClose req s
  | .subscribe req items => Sys2Proof.Machine.execSubscribe req items s
  | .pduReceive via src bytes => Sys2Proof.Machine.execPduReceive via src bytes s
  | .mctpMessage eid bytes => Sys2Proof.Machine.execMctpMessage eid bytes s
  | .udpDatagram src bytes => Sys2Proof.Machine.execUdpDatagram src bytes s
  | .mailboxDoorbell ring window => Sys2Proof.Machine.execMailboxDoorbell ring window s
  | .mailboxResponseDone => Sys2Proof.Machine.execMailboxResponseDone s
  | .quarantineEnd t x => Sys2Proof.Machine.execQuarantineEnd t x s
  | .creationQuietEnd => Sys2Proof.Machine.execCreationQuietEnd s
  | .ftTick => Sys2Proof.Machine.execFtTick s
  | .timeMark p rx value => Sys2Proof.Machine.execTimeMark p rx value s
  | .missedTimeMarks p => Sys2Proof.Machine.execMissedTimeMarks p s
  | .holdoverExpire => Sys2Proof.Machine.execHoldoverExpire s
  | .ftLocalSet req v => Sys2Proof.Machine.execFtLocalSet req v s
  | .ftLaunchAt req v => Sys2Proof.Machine.execFtLaunchAt req v s
  | .ftLaunchCancel req v => Sys2Proof.Machine.execFtLaunchCancel req v s
  | .launchFire => Sys2Proof.Machine.execLaunchFire s
  | .arm p rx seq target => Sys2Proof.Machine.execArm p rx seq target s
  | .confirm p rx seq => Sys2Proof.Machine.execConfirm p rx seq s
  | .abort p rx seq => Sys2Proof.Machine.execAbort p rx seq s
  | .confirmDeadline seq => Sys2Proof.Machine.execConfirmDeadline seq s
  | .abortedSequenceExpire seq => Sys2Proof.Machine.execAbortedSequenceExpire seq s
  | .missedNoticeRepeat p => Sys2Proof.Machine.execMissedNoticeRepeat p s
  | .missedNoticeSleepAgain p => Sys2Proof.Machine.execMissedNoticeSleepAgain p s
  | .millraceRoleWrite req p v => Sys2Proof.Machine.execMillraceRoleWrite req p v s
  | .detectProbe p found => Sys2Proof.Machine.execDetectProbe p found s
  | .trainPhaseAligned p => Sys2Proof.Machine.execTrainPhaseAligned p s
  | .symbolLockAchieved p => Sys2Proof.Machine.execSymbolLockAchieved p s
  | .bringupTimeout p => Sys2Proof.Machine.execBringupTimeout p s
  | .capability p rx payload => Sys2Proof.Machine.execCapability p rx payload s
  | .roleMismatchRetry p => Sys2Proof.Machine.execRoleMismatchRetry p s
  | .delayProbe p rx n turn => Sys2Proof.Machine.execDelayProbe p rx n turn s
  | .delayEcho p rx n turn edge => Sys2Proof.Machine.execDelayEcho p rx n turn edge s
  | .codeError p => Sys2Proof.Machine.execCodeError p s
  | .millraceLockLoss p stuck0 stuck1 => Sys2Proof.Machine.execMillraceLockLoss p stuck0 stuck1 s
  | .clockLost p => Sys2Proof.Machine.execClockLost p s
  | .millraceLoopbackWrite req p v => Sys2Proof.Machine.execMillraceLoopbackWrite req p v s
  | .millracePrbsWrite req p v => Sys2Proof.Machine.execMillracePrbsWrite req p v s
  | .txSleep req p v => Sys2Proof.Machine.execTxSleep req p v s
  | .sleep p rx => Sys2Proof.Machine.execSleep p rx s
  | .txWakeTimeout p => Sys2Proof.Machine.execTxWakeTimeout p s
  | .receiveWake p => Sys2Proof.Machine.execReceiveWake p s
  | .sendWake req p v => Sys2Proof.Machine.execSendWake req p v s
  | .wake p => Sys2Proof.Machine.execWake p s
  | .barrierRelease p rx h => Sys2Proof.Machine.execBarrierRelease p rx h s
  | .lockStepDigest p rx payload => Sys2Proof.Machine.execLockStepDigest p rx payload s
  | .digestMissing => Sys2Proof.Machine.execDigestMissing s
  | .laneLost l => Sys2Proof.Machine.execLaneLost l s
  | .laneGood l snr => Sys2Proof.Machine.execLaneGood l snr s
  | .referenceLost die => Sys2Proof.Machine.execReferenceLost die s
  | .portWidth req n v => Sys2Proof.Machine.execPortWidth req n v s
  | .portMode req n v => Sys2Proof.Machine.execPortMode req n v s
  | .portFec req n v => Sys2Proof.Machine.execPortFec req n v s
  | .portRole req n v => Sys2Proof.Machine.execPortRole req n v s
  | .portAn req n v => Sys2Proof.Machine.execPortAn req n v s
  | .portControlRole req n partition v => Sys2Proof.Machine.execPortControlRole req n partition v s
  | .trainingDone n map => Sys2Proof.Machine.execTrainingDone n map s
  | .trainingTimeout n fecMismatch => Sys2Proof.Machine.execTrainingTimeout n fecMismatch s
  | .partialTrainingDegrade n => Sys2Proof.Machine.execPartialTrainingDegrade n s
  | .fecDegraded n window => Sys2Proof.Machine.execFecDegraded n window s
  | .rillFrameReceive n bytes crc words left idle startFt => Sys2Proof.Machine.execRillFrameReceive n bytes crc words left idle startFt s
  | .laneStatusMarker n => Sys2Proof.Machine.execLaneStatusMarker n s
  | .laneStatusBlock n bytes => Sys2Proof.Machine.execLaneStatusBlock n bytes s
  | .ethernetFrameReceive n bytes fcs left words used startFt => Sys2Proof.Machine.execEthernetFrameReceive n bytes fcs left words used startFt s
  | .macAgeing => Sys2Proof.Machine.execMacAgeing s
  | .restoreHoldExpire n => Sys2Proof.Machine.execRestoreHoldExpire n s
  | .portRestore req n v => Sys2Proof.Machine.execPortRestore req n v s
  | .portLoopback req n v => Sys2Proof.Machine.execPortLoopback req n v s
  | .portPrbs req n v => Sys2Proof.Machine.execPortPrbs req n v s
  | .rillPacketArrival n bytes used startFt => Sys2Proof.Machine.execRillPacketArrival n bytes used startFt s
  | .eddyReentry id => Sys2Proof.Machine.execEddyReentry id s
  | .arrivalFaultWindow => Sys2Proof.Machine.execArrivalFaultWindow s
  | .bundleAdapt b => Sys2Proof.Machine.execBundleAdapt b s
  | .cellTimeMatch => Sys2Proof.Machine.execCellTimeMatch s
  | .schedulerDecision n => Sys2Proof.Machine.execSchedulerDecision n s
  | .packetTransmitted n => Sys2Proof.Machine.execPacketTransmitted n s
  | .queueAvgDecay n q => Sys2Proof.Machine.execQueueAvgDecay n q s
  | .planeEnable req v => Sys2Proof.Machine.execPlaneEnable req v s
  | .planeSelfCheckFail p => Sys2Proof.Machine.execPlaneSelfCheckFail p s
  | .rsvRedSeed req v => Sys2Proof.Machine.execRsvRedSeed req v s
  | .rsvWindowRegion req v => Sys2Proof.Machine.execRsvWindowRegion req v s
  | .reservoirUncorrectable what x k => Sys2Proof.Machine.execReservoirUncorrectable what x k s
  | .queueSample => Sys2Proof.Machine.execQueueSample s
  | .gateStart req h ft => Sys2Proof.Machine.execGateStart req h ft s
  | .gateStartFire => Sys2Proof.Machine.execGateStartFire s
  | .gateBoundary n => Sys2Proof.Machine.execGateBoundary n s
  | .gateStop req h v => Sys2Proof.Machine.execGateStop req h v s
  | .gateSwitchAt req h ft => Sys2Proof.Machine.execGateSwitchAt req h ft s
  | .gateSwitchLand => Sys2Proof.Machine.execGateSwitchLand s
  | .collectiveArm req h v => Sys2Proof.Machine.execCollectiveArm req h v s
  | .collectiveDisarm req h v => Sys2Proof.Machine.execCollectiveDisarm req h v s
  | .segmentReductionDone x seg => Sys2Proof.Machine.execSegmentReductionDone x seg s
  | .epilogueResult x seg => Sys2Proof.Machine.execEpilogueResult x seg s
  | .epiloguePlaceFree e => Sys2Proof.Machine.execEpiloguePlaceFree e s
  | .laggardTimeout x seg => Sys2Proof.Machine.execLaggardTimeout x seg s
  | .millJobStart id mills => Sys2Proof.Machine.execMillJobStart id mills s
  | .millJobComplete id shares cycles => Sys2Proof.Machine.execMillJobComplete id shares cycles s
  | .millJobTimeout id => Sys2Proof.Machine.execMillJobTimeout id s
  | .millFailure x what => Sys2Proof.Machine.execMillFailure x what s
  | .memoryAccessComplete id chk => Sys2Proof.Machine.execMemoryAccessComplete id chk s
  | .windowOpen req h v => Sys2Proof.Machine.execWindowOpen req h v s
  | .windowClosingEnd x => Sys2Proof.Machine.execWindowClosingEnd x s
  | .t2FillReturn id line poisoned => Sys2Proof.Machine.execT2FillReturn id line poisoned s
  | .cxlInvalidate req c v => Sys2Proof.Machine.execCxlInvalidate req c v s
  | .cxlTimeout id => Sys2Proof.Machine.execCxlTimeout id s
  | .cxlPortLost c => Sys2Proof.Machine.execCxlPortLost c s
  | .cxlDeviceAppear c width size ident slow => Sys2Proof.Machine.execCxlDeviceAppear c width size ident slow s
  | .cxlResume req c v => Sys2Proof.Machine.execCxlResume req c v s
  | .cxlEnable req c v => Sys2Proof.Machine.execCxlEnable req c v s
  | .hbmStackFail h => Sys2Proof.Machine.execHbmStackFail h s
  | .poolEnable req h v => Sys2Proof.Machine.execPoolEnable req h v s
  | .poolFillDone x => Sys2Proof.Machine.execPoolFillDone x s
  | .poolAlloc req h => Sys2Proof.Machine.execPoolAlloc req h s
  | .poolFree req h v => Sys2Proof.Machine.execPoolFree req h v s
  | .poolShare req h v => Sys2Proof.Machine.execPoolShare req h v s
  | .poolRefillDone x => Sys2Proof.Machine.execPoolRefillDone x s
  | .sequenceActivate req h v => Sys2Proof.Machine.execSequenceActivate req h v s
  | .prefixCopyDone x => Sys2Proof.Machine.execPrefixCopyDone x s
  | .sequenceReserve req h v => Sys2Proof.Machine.execSequenceReserve req h v s
  | .sequenceLength req h v => Sys2Proof.Machine.execSequenceLength req h v s
  | .weirClockMode req v => Sys2Proof.Machine.execWeirClockMode req v s
  | .weirStart req ft => Sys2Proof.Machine.execWeirStart req ft s
  | .weirStartOnLaunch req v => Sys2Proof.Machine.execWeirStartOnLaunch req v s
  | .weirStartFire => Sys2Proof.Machine.execWeirStartFire s
  | .weirCycleBoundary => Sys2Proof.Machine.execWeirCycleBoundary s
  | .weirStop req v => Sys2Proof.Machine.execWeirStop req v s
  | .weirEngines req v => Sys2Proof.Machine.execWeirEngines req v s
  | .weirMills req v => Sys2Proof.Machine.execWeirMills req v s
  | .lockstepStart req ft => Sys2Proof.Machine.execLockstepStart req ft s
  | .lockstepStartOnLaunch req v => Sys2Proof.Machine.execLockstepStartOnLaunch req v s
  | .lockstepWindowClose => Sys2Proof.Machine.execLockstepWindowClose s
  | .lockstepStop req v => Sys2Proof.Machine.execLockstepStop req v s
  | .snapAt req ft => Sys2Proof.Machine.execSnapAt req ft s
  | .snapshotFire => Sys2Proof.Machine.execSnapshotFire s
  | .snapshotShadowReady => Sys2Proof.Machine.execSnapshotShadowReady s
  | .attrReset req v => Sys2Proof.Machine.execAttrReset req v s
  | .traceOpenAt req h ft => Sys2Proof.Machine.execTraceOpenAt req h ft s
  | .traceOpenFire => Sys2Proof.Machine.execTraceOpenFire s
  | .traceCloseAt req h ft => Sys2Proof.Machine.execTraceCloseAt req h ft s
  | .traceCloseFire => Sys2Proof.Machine.execTraceCloseFire s
  | .traceNext req h => Sys2Proof.Machine.execTraceNext req h s
  | .springStart req h ft => Sys2Proof.Machine.execSpringStart req h ft s
  | .springStartOnLaunch req h v => Sys2Proof.Machine.execSpringStartOnLaunch req h v s
  | .springStartFire => Sys2Proof.Machine.execSpringStartFire s
  | .springPacketCreate => Sys2Proof.Machine.execSpringPacketCreate s
  | .springStop req h v => Sys2Proof.Machine.execSpringStop req h v s
  | .gaugeEnable req h v => Sys2Proof.Machine.execGaugeEnable req h v s
  | .curatorSafetyMismatch => Sys2Proof.Machine.execCuratorSafetyMismatch s
  | .curatorWatchdogRestart => Sys2Proof.Machine.execCuratorWatchdogRestart s
  | .curatorReady => Sys2Proof.Machine.execCuratorReady s
  | .fwVerify req v => Sys2Proof.Machine.execFwVerify req v s
  | .fwActivate req ft => Sys2Proof.Machine.execFwActivate req ft s
  | .fwActivateFire => Sys2Proof.Machine.execFwActivateFire s
  | .fwFallback => Sys2Proof.Machine.execFwFallback s
  | .fwCommit req v => Sys2Proof.Machine.execFwCommit req v s
  | .lcAdvance req v => Sys2Proof.Machine.execLcAdvance req v s
  | .spdmRequest eid bytes => Sys2Proof.Machine.execSpdmRequest eid bytes s
  | .setEndpointId eid => Sys2Proof.Machine.execSetEndpointId eid s
  | .sidebandStuck => Sys2Proof.Machine.execSidebandStuck s
  | .sidebandRecoveryRound low => Sys2Proof.Machine.execSidebandRecoveryRound low s
  | .sidebandFailed sclAlone => Sys2Proof.Machine.execSidebandFailed sclAlone s
  | .mctpRestart req v => Sys2Proof.Machine.execMctpRestart req v s
  | .mgmtFrameReceive bytes => Sys2Proof.Machine.execMgmtFrameReceive bytes s
  | .apertureAccess write off len data => Sys2Proof.Machine.execApertureAccess write off len data s
  | .ringTail r post entries => Sys2Proof.Machine.execRingTail r post entries s
  | .hringEnable req r v => Sys2Proof.Machine.execHringEnable req r v s
  | .ringRecordDeliver r => Sys2Proof.Machine.execRingRecordDeliver r s
  | .ringIrqHoldoff r => Sys2Proof.Machine.execRingIrqHoldoff r s
  | .txDescriptor data => Sys2Proof.Machine.execTxDescriptor data s
  | .faultSetting srcs => Sys2Proof.Machine.execFaultSetting srcs s
  | .chipResetReaction => Sys2Proof.Machine.execChipResetReaction s
  | .faultNExternal low => Sys2Proof.Machine.execFaultNExternal low s
  | .faultNStuck => Sys2Proof.Machine.execFaultNStuck s
  | .faultPinRearm req v => Sys2Proof.Machine.execFaultPinRearm req v s
  | .faultInject req v => Sys2Proof.Machine.execFaultInject req v s
  | .pwrTarget req v => Sys2Proof.Machine.execPwrTarget req v s
  | .pwrEnterAt req ft target => Sys2Proof.Machine.execPwrEnterAt req ft target s
  | .pwrEnterFire => Sys2Proof.Machine.execPwrEnterFire s
  | .pwrDomRequest req k v => Sys2Proof.Machine.execPwrDomRequest req k v s
  | .drainDone => Sys2Proof.Machine.execDrainDone s
  | .drainLimit => Sys2Proof.Machine.execDrainLimit s
  | .wakeEvent src => Sys2Proof.Machine.execWakeEvent src s
  | .laneSignalWake l => Sys2Proof.Machine.execLaneSignalWake l s
  | .domainAdmit => Sys2Proof.Machine.execDomainAdmit s
  | .rampWindowEnd k good => Sys2Proof.Machine.execRampWindowEnd k good s
  | .domainUsable k => Sys2Proof.Machine.execDomainUsable k s
  | .pwrDomRetry req k v => Sys2Proof.Machine.execPwrDomRetry req k v s
  | .pwrWarnAssert => Sys2Proof.Machine.execPwrWarnAssert s
  | .pwrWarnDeassert => Sys2Proof.Machine.execPwrWarnDeassert s
  | .holdWindowExpire => Sys2Proof.Machine.execHoldWindowExpire s
  | .stShutdown req ft => Sys2Proof.Machine.execStShutdown req ft s
  | .shutdownTest ok rail => Sys2Proof.Machine.execShutdownTest ok rail s
  | .laneRuntimeRepair join m => Sys2Proof.Machine.execLaneRuntimeRepair join m s
  | .recableOpenAt req ft => Sys2Proof.Machine.execRecableOpenAt req ft s
  | .recableOpenFire => Sys2Proof.Machine.execRecableOpenFire s
  | .recableClose req v => Sys2Proof.Machine.execRecableClose req v s
  | .recableLimit => Sys2Proof.Machine.execRecableLimit s
  | .rackResetAt req ft => Sys2Proof.Machine.execRackResetAt req ft s
  | .rackResetFire => Sys2Proof.Machine.execRackResetFire s
  | .powerOn => Sys2Proof.Machine.execPowerOn s
  | .chipReset => Sys2Proof.Machine.execChipReset s
  | .bootStageEnd fails => Sys2Proof.Machine.execBootStageEnd fails s
  | .stageLimitOverrun unfinished => Sys2Proof.Machine.execStageLimitOverrun unfinished s
  | .vinIvrLow => Sys2Proof.Machine.execVinIvrLow s
  | .vddAonLow => Sys2Proof.Machine.execVddAonLow s
  | .thermalSample temps supplies => Sys2Proof.Machine.execThermalSample temps supplies s
  | .throttleStepDown => Sys2Proof.Machine.execThrottleStepDown s
  | .throttleStepUp => Sys2Proof.Machine.execThrottleStepUp s
  | .bubbleEnd p pairs => Sys2Proof.Machine.execBubbleEnd p pairs s
  | .missedNotice p rx payload => Sys2Proof.Machine.execMissedNotice p rx payload s
  | .barrierArrive p rx h => Sys2Proof.Machine.execBarrierArrive p rx h s
  | .transmitWakeDone p => Sys2Proof.Machine.execTransmitWakeDone p s
  | .coreClockLocked => Sys2Proof.Machine.execCoreClockLocked s
  | .sessionLockoutEnd => Sys2Proof.Machine.execSessionLockoutEnd s
  | .blockResetDone u => Sys2Proof.Machine.execBlockResetDone u s
  | .vddSdWaitTimeout => Sys2Proof.Machine.execVddSdWaitTimeout s
  | .vinIvrRecovered => Sys2Proof.Machine.execVinIvrRecovered s
  | .selftestRailOutOfWindow rail => Sys2Proof.Machine.execSelftestRailOutOfWindow rail s

end Sys2Proof.Machine
end

