-- ==== Sys2Proof/Machine/Step.lean ====
section
/-!
DEFINITION. One step: the command at the front of the queue is carried out on the state with the rest of the queue.
-/

namespace Sys2Proof.Machine

/-- One step. On an empty queue the block idles (notes/assumptions/2.md): what a clock moves is a command of its own
(FT_TICK, CELL_TIME_MATCH, the timeouts). DESIGN CHOICE (log 1, 2). -/
def step (s : State) : Host.Outcome State Fault Refusal :=
  match s.pending with
  | [] => .next s
  | c :: cs => exec c { s with pending := cs }

/-- The state with the command that a word spells at the front of its queue; unchanged where the word spells none.
DESIGN CHOICE (log 5). -/
def State.withFetchWord (s : State) (nbits w : Nat) : State :=
  match decodeTableWord nbits w with
  | some c => { s with pending := c :: s.pending }
  | none => s

end Sys2Proof.Machine
end

