-- ==== Sys2Proof/Safety.lean ====
section
/-!
DEFINITION. The words that claims use: what a command's effect leaves when its work is done, when a request is served, when the
one item of a request is accepted, and when a Millrace port takes a frame. No run of the block stops (Machine/Settle.lean), so a
safe run is one in which every step leaves no work and takes one command from the queue.
-/

namespace Sys2Proof.Machine

/-- The state that a command with effect u on s leaves: the work of u done, the queue as it was in s. -/
def after (s u : State) : State := { settle u with pending := s.pending }

/-- A request reaches the service, its requester is known and is not session 0, and it names no transaction (R37, R56, R567). -/
structure Serves (s : State) (r : Req) (w : Who) : Prop where
  reach : reachable s r = true
  stage : s.get E.boot_stage.s ≠ 1
  life : s.get E.lc_state.s ≠ 0
  ready : s.getB E.device_ready.s = true
  who : whoOf s r = some w
  named : w.owner ≠ 0
  noTx : r.tx = 0

/-- The same for a request that names one of its requester's transactions (R49). -/
structure ServesTx (s : State) (r : Req) (w : Who) (x : Tx) : Prop where
  reach : reachable s r = true
  stage : s.get E.boot_stage.s ≠ 1
  life : s.get E.lc_state.s ≠ 0
  ready : s.getB E.device_ready.s = true
  who : whoOf s r = some w
  named : w.owner ≠ 0
  inTx : r.tx ≠ 0
  tx : s.txOf w r.tx = some x

/-- The one item of a WRITE passes every check of R55 before the rule of its entry, is not held for a domain or a stack (R526,
R527), and meets no transition of its handle on the same cycle (R38). -/
structure Accepts (s : State) (r : Req) (w : Who) (e : Ent) (n k h v : Nat) : Prop where
  serves : Serves s r w
  gate : writeGate5 s w (writeIt e n k h v) = .ok (e, n, k, hIdx h)
  fits : v < 256 ^ e.len
  range : e.rng.ok v = true
  free : holdSrc s w e (hIdx h) v = none
  still : (stateRequest e && s.cyc.touched.contains (typeOfTemplate e.idx * 2 ^ 20 + hIdx h)) = false

/-- u with the handles marked on this cycle as they were in s: the requester's own change of a handle state is no hardware
transition (R38). DEDUCED (log 31). -/
def keepTouched (s u : State) : State := { u with cyc := { u.cyc with touched := s.cyc.touched } }

/-- What a WRITE that succeeds leaves when its entry's rule gives u: the handles marked on this cycle as before, items staged on
the entry marked (R50), and the response with status 0. -/
def accepted (s u : State) (r : Req) (it : Item) : State :=
  ((keepTouched s u).dirtyEntry 0 it).emit
    (.response r 0x82 0 0 [⟨it.index, it.sub, 0, it.handle, []⟩])

/-- The state after a command that is a WRITE of one entry, when the entry's rule gives u. -/
def wrote (s u : State) (r : Req) (e : Ent) (n k h v : Nat) : State := after s (accepted s u r (writeIt e n k h v))

/-- s with one item answered and nothing else changed; `op` is the opcode of the response (R54). -/
def answered (s : State) (r : Req) (op : Nat) (it : Item) (st : Nat) : State :=
  s.emit (.response r op 0 0 [⟨it.index, it.sub, st, it.handle, []⟩])

/-- s with a request of one item that waits for its turn at the buffer pool manager, which the end of the core cycle gives it
(R391 to R393). -/
def waiting (s : State) (r : Req) (op : Nat) (it : Item) : State :=
  s.modMgmt fun m => { m with parked := m.parked ++ [⟨r, op, .plain, [it], [], s.cyc.n⟩] }

/-- s with a WRITE of one entry that waits for its turn. -/
def waitsWrite (s : State) (r : Req) (e : Ent) (h v : Nat) : State := waiting s r 2 (writeIt e 0 0 h v)

/-- A header whose every field fits its bits, the reserved bits zero (R140). -/
structure RillFields (h : Rill) : Prop where
  version : h.version < 16
  kind : h.kind < 16
  cls : h.cls < 8
  colour : h.colour < 4
  hopCount : h.hopCount < 8
  hopPtr : h.hopPtr < 8
  partition : h.partition < 4096
  lifetime : h.lifetime < 65536
  length : h.length < 8192
  route : h.route.length = 4 ∧ ∀ x ∈ h.route, x < 1024
  ret : h.ret.length = 4 ∧ ∀ x ∈ h.ret, x < 1024
  handle : h.handle < 2 ^ 32
  segment : h.segment < 2 ^ 32
  layer : h.layer < 65536
  operator : h.operator < 65536
  words : h.w8 < 2 ^ 32 ∧ h.w9 < 2 ^ 32 ∧ h.w10 < 2 ^ 32
  tag : h.tag < 65536
  rsv : h.rsv = 0

/-- A request item whose every field fits its bytes (R54). -/
structure ItemFields (it : Item) : Prop where
  index : it.index < 65536
  sub : it.sub < 256
  flags : it.flags < 256
  handle : it.handle < 2 ^ 32
  rsv : it.rsv < 65536
  data : it.data.length < 65536

/-- A Millrace port listens and reads frame f from the symbols x: it is in Capability or Active, not in loopback or with its test
pattern, in no bubble, its receiver awake, and the symbols spell f with the right check (R91, R92, R95, R96, R100). -/
structure FrameHeard (s : State) (p : Nat) (x : MrRx) (f : MrFrame) : Prop where
  stage : s.get (E.millrace_state.n p) = 4 ∨ s.get (E.millrace_state.n p) = 5
  closed : s.get (E.millrace_loopback.n p) = 0
  plain : s.get (E.millrace_prbs.n p) = 0
  still : (mrOf s p).bubble = false
  awake : s.get (E.millrace_rx_state.n p) = 1
  heard : ∃ rd, mrHear s p x = .frame f rd

/-- An Active Millrace port reads frame f from the symbols x (R95, R96, R100). -/
structure FrameTaken (s : State) (p : Nat) (x : MrRx) (f : MrFrame) : Prop where
  active : s.get (E.millrace_state.n p) = 5
  hears : FrameHeard s p x f

/-- s with the receiver's running disparities as a frame of the symbols x leaves them (R91). -/
def heardState (s : State) (p : Nat) (x : MrRx) : State :=
  match mrHear s p x with
  | .frame _ rd => mrRd s p rd
  | _ => s

/-- What every step keeps: no work is left undone. -/
def Idle (s : State) : Prop := s.todo = []

/-- Pending scheduled actions stand in their firing order (R78, R80). -/
def Ordered (l : List Act) : Prop := l.Pairwise fun a b => b.before a = false

end Sys2Proof.Machine
end

