-- ==== Sys2Proof/Certificates/Slice0/Obligations.lean ====
section
/-!
DEFINITION. The statements for the provers: first the rules of the whole block, then, family by family, where each command
completes and the state that it leaves.
-/

open Sys2Proof Sys2Proof.Machine

/-- A step takes the command at the front of the queue and is that command's effect on the state with the rest of the queue;
on an empty queue the block idles (the model's choice, notes/assumptions/2.md). -/
def Obligations.StepRunsFront : Prop :=
  ∀ s : State, (∀ (c : Instr) (cs : List Instr), s.pending = c :: cs → step s = exec c { s with pending := cs }) ∧
    (s.pending = [] → step s = .next s)

/-- After reset the queue is empty and no work is left, no handle is live, no action is pending, FT is 0, memory lists nothing,
every entry reads its reset value, and FT is Free-running with no source: the spec's values; what it leaves open is the
model's (notes/assumptions/10.md). -/
def Obligations.ResetState : Prop :=
  State.reset.pending = [] ∧ Idle State.reset ∧ Ordered State.reset.sched ∧ State.reset.hs.live = [] ∧ State.reset.ft = 0 ∧
  Memory.wf State.reset.mem = true ∧ State.reset.mem = [] ∧
  (∀ (e : Ent) (n k inst off : Nat), State.reset.get (e.loc n k inst off) = e.dfltAt n k inst off) ∧
  State.reset.get E.ft_sync_state.s = 0 ∧ State.reset.get E.ft_source_port.s = 255 ∧ State.reset.get E.device_ready.s = 0 ∧
  (∀ p, p < 8 → State.reset.get (E.millrace_role.n p) = (if p < 2 then 1 else 0) ∧
    State.reset.get (E.millrace_state.n p) = if p < 2 then 1 else 0) ∧
  (∀ n, State.reset.get (E.port_width.n n) = 0)

/-- Every step leaves no work undone and takes exactly one command from the queue. -/
def Obligations.StepKeepsIdle : Prop :=
  ∀ s t : State, Idle s → step s = .next t → Idle t ∧ t.pending = s.pending.drop 1

/-- No command stops the block: each answers a next state with its work done and the queue as it was. -/
def Obligations.NoCommandStops : Prop :=
  ∀ (c : Instr) (s : State), ∃ t, exec c s = .next t ∧ Idle t ∧ t.pending = s.pending

/-- The queue runs first in, first out: after as many steps as there are commands in front, those behind are left. -/
def Obligations.QueueRunsInOrder : Prop :=
  ∀ (cs ds : List Instr) (s : State), s.pending = cs ++ ds →
    ∃ t, Host.Core.run Sys2Proof.core cs.length s = .next t ∧ t.pending = ds

/-- A word t, g, i of the handle layout (R12) reads back as its type, generation and index, and every word is one. -/
def Obligations.HandleLayout : Prop :=
  (∀ t g i : Nat, t < 16 → g < 256 → i < 2 ^ 20 →
    hType (mkHandle t g i) = t ∧ hGen (mkHandle t g i) = g ∧ hIdx (mkHandle t g i) = i ∧
    bits (mkHandle t g i) 31 28 = t ∧ bits (mkHandle t g i) 27 20 = g ∧ bits (mkHandle t g i) 19 0 = i) ∧
  (∀ h : Nat, h < 2 ^ 32 → mkHandle (hType h) (hGen h) (hIdx h) = h)

/-- Parsing the bytes of any Rill header gives the header back, every field at every value that its bits admit (R140). -/
def Obligations.RillHeaderRoundTrip : Prop :=
  ∀ h : Rill, RillFields h → (rillBytes h).length = 48 ∧ parseRill (rillBytes h) = h

/-- Parsing the bytes of any request items gives the items back, and bytes after the last one are refused (R54, R56). -/
def Obligations.RequestItemsRoundTrip : Prop :=
  ∀ items : List Item, (∀ it ∈ items, ItemFields it) →
    parseItems items.length (items.map itemBytes).flatten = some items ∧
    ∀ b : List Byte, b ≠ [] → parseItems items.length ((items.map itemBytes).flatten ++ b) = none

/-- No index and subindex belongs to two entries of the Catalogue (R31). -/
def Obligations.EntriesDistinct : Prop :=
  E.all.Pairwise fun e f => ∀ idx sub : Nat, ¬ (e.holds idx sub = true ∧ f.holds idx sub = true)

/-- A WRITE that its checks accept, of an entry that no chapter gives a rule of its own, sets that entry's place and nothing
else (R32, R39, R55). -/
def Obligations.PlainWrite : Prop :=
  ∀ (s : State) (r : Req) (w : Who) (e : Ent) (n k h v : Nat), Accepts s r w e n k h v → e.ty ≠ .domain → e.acc = .rw →
    e.cls ≠ .counter → noPort s e n = false → (e.tmpl = true → cfgState s (typeOfTemplate e.idx) (hIdx h) e = true) →
    writeHook s w e n k (hIdx h) v = none →
    exec (.write r [writeIt e n k h v]) s = .next (wrote s (s.set (e.loc n k (hIdx h) 0) v) r e n k h v)

/-- A configuration field of a run-time handle is not written outside the created state (R39, and the fields and states that
R196, R211, R228, R390, R406, R407 and R453 name): a WRITE whose value its entry's rule does not refuse is answered 0x0C and
changes nothing. -/
def Obligations.LockedFieldRefused : Prop :=
  ∀ (s : State) (r : Req) (w : Who) (e : Ent) (n k h v : Nat), Accepts s r w e n k h v → e.ty ≠ .domain → e.tmpl = true →
    e.acc = .rw → e.cls = .config →
    e ∉ [E.collective_laggard_timeout, E.pool_low_water, E.sequence_reserve, E.sequence_length] →
    (typeOfTemplate e.idx = 1 → s.get (E.collective_state.h (hIdx h)) ≠ 0) →
    (typeOfTemplate e.idx = 2 → s.get (E.sequence_state.h (hIdx h)) ≠ 0) →
    (typeOfTemplate e.idx = 3 → s.get (E.pool_state.h (hIdx h)) ≠ 0) →
    typeOfTemplate e.idx ≠ 0 → typeOfTemplate e.idx ≠ 4 →
    (typeOfTemplate e.idx = 5 → s.get (E.spring_state.h (hIdx h)) ≠ 0) →
    (typeOfTemplate e.idx = 6 → s.get (E.gauge_state.h (hIdx h)) ≠ 0) →
    (typeOfTemplate e.idx = 7 → s.get (E.trace_state.h (hIdx h)) ≠ 0 ∧ s.get (E.trace_state.h (hIdx h)) ≠ 3) →
    (typeOfTemplate e.idx = 8 → s.get (E.window_state.h (hIdx h)) ≠ 0) →
    (typeOfTemplate e.idx = 9 → s.get (E.gate_state.h (hIdx h)) ≠ 0) →
    (typeOfTemplate e.idx = 10 → s.get (E.template_state.h (hIdx h)) ≠ 0) →
    (∀ x, writeHook s w e n k (hIdx h) v = some x → x.1 ≠ 0x06) →
    exec (.write r [writeIt e n k h v]) s = .next (after s (answered s r 0x82 (writeIt e n k h v) 0x0C))

/-- An item of a WRITE that fails one of the first five checks of R55 is answered with that status, and nothing changes: a
write without the right returns 0x05, and one to a read-only entry, by a role that reads it, returns 0x08 (R34, R55). -/
def Obligations.RefusedWriteChangesNothing : Prop :=
  ∀ (s : State) (r : Req) (w : Who) (it : Item), Serves s r w →
    (∀ st : Nat, writeGate5 s w it = .error st → exec (.write r [it]) s = .next (after s (answered s r 0x82 it st))) ∧
    (∀ e : Ent, entOf it.index it.sub = some e → it.sub ≠ 0 → existsOk s it true = true → typeOfTemplate it.index = 0 →
      (rightOf s w.role it.index it.sub = 0 → exec (.write r [it]) s = .next (after s (answered s r 0x82 it 0x05))) ∧
      (e.readOnly = true → 1 ≤ rightOf s w.role it.index it.sub →
        exec (.write r [it]) s = .next (after s (answered s r 0x82 it 0x08))) ∧
      (e.readOnly = false → rightOf s w.role it.index it.sub < 2 →
        exec (.write r [it]) s = .next (after s (answered s r 0x82 it 0x05))))

/-- A command of the table that requests an action by an entry is the WRITE of that entry, with one item: whatever holds of
WRITE, its refusals included, holds of it (R48, R55; the model's choice, log 7). -/
def Obligations.CommandsAreWrites : Prop :=
  ∀ (s : State) (r : Req) (c ft h k n p target v : Nat),
    exec (.snapAt r v) s = exec (.write r [writeIt E.snap_at 0 0 0 v]) s ∧
    exec (.attrReset r v) s = exec (.write r [writeIt E.attr_reset 0 0 0 v]) s ∧
    exec (.traceOpenAt r h v) s = exec (.write r [writeIt E.trace_open_at 0 0 h v]) s ∧
    exec (.traceCloseAt r h v) s = exec (.write r [writeIt E.trace_close_at 0 0 h v]) s ∧
    exec (.collectiveArm r h v) s = exec (.write r [writeIt E.collective_arm 0 0 h v]) s ∧
    exec (.collectiveDisarm r h v) s = exec (.write r [writeIt E.collective_disarm 0 0 h v]) s ∧
    exec (.faultPinRearm r v) s = exec (.write r [writeIt E.fault_pin_rearm 0 0 0 v]) s ∧
    exec (.faultInject r v) s = exec (.write r [writeIt E.fault_inject 0 0 0 v]) s ∧
    exec (.gateStart r h v) s = exec (.write r [writeIt E.gate_start 0 0 h v]) s ∧
    exec (.gateStop r h v) s = exec (.write r [writeIt E.gate_stop 0 0 h v]) s ∧
    exec (.gateSwitchAt r h v) s = exec (.write r [writeIt E.gate_switch_at 0 0 h v]) s ∧
    exec (.fwVerify r v) s = exec (.write r [writeIt E.fw_verify 0 0 0 v]) s ∧
    exec (.fwActivate r v) s = exec (.write r [writeIt E.fw_activate 0 0 0 v]) s ∧
    exec (.fwCommit r v) s = exec (.write r [writeIt E.fw_commit 0 0 0 v]) s ∧
    exec (.lcAdvance r v) s = exec (.write r [writeIt E.lc_advance 0 0 0 v]) s ∧
    exec (.mctpRestart r v) s = exec (.write r [writeIt E.mctp_restart 0 0 0 v]) s ∧
    exec (.hringEnable r k v) s = exec (.write r [writeIt E.hring_enable k 0 0 v]) s ∧
    exec (.windowOpen r h v) s = exec (.write r [writeIt E.window_open 0 0 h v]) s ∧
    exec (.cxlInvalidate r c v) s = exec (.write r [writeIt E.cxl_invalidate c 0 0 v]) s ∧
    exec (.cxlResume r c v) s = exec (.write r [writeIt E.cxl_resume c 0 0 v]) s ∧
    exec (.cxlEnable r c v) s = exec (.write r [writeIt E.cxl_enable c 0 0 v]) s ∧
    exec (.millraceRoleWrite r p v) s = exec (.write r [writeIt E.millrace_role p 0 0 v]) s ∧
    exec (.millraceLoopbackWrite r p v) s = exec (.write r [writeIt E.millrace_loopback p 0 0 v]) s ∧
    exec (.millracePrbsWrite r p v) s = exec (.write r [writeIt E.millrace_prbs p 0 0 v]) s ∧
    exec (.txSleep r p v) s = exec (.write r [writeIt E.millrace_tx_sleep p 0 0 v]) s ∧
    exec (.sendWake r p v) s = exec (.write r [writeIt E.millrace_send_wake p 0 0 v]) s ∧
    exec (.poolEnable r h v) s = exec (.write r [writeIt E.pool_enable 0 0 h v]) s ∧
    exec (.poolFree r h v) s = exec (.write r [writeIt E.pool_free 0 0 h v]) s ∧
    exec (.poolShare r h v) s = exec (.write r [writeIt E.pool_share 0 0 h v]) s ∧
    exec (.sequenceActivate r h v) s = exec (.write r [writeIt E.sequence_activate 0 0 h v]) s ∧
    exec (.sequenceReserve r h v) s = exec (.write r [writeIt E.sequence_reserve 0 0 h v]) s ∧
    exec (.sequenceLength r h v) s = exec (.write r [writeIt E.sequence_length 0 0 h v]) s ∧
    exec (.portWidth r n v) s = exec (.write r [writeIt E.port_width n 0 0 v]) s ∧
    exec (.portMode r n v) s = exec (.write r [writeIt E.port_mode n 0 0 v]) s ∧
    exec (.portFec r n v) s = exec (.write r [writeIt E.port_fec n 0 0 v]) s ∧
    exec (.portRole r n v) s = exec (.write r [writeIt E.port_role n 0 0 v]) s ∧
    exec (.portAn r n v) s = exec (.write r [writeIt E.port_an n 0 0 v]) s ∧
    exec (.portRestore r n v) s = exec (.write r [writeIt E.port_restore n 0 0 v]) s ∧
    exec (.portLoopback r n v) s = exec (.write r [writeIt E.port_loopback n 0 0 v]) s ∧
    exec (.portPrbs r n v) s = exec (.write r [writeIt E.port_prbs n 0 0 v]) s ∧
    exec (.pwrTarget r v) s = exec (.write r [writeIt E.pwr_target 0 0 0 v]) s ∧
    exec (.pwrEnterAt r ft target) s = exec (.write r [writeIt E.pwr_enter_at 0 0 0 (ft + target * 2 ^ 64)]) s ∧
    exec (.pwrDomRequest r k v) s = exec (.write r [writeIt E.pwr_dom_request k 0 0 v]) s ∧
    exec (.pwrDomRetry r k v) s = exec (.write r [writeIt E.pwr_dom_retry k 0 0 v]) s ∧
    exec (.stShutdown r v) s = exec (.write r [writeIt E.st_shutdown 0 0 0 v]) s ∧
    exec (.springStart r h v) s = exec (.write r [writeIt E.spring_start 0 0 h v]) s ∧
    exec (.springStartOnLaunch r h v) s = exec (.write r [writeIt E.spring_start_on_launch 0 0 h v]) s ∧
    exec (.springStop r h v) s = exec (.write r [writeIt E.spring_stop 0 0 h v]) s ∧
    exec (.gaugeEnable r h v) s = exec (.write r [writeIt E.gauge_enable 0 0 h v]) s ∧
    exec (.recableOpenAt r v) s = exec (.write r [writeIt E.recable_open_at 0 0 0 v]) s ∧
    exec (.recableClose r v) s = exec (.write r [writeIt E.recable_close 0 0 0 v]) s ∧
    exec (.rackResetAt r v) s = exec (.write r [writeIt E.rack_reset_at 0 0 0 v]) s ∧
    exec (.planeEnable r v) s = exec (.write r [writeIt E.xbar_plane_enable 0 0 0 v]) s ∧
    exec (.rsvRedSeed r v) s = exec (.write r [writeIt E.rsv_red_seed 0 0 0 v]) s ∧
    exec (.rsvWindowRegion r v) s = exec (.write r [writeIt E.rsv_window_region 0 0 0 v]) s ∧
    exec (.ftLocalSet r v) s = exec (.write r [writeIt E.ft_local_set 0 0 0 v]) s ∧
    exec (.ftLaunchAt r v) s = exec (.write r [writeIt E.ft_launch_at 0 0 0 v]) s ∧
    exec (.ftLaunchCancel r v) s = exec (.write r [writeIt E.ft_launch_cancel 0 0 0 v]) s ∧
    exec (.weirClockMode r v) s = exec (.write r [writeIt E.weir_clock_mode 0 0 0 v]) s ∧
    exec (.weirStart r v) s = exec (.write r [writeIt E.weir_start 0 0 0 v]) s ∧
    exec (.weirStartOnLaunch r v) s = exec (.write r [writeIt E.weir_start_on_launch 0 0 0 v]) s ∧
    exec (.weirStop r v) s = exec (.write r [writeIt E.weir_stop 0 0 0 v]) s ∧
    exec (.weirEngines r v) s = exec (.write r [writeIt E.weir_engines 0 0 0 v]) s ∧
    exec (.weirMills r v) s = exec (.write r [writeIt E.weir_mills 0 0 0 v]) s ∧
    exec (.lockstepStart r v) s = exec (.write r [writeIt E.lockstep_start 0 0 0 v]) s ∧
    exec (.lockstepStartOnLaunch r v) s = exec (.write r [writeIt E.lockstep_start_on_launch 0 0 0 v]) s ∧
    exec (.lockstepStop r v) s = exec (.write r [writeIt E.lockstep_stop 0 0 0 v]) s

/-- A READ of an entry answers its value and changes nothing; a read of a read-clear counter answers the value before the
increments of the same cycle and leaves those increments (R32, R38, R55). -/
def Obligations.ReadAnswersValue : Prop :=
  ∀ (s : State) (r : Req) (w : Who) (it : Item) (e : Ent) (n k : Nat), Serves s r w → itemGate s w it false 1 = 0 →
    it.sub ≠ 0 → entOf it.index it.sub = some e → e.place it.index it.sub = (n, k) → e.ty ≠ .domain → it.data = [] →
    viewing s w = false → e ≠ E.snap_view → e ≠ E.pool_alloc → e ≠ E.trace_next → e ≠ E.pool_low_free →
    (e.acc = .ro ∨ e.acc = .rw ∨ e.acc = .w1c →
      exec (.read r [it]) s = .next (after s (s.emit (.response r 0x81 0 0
        [⟨it.index, it.sub, 0, it.handle, leBytes e.len (s.value e n k (hIdx it.handle))⟩])))) ∧
    (e.acc = .rc → ∀ c : Nat, s.get (e.loc n k (hIdx it.handle) 0) = c + mgetD s.cyc.incs (e.loc n k (hIdx it.handle) 0).key 0 →
      c < 2 ^ 64 →
      exec (.read r [it]) s = .next (after s ((s.set (e.loc n k (hIdx it.handle) 0)
        (mgetD s.cyc.incs (e.loc n k (hIdx it.handle) 0).key 0)).emit (.response r 0x81 0 0
          [⟨it.index, it.sub, 0, it.handle, leBytes e.len c⟩]))))

/-- Until `device.ready` reads 1, from stage 2 of a start on, a request is answered with PDU status 0x01 and no items, but for
a session-0 READ or READ_BLOCK; nothing changes (R56). -/
def Obligations.NotReadyAnswered : Prop :=
  ∀ (s : State) (r : Req), reachable s r = true → s.get E.boot_stage.s ≠ 1 → s.get E.lc_state.s ≠ 0 →
    s.getB E.device_ready.s = false →
    (∀ data : List Byte, exec (.sessionOpen r data) s = .next (after s (s.emit (.response r 0xB0 0x01 r.tx [])))) ∧
    (r.session ≠ 0 ∨ (∃ p, r.via = .control p) → (∀ items : List Item,
      exec (.read r items) s = .next (after s (s.emit (.response r 0x81 0x01 r.tx []))) ∧
      exec (.readBlock r items) s = .next (after s (s.emit (.response r 0x83 0x01 r.tx []))))) ∧
    (r.session ≠ 0 ∨ r.via ≠ .udp → (∀ items : List Item,
      exec (.write r items) s = .next (after s (s.emit (.response r 0x82 0x01 r.tx []))) ∧
      exec (.writeBlock r items) s = .next (after s (s.emit (.response r 0x84 0x01 r.tx []))) ∧
      exec (.create r items) s = .next (after s (s.emit (.response r 0x90 0x01 r.tx []))) ∧
      exec (.destroy r items) s = .next (after s (s.emit (.response r 0x91 0x01 r.tx []))) ∧
      exec (.subscribe r items) s = .next (after s (s.emit (.response r 0xC1 0x01 r.tx [])))) ∧
      exec (.txOpen r) s = .next (after s (s.emit (.response r 0xA0 0x01 r.tx []))) ∧
      (∀ ft : Nat, exec (.txCommit r ft) s = .next (after s (s.emit (.response r 0xA1 0x01 r.tx [])))) ∧
      exec (.txAbort r) s = .next (after s (s.emit (.response r 0xA2 0x01 r.tx []))) ∧
      exec (.txStatus r) s = .next (after s (s.emit (.response r 0xA3 0x01 r.tx []))) ∧
      exec (.sessionClose r) s = .next (after s (s.emit (.response r 0xB1 0x01 r.tx []))))

/-- A request that names an FT at or before now is answered 0x0A, and one less than 10,000 ns ahead 0x06; neither changes
anything (R77), for a local launch, a Weir start, a gate-list start, a firmware activation and a rack-wide reset. -/
def Obligations.PassedTimeRefused : Prop :=
  ∀ (s : State) (r : Req) (w : Who) (h v st : Nat), v < s.ft + 10000 → st = (if v ≤ s.ft then 0x0A else 0x06) →
    (Accepts s r w E.ft_launch_at 0 0 0 v → exec (.ftLaunchAt r v) s =
      .next (after s (answered s r 0x82 (writeIt E.ft_launch_at 0 0 0 v) st))) ∧
    (Accepts s r w E.weir_start 0 0 0 v → exec (.weirStart r v) s =
      .next (after s (answered s r 0x82 (writeIt E.weir_start 0 0 0 v) st))) ∧
    (Accepts s r w E.gate_start 0 0 h v → exec (.gateStart r h v) s =
      .next (after s (answered s r 0x82 (writeIt E.gate_start 0 0 h v) st))) ∧
    (Accepts s r w E.fw_activate 0 0 0 v → exec (.fwActivate r v) s =
      .next (after s (answered s r 0x82 (writeIt E.fw_activate 0 0 0 v) st))) ∧
    (Accepts s r w E.rack_reset_at 0 0 0 v → exec (.rackResetAt r v) s =
      .next (after s (answered s r 0x82 (writeIt E.rack_reset_at 0 0 0 v) st)))

/-- Pending actions stay in their firing order when one is scheduled or dropped: by FT, then by the order of R80, then by their
receipt; no other pending action is lost (R78, R80). -/
def Obligations.ScheduleKeepsOrder : Prop :=
  ∀ (s : State) (ft : Nat) (k : ActKind), Ordered s.sched → (∀ a ∈ s.sched, a.seq < s.schedSeq) →
    Ordered (s.schedule ft k).sched ∧ Ordered (s.unschedule k).sched ∧
    (s.schedule ft k).sched.Perm (⟨ft, s.schedSeq, k⟩ :: s.sched) ∧
    (∀ a ∈ (s.schedule ft k).sched, a.seq < (s.schedule ft k).schedSeq) ∧
    ∀ a : Act, a ∈ (s.unschedule k).sched ↔ a ∈ s.sched ∧ a.kind ≠ k

/-- A source whose sticky bit is clear sets when it is raised, and the setting counts once in `fault.sets`; a source whose bit
is set stays set, and the raise counts nowhere and runs no reaction (R503). -/
def Obligations.SourceSetsOnce : Prop :=
  ∀ (s : State) (src : Nat), sourceKnown src = true →
    bitAt ((s.raise src).get (E.fault_sticky.n (src / 64))) (src % 64) = true ∧
    (s.srcSet src = false → s.get (E.fault_sets.n src) < 2 ^ 64 →
      (s.raise src).get (E.fault_sets.n src) = (s.get (E.fault_sets.n src) + 1) % 2 ^ 64) ∧
    (s.srcSet src = true → (∀ x, (s.raise src).get (E.fault_sets.n x) = s.get (E.fault_sets.n x)) ∧
      (s.raise src).out = s.out ∧ (s.raise src).todo = s.todo ∧ (s.raise src).mgmt = s.mgmt ∧ (s.raise src).flt = s.flt)

/-- With Millrace as the source and no correction left, a tick of FT lasts 3 or 4 edges of the forwarded clock, and 8 ticks
last 25 (R65); FT_TICK moves FT by that rule and leaves entries, memory, handles and pending actions. -/
def Obligations.TicksFollowClock : Prop :=
  (∀ (sync : Nat) (t : TimeSt), (sync = 1 ∨ sync = 2) → t.acc < 8 → t.slew = 0 →
    ((tickTime sync t).edges = t.edges + 3 ∨ (tickTime sync t).edges = t.edges + 4) ∧ (tickTime sync t).acc < 8 ∧
    (tickTime sync t).ft = (t.ft + 1) % 2 ^ 64 ∧ ((tickTime sync)^[8] t).ft = (t.ft + 8) % 2 ^ 64 ∧
    ((tickTime sync)^[8] t).edges = t.edges + 25 ∧ ((tickTime sync)^[8] t).acc = t.acc) ∧
  (∀ s t : State, Idle s → s.time.loadAt = none → (ftTick s).isDue .lockstep = false → exec .ftTick s = .next t →
    t.time = tickTime (s.get E.ft_sync_state.s) s.time ∧ t.cat = s.cat ∧ t.mem = s.mem ∧ t.hs = s.hs ∧ t.sched = s.sched)

/-- A destroyed index is live no more, its generation has advanced, from 0xFF to 0x01 and never to 0x00, and it stays in
quarantine for 4,195,240 ns, in which it cannot be created (R44, R45). -/
def Obligations.DestroyQuarantines : Prop :=
  (∀ g : Nat, nextGen 255 = 1 ∧ (g < 255 → nextGen g = g + 1) ∧ nextGen g ≠ 0) ∧
  ∀ (s : State) (t i : Nat), 1 ≤ t → t ≤ 10 → i < 2 ^ 20 → (t = 4 → 16384 ≤ i) →
    (destroyNow s t i).liveAt t i = none ∧ (destroyNow s t i).genOf t i = nextGen (s.genOf t i) ∧
    (destroyNow s t i).ft = s.ft ∧ (destroyNow s t i).quarFt t i = some (s.ft + 4195240) ∧
    (destroyNow s t i).freeIdx t i = false ∧
    (∀ j, j < 2 ^ 20 → j ≠ i → (destroyNow s t i).genOf t j = s.genOf t j)

/-- Another partition's handle does not exist for a Tenant: every check of an item that names it answers as for a free index,
and a READ or WRITE of it is answered 0x03 and changes nothing (R36, R45). -/
def Obligations.OtherPartitionHidden : Prop :=
  ∀ (s : State) (r : Req) (w : Who) (it : Item) (t : Nat) (x : HRec), Serves s r w → w.role = 3 →
    t = typeOfTemplate it.index → t ≠ 0 → s.liveAt t (hIdx it.handle) = some x → x.part ≠ w.part →
    (∀ (u : State) (write : Bool) (need : Nat),
      u = { s with hs := { s.hs with live := mdel s.hs.live (t * 2 ^ 20 + hIdx it.handle) } } →
      itemGate s w it write need = itemGate u w it write need) ∧
    (existsOk s it false = true → exec (.read r [it]) s = .next (after s (answered s r 0x81 it 0x03))) ∧
    (existsOk s it true = true → exec (.write r [it]) s = .next (after s (answered s r 0x82 it 0x03)))

/-- A policer is the two-rate three-colour marker of R209: a write that would make CIR exceed PIR is refused with 0x06; tokens
are in 1/65,536 byte with the remainder of each refill carried, so that a refill may be split at any time; a packet is marked
by the pseudo-code; a packet longer than PBS is red, one longer than CBS never green; both buckets start full. -/
def Obligations.TwoRateMarker : Prop :=
  (∀ (s : State) (r : Req) (w : Who) (h v : Nat),
    (Accepts s r w E.policer_cir 0 0 h v → s.get (E.policer_pir.h (hIdx h)) < v →
      exec (.write r [writeIt E.policer_cir 0 0 h v]) s =
        .next (after s (answered s r 0x82 (writeIt E.policer_cir 0 0 h v) 0x06))) ∧
    (Accepts s r w E.policer_pir 0 0 h v → v < s.get (E.policer_cir.h (hIdx h)) →
      exec (.write r [writeIt E.policer_pir 0 0 h v]) s =
        .next (after s (answered s r 0x82 (writeIt E.policer_pir 0 0 h v) 0x06)))) ∧
  (∀ rate rem dt du : Nat, rem < 15625 →
    15625 * (refill rate rem dt).1 + (refill rate rem dt).2 = 128 * rate * dt + rem ∧ (refill rate rem dt).2 < 15625 ∧
    (refill rate rem (dt + du)).1 = (refill rate rem dt).1 + (refill rate (refill rate rem dt).2 du).1 ∧
    (refill rate rem (dt + du)).2 = (refill rate (refill rate rem dt).2 du).2) ∧
  (∀ (s : State) (i len t arriving tc tp cbs pbs b inc : Nat), (s.pol i).last ≤ t →
    cbs = 65536 * s.get (E.policer_cbs.h i) → pbs = 65536 * s.get (E.policer_pbs.h i) → b = 65536 * len →
    tc = min cbs ((s.pol i).tc + (refill (s.get (E.policer_cir.h i)) (s.pol i).rc (t - (s.pol i).last)).1) →
    tp = min pbs ((s.pol i).tp + (refill (s.get (E.policer_pir.h i)) (s.pol i).rp (t - (s.pol i).last)).1) →
    inc = (if s.getB (E.policer_aware.h i) then arriving else 0) →
    (inc = 2 ∨ tp < b → (s.mark3 i len t arriving).1 = 2 ∧ ((s.mark3 i len t arriving).2.pol i).tp = tp ∧
      ((s.mark3 i len t arriving).2.pol i).tc = tc) ∧
    (¬ (inc = 2 ∨ tp < b) → (inc = 1 ∨ tc < b) → (s.mark3 i len t arriving).1 = 1 ∧
      ((s.mark3 i len t arriving).2.pol i).tp = tp - b ∧ ((s.mark3 i len t arriving).2.pol i).tc = tc) ∧
    (¬ (inc = 2 ∨ tp < b) → ¬ (inc = 1 ∨ tc < b) → (s.mark3 i len t arriving).1 = 0 ∧
      ((s.mark3 i len t arriving).2.pol i).tp = tp - b ∧ ((s.mark3 i len t arriving).2.pol i).tc = tc - b) ∧
    ((s.mark3 i len t arriving).2.pol i).last = t ∧ (s.mark3 i len t arriving).2.cat = s.cat ∧
    (s.get (E.policer_pbs.h i) < len → (s.mark3 i len t arriving).1 = 2) ∧
    (s.get (E.policer_cbs.h i) < len → (s.mark3 i len t arriving).1 ≠ 0)) ∧
  (∀ (s t : State) (i part : Nat), t = s.makeLive 4 i part →
    (t.pol i).tc = 65536 * t.get (E.policer_cbs.h i) ∧ (t.pol i).tp = 65536 * t.get (E.policer_pbs.h i))

/-- Cells that leave an account return to shared use while that use is above zero, and only then to the guaranteed minimum
(R176), in an egress queue's account and in an internal output's. -/
def Obligations.AccountReleasesSharedFirst : Prop :=
  (∀ (s : State) (n q cells colour f : Nat), f = qSlot n q → n < 1024 → q < 16 →
    cells ≤ s.get (E.queue_shared_used.h f) + s.get (E.queue_min_used.h f) →
    (cells ≤ s.get (E.queue_shared_used.h f) →
      (s.releaseQ n q cells colour).get (E.queue_shared_used.h f) = s.get (E.queue_shared_used.h f) - cells ∧
      (s.releaseQ n q cells colour).get (E.queue_min_used.h f) = s.get (E.queue_min_used.h f)) ∧
    (s.get (E.queue_shared_used.h f) ≤ cells →
      (s.releaseQ n q cells colour).get (E.queue_shared_used.h f) = 0 ∧
      (s.releaseQ n q cells colour).get (E.queue_min_used.h f) + cells =
        s.get (E.queue_shared_used.h f) + s.get (E.queue_min_used.h f))) ∧
  (∀ (s : State) (o cells mu su : Nat), mgetD s.sw.intUsed o (0, 0) = (mu, su) → cells ≤ mu + su →
    (cells ≤ su → mgetD (s.releaseInt o cells).sw.intUsed o (0, 0) = (mu, su - cells)) ∧
    (su ≤ cells → mgetD (s.releaseInt o cells).sw.intUsed o (0, 0) = (mu + su - cells, 0)))

/-- A stop of the Weir schedule takes effect at the end of the current cycle: until then only the request is noted; then the
Weir packets that still wait are dropped and count in `weir.hold_drops`, and those whose header has left are stomped
(R425). -/
def Obligations.WeirStopsAtCycleEnd : Prop :=
  (∀ (s : State) (r : Req) (w : Who), Accepts s r w E.weir_stop 0 0 0 1 → s.get E.weir_state.s = 3 →
    exec (.weirStop r 1) s =
      .next (wrote s { s with weir := { s.weir with stopping := true } } r E.weir_stop 0 0 0 1)) ∧
  (∀ s a : State, a = s.lockDue → a.weirRunning = true → a.weir.stopping = true → a.weir.realign = none →
    a.weir.base + a.weir.s ≤ a.cyc.n → exec .weirCycleBoundary s = .next (after s a.weirHalt)) ∧
  (∀ s : State, s.get E.weir_hold_drops.s < 2 ^ 64 → s.weirHalt.get E.weir_state.s = 0 ∧ s.weirHalt.weirWaiting = [] ∧
    s.weirHalt.get E.weir_hold_drops.s = (s.get E.weir_hold_drops.s + s.weirWaiting.length) % 2 ^ 64 ∧
    (∀ p ∈ s.weirWaiting, p.started = true → .stomp p.out ∈ s.weirHalt.out) ∧
    ∀ p ∈ s.sw.pkts, (∀ q ∈ s.weirWaiting, q.id ≠ p.id) → p ∈ s.weirHalt.sw.pkts)

/-- Writing `attr.reset` 1 clears every attribution record and frees records 1 to 4,094 on its cycle or at its commit, events of
that cycle count in the new table, a snapshot of the same FT comes before it, and a Tenant holds no right on the attribution
entries (R448). -/
def Obligations.AttributionReset : Prop :=
  (∀ (s u : State) (r : Req) (w : Who), Accepts s r w E.attr_reset 0 0 0 1 →
    u = s.cyc.attrs.foldl State.attrCount ({ s with attr := [] }.set E.attr_used.s 1) →
    exec (.attrReset r 1) s = .next (wrote s u r E.attr_reset 0 0 0 1) ∧
    (s.cyc.attrs = [] → u.attr = [] ∧ u.get E.attr_used.s = 1 ∧ ∀ i, attrBytes u.attr i = attrBytes [] i)) ∧
  (∀ (s : State) (w : Who), w.inTx = true → writeGate5 s w (writeIt E.attr_reset 0 0 0 1) = .ok (E.attr_reset, 0, 0, 0) →
    (writeItem s w (writeIt E.attr_reset 0 0 0 1)).1 = 0 ∧
    (writeItem s w (writeIt E.attr_reset 0 0 0 1)).2.attr =
      (s.cyc.attrs.foldl State.attrCount ({ s with attr := [] }.set E.attr_used.s 1)).attr) ∧
  (∀ (s : State) (d : AttrRec), (s.attrAdd d).cyc.attrs = s.cyc.attrs ++ [d]) ∧
  (∀ (ft sa sb id : Nat), (Act.before ⟨ft, sa, .snap⟩ ⟨ft, sb, .commit id⟩) = true) ∧
  (∀ (s : State) (sub : Nat), rightOf s 3 0xC200 sub = 0)

/-- Commands that only move a Millrace link's sleep state leave memory, fabric time, handles, launches and pending actions, and
every entry but the two states of the port that R101 and R102 name and the port's counts of dropped frames, wrong symbols and
bubbles (R95, R96). -/
def Obligations.SleepFrame : Prop :=
  ∀ (s t : State) (p : Nat) (rx : MrRx), Idle s →
    exec (.sleep p rx) s = .next t ∨ exec (.receiveWake p) s = .next t ∨ exec (.transmitWakeDone p) s = .next t →
    t.mem = s.mem ∧ t.time = s.time ∧ t.hs = s.hs ∧ t.launches = s.launches ∧ t.sched = s.sched ∧ t.sw = s.sw ∧
    ∀ l : Loc, l.key ∉ [(E.millrace_rx_state.n p).key, (E.millrace_tx_state.n p).key, (E.millrace_frame_drops.n p).key,
        (E.millrace_code_errors.n p).key, (E.millrace_bubbles.n p).key] →
      t.get l = s.get l

/-- A byte of memory in a stored range reads as stored, and every other byte as before. -/
def Obligations.MemoryReadBack : Prop :=
  ∀ (m : List Host.Cell) (a : Nat) (bs : List Byte),
    (∀ i, i < bs.length → memByte (memPut m a bs) (a + i) = bs.getD i 0) ∧
    ∀ x, x < a ∨ a + bs.length ≤ x → memByte (memPut m a bs) x = memByte m x

/-- Where their conditions hold, an FT tick (with a lock-step start due or not), a time mark on an upstream port, the second
missed mark, the end of holdover, writes of ft.local_set, ft.launch_at and ft.launch_cancel, and a due launch each answer a next
state: the one named in the clause. Rules: R65, R71, R72, R73, R74, R84, R86. Where a clause rests on the model's own reading:
log 4, 47, 48, 50, 177, 178. -/
def Obligations.TimeCompletes : Prop :=
  ∀ s : State,
    ((ftTick s).isDue .lockstep = false → exec .ftTick s = .next (after s (ftTick s))) ∧
    ((ftTick s).isDue .lockstep = true → exec .ftTick s = .next (after s (((ftTick s).unschedule .lockstep).lockGo))) ∧
    (∀ (p v : Nat) (x : MrRx), FrameTaken s p x (.mark v) → s.get (E.millrace_role.n p) = 1 →
      exec (.timeMark p x v) s = .next (after s (takeMark (heardState s p x) p v x.edge))) ∧
    (∀ (p : Nat), s.get E.ft_source_port.s = p → p < 2 → s.get E.ft_sync_state.s ≠ 0 →
      exec (.missedTimeMarks p) s = .next (after s (sourceLost s (otherUp s p)))) ∧
    (s.get E.ft_sync_state.s = 3 → s.time.holdStart + s.get E.ft_holdover_limit.s ≤ s.ft →
      exec .holdoverExpire s = .next (after s ((setSync s 0).ftFlag 4))) ∧
    (∀ (r : Req) (w : Who) (v : Nat), Accepts s r w E.ft_local_set 0 0 0 v → s.get E.ft_sync_state.s = 0 →
      exec (.ftLocalSet r v) s = .next (wrote s { s with time := { s.time with loadAt := some v } }
        r E.ft_local_set 0 0 0 v)) ∧
    (∀ (v : Nat), s.time.loadAt = some v → s.get E.ft_sync_state.s = 0 → v < 2 ^ 64 → (ftTick s).ft = v) ∧
    (∀ (r : Req) (w : Who) (v : Nat), Accepts s r w E.ft_launch_at 0 0 0 v → s.dropLaunch.ftTest v = 0 →
      s.launches.any (fun x => x.target = v) = false →
      exec (.ftLaunchAt r v) s = .next (wrote s
        ((s.dropLaunch.schedule v .launch).set E.ft_launch_pending.s v) r E.ft_launch_at 0 0 0 v)) ∧
    (∀ (r : Req) (w : Who) (v : Nat) (t : Nat), Accepts s r w E.ft_launch_cancel 0 0 0 v → v = 1 →
      s.nextLaunch = some t →
      exec (.ftLaunchCancel r v) s = .next (wrote s
        (s.dropLaunch.set E.ft_launch_pending.s 0) r E.ft_launch_cancel 0 0 0 v)) ∧
    (∀ (x : LaunchRec), s.isDue .launch = true →
      s.launches.find? (fun r => r.armed && decide (some r.target = s.dueAct.map (·.ft))) = some x →
      exec .launchFire s = .next (after s
        (({ s with launches := s.launches.filter (fun r => r.seq ≠ x.seq),
                                  time := { s.time with step := (s.time.step + 1) % 2 ^ 32 } }).later .launch).lockFollow))

/-- Arm, confirm and abort frames on the source port make, arm and drop a launch record and are relayed; the confirm deadline,
the expiry of an aborted sequence, the second copy of a missed notice and the return to sleep after it, missed notices, barrier
arrivals and releases, lock-step digests and a missing digest each answer the next state named in the clause. Rules: R105, R106,
R107, R110, R252. Where a clause rests on the model's own reading: log 4, 48, 57, 58, 127. -/
def Obligations.LaunchFramesComplete : Prop :=
  ∀ s : State,
    (∀ (p seq target : Nat) (x : MrRx), FrameTaken s p x (.arm seq target) → s.get (E.millrace_role.n p) = 1 → s.get E.ft_source_port.s = p →
      s.get E.ft_sync_state.s = 2 →
      s.ft + 5000 < target → target ≤ s.ft + 1000000000 → s.launches.find? (fun r => r.seq = seq) = none →
      abortedRecently s seq = false → s.launches.any (fun r => r.target = target) = false →
      s.nextLaunch ≠ some target → s.launches.length < 8 →
      exec (.arm p x seq target) s = .next (after s
        ({ mrSendRole (heardState s p x) 2 80 (.arm seq target) with launches := s.launches ++ [⟨seq, target, false⟩] }))) ∧
    (∀ (p seq : Nat) (y : MrRx) (x : LaunchRec), FrameTaken s p y (.confirm seq) → s.get (E.millrace_role.n p) = 1 →
      s.get E.ft_source_port.s = p →
      s.launches.find? (fun r => r.seq = seq) = some x → x.armed = false → s.ft < x.target - 5000 →
      exec (.confirm p y seq) s = .next (after s
        ({ mrSendRole (heardState s p y) 2 80 (.confirm seq) with
          launches := s.launches.map fun r => if r.seq = seq then { r with armed := true } else r }))) ∧
    (∀ (p seq : Nat) (y : MrRx) (x : LaunchRec), FrameTaken s p y (.abort seq) → s.get (E.millrace_role.n p) = 1 →
      s.get E.ft_source_port.s = p →
      s.launches.find? (fun r => r.seq = seq) = some x → s.ft < x.target →
      exec (.abort p y seq) s = .next (after s
        ({ mrSendRole (heardState s p y) 2 80 (.abort seq) with launches := s.launches.filter (fun r => r.seq ≠ seq) }))) ∧
    (∀ (seq : Nat) (x : LaunchRec), s.launches.find? (fun r => r.seq = seq) = some x → x.armed = false →
      x.target - 5000 ≤ s.ft →
      exec (.confirmDeadline seq) s = .next (after s
        (reportMiss { s with launches := s.launches.filter (fun r => r.seq ≠ seq) } seq 7))) ∧
    (∀ (seq : Nat), exec (.abortedSequenceExpire seq) s = .next (after s
        ({ s with aborted := s.aborted.filter (fun x => !(x.1 == seq && decide (x.2 + 1000000 < s.ft + 1))) }))) ∧
    (∀ (p : Nat) (due : List MissedNote), due = ((mrOf s p).notes.filter (fun n => n.sent = 1 ∧ n.at_ + 1000 ≤ s.ft)) →
      due ≠ [] →
      s.get (E.millrace_tx_state.n p) = 1 →
      exec (.missedNoticeRepeat p) s = .next (after s
        (mrMod (due.foldl (fun st n => mrSend st p 0 (.missed n.payload)) s) p fun m => { m with
          notes := m.notes.filter (fun n => ¬ (n.sent = 1 ∧ n.at_ + 1000 ≤ s.ft)),
          sleepAt := if m.noticeWake then some (s.ft + 10000) else m.sleepAt }))) ∧
    (∀ (p t : Nat), (mrOf s p).sleepAt = some t → t ≤ s.ft → (mrOf s p).notes = [] →
      s.getB (E.millrace_tx_sleep.n p) = true →
      s.get (E.millrace_tx_state.n p) = 1 →
      exec (.missedNoticeSleepAgain p) s = .next (after s
        (txFallAsleep (mrMod s p fun m => { m with sleepAt := none, noticeWake := false }) p))) ∧
    (∀ (p : Nat) (payload : List Byte) (x : MrRx), FrameTaken s p x (.missed payload) → s.get (E.millrace_role.n p) = 2 →
      exec (.missedNotice p x payload) s = .next (after s (mrSendRole (heardState s p x) 1 80 (.missed payload)))) ∧
    (∀ (p h : Nat) (x : MrRx), FrameTaken s p x (.arrive h) → s.get (E.millrace_role.n p) = 2 →
      exec (.barrierArrive p x h) s = .next (after s (mrSendRole (heardState s p x) 1 80 (.arrive h)))) ∧
    (∀ (p h : Nat) (y : MrRx) (x : HRec), FrameTaken s p y (.release h) → s.get (E.millrace_role.n p) = 1 →
      s.get E.ft_source_port.s = p → s.liveH 1 h = some x →
      exec (.barrierRelease p y h) s = .next (after s
        ((mrSendRole (heardState s p y) 2 80 (.release h)).later (.barrierRelease h)))) ∧
    (∀ (p : Nat) (payload : List Byte) (x : MrRx), FrameTaken s p x (.digest payload) → s.get (E.millrace_role.n p) = 3 →
      exec (.lockStepDigest p x payload) s = .next (after s ((heardState s p x).later (.mrDigest p payload)))) ∧
    (∀ (cur : Nat), s.get E.lockstep_state.s = 3 → s.lockWindow = some cur → s.lock.compared + 3 ≤ cur →
      s.lockComplete s.lock.compared = false →
      exec .digestMissing s = .next (after s
        (((s.mrFlag (s.get E.lockstep_peer_port.s) 7).inc E.lockstep_missing.s 1).lockForget s.lock.compared)))

/-- A Millrace port probes, trains, locks, exchanges capabilities and delay probes, times out, begins and ends a bubble, and
loses lock or clock: each event answers the next state named in the clause. Rules: R96, R97, R98, R99, R103. Where a clause
rests on the model's own reading: log 56, 174. -/
def Obligations.MillraceBringUpCompletes : Prop :=
  ∀ s : State,
    (∀ (p : Nat), s.get (E.millrace_state.n p) = 1 → (mrOf s p).lastProbe = 0 ∨ (mrOf s p).lastProbe + 1000000 ≤ s.ft + 1 →
      exec (.detectProbe p true) s = .next (after s
        (mrStage ((mrMod s p fun m => { m with lastProbe := s.ft + 1 }).emit (.mrLine p .detect)) p 2))) ∧
    (∀ (p : Nat), s.get (E.millrace_state.n p) = 1 → (mrOf s p).lastProbe = 0 ∨ (mrOf s p).lastProbe + 1000000 ≤ s.ft + 1 →
      exec (.detectProbe p false) s = .next (after s
        ((mrMod s p fun m => { m with lastProbe := s.ft + 1 }).emit (.mrLine p .detect)))) ∧
    (∀ (p : Nat), s.get (E.millrace_state.n p) = 2 → exec (.trainPhaseAligned p) s = .next (after s (mrStage s p 3))) ∧
    (∀ (p : Nat) (a : State), s.get (E.millrace_state.n p) = 3 → a = mrStage (s.emit (.mrLine p (.training true))) p 4 →
      exec (.symbolLockAchieved p) s = .next (after s
        ((List.range 16).foldl (fun st i => sendProbe st p i) (mrSend a p 0 (.capability (capPayload a p)))))) ∧
    (∀ (p lim : Nat), mrStageLimit (s.get (E.millrace_state.n p)) = some lim → (mrOf s p).stageAt + lim ≤ s.ft →
      (mrOf s p).mismatch = false →
      exec (.bringupTimeout p) s = .next (after s (((mrStage s p 1).inc (E.millrace_retrains.n p) 1).mrFlag p 1))) ∧
    (∀ (p : Nat) (payload : List Byte) (x : MrRx), s.get (E.millrace_state.n p) = 4 → FrameHeard s p x (.capability payload) →
      leAt payload 1 1 = partnerRole (s.get (E.millrace_role.n p)) →
      exec (.capability p x payload) s = .next (after s
        (mrTryActive (mrMod ((heardState s p x).set (E.millrace_partner.n p) (ofLe (payload.take 12))) p fun m =>
          { m with accepted := true, mismatch := false }) p))) ∧
    (∀ (p : Nat), s.get (E.millrace_state.n p) = 4 → (mrOf s p).mismatch = true → (mrOf s p).stageAt + 1000000 ≤ s.ft →
      exec (.roleMismatchRetry p) s = .next (after s
        (mrSend (mrMod s p fun m => { m with stageAt := s.ft }) p 0 (.capability (capPayload s p))))) ∧
    (∀ (p n turn : Nat) (x : MrRx), FrameHeard s p x (.probe n) →
      exec (.delayProbe p x n turn) s = .next (after s (mrSend (heardState s p x) p 0 (.echo n turn)))) ∧
    (∀ (p n turn edge : Nat) (x : MrRx) (q : Nat × Nat), s.get (E.millrace_state.n p) = 4 → FrameHeard s p x (.echo n turn) →
      (mrOf s p).probes.find? (fun q => q.1 = n) = some q →
      exec (.delayEcho p x n turn edge) s = .next (after s
        (mrTryActive (mrMod (heardState s p x) p fun m => { m with
          probes := m.probes.filter (fun q => q.1 ≠ n), echoes := m.echoes + 1,
            echoSum := m.echoSum + (edge - q.2 - turn) }) p))) ∧
    (∀ (p : Nat), s.get (E.millrace_prbs.n p) ≠ 1 → 3 ≤ s.get (E.millrace_state.n p) → (mrOf s p).bubble = false →
      exec (.codeError p) s = .next (after s
        ((mrMod (s.inc (E.millrace_code_errors.n p) 1) p fun m => { m with bubble := true }).inc
          (E.millrace_bubbles.n p) 1))) ∧
    (∀ (p pairs : Nat), (mrOf s p).bubble = true → pairs < 1024 →
      exec (.bubbleEnd p pairs) s = .next (after s
        (if 136 < pairs then (mrMod s p fun m => { m with bubble := false, rxRd := (true, false) }).mrFlag p 6
          else mrMod s p fun m => { m with bubble := false, rxRd := (true, false) }))) ∧
    (∀ (p : Nat), (mrOf s p).bubble = true →
      exec (.millraceLockLoss p false false) s = .next (after s
        (mrSourceLost (mrStage ((s.mrFlag p 6).mrFlag p 2) p 2) p))) ∧
    (∀ (p : Nat), 2 ≤ s.get (E.millrace_state.n p) → s.get (E.millrace_rx_state.n p) ≠ 2 →
      exec (.clockLost p) s = .next (after s (mrSourceLost (mrStage (s.mrFlag p 3) p 1) p)))

/-- A sleep frame puts the receiver to sleep, clock activity wakes it, a wake frame is counted, flagged and, where it may, wakes
the chip; a transmit wake ends or times out; accepted writes of the role, loop-back, test-pattern, sleep and wake entries of a
Millrace port have the effect named in the clause. Rules: R90, R100, R101, R102. Where a clause rests on the model's own
reading: log 48, 56. -/
def Obligations.MillraceLinksComplete : Prop :=
  ∀ s : State,
    (∀ (p : Nat) (x : MrRx), FrameTaken s p x .sleep →
      exec (.sleep p x) s = .next (after s ((heardState s p x).set (E.millrace_rx_state.n p) 2))) ∧
    (∀ (p : Nat), s.get (E.millrace_rx_state.n p) = 2 → exec (.receiveWake p) s = .next (after s (s.set
      (E.millrace_rx_state.n p) 1))) ∧
    (∀ (p : Nat) (a : State), mrCarries s p = true → (mrOf s p).bubble = false → s.get (E.millrace_rx_state.n p) = 1 →
      a = (s.inc (E.millrace_wakes.n p) 1).mrFlag p 8 →
      exec (.wake p) s = .next (after s
        (if a.getB (E.millrace_rx_wake_enable.n p) then a.later (.wakeEvent 0) else a))) ∧
    (∀ (p : Nat), s.get (E.millrace_tx_state.n p) = 3 → (mrOf s p).wakeAt + 200000 ≤ s.ft →
      exec (.txWakeTimeout p) s = .next (after s (mrSourceLost (mrStage s p 1) p))) ∧
    (∀ (p : Nat) (a : State), s.get (E.millrace_tx_state.n p) = 3 →
      a = sendNotes (mrSetLine (s.set (E.millrace_tx_state.n p) 1) p .idle) p →
      exec (.transmitWakeDone p) s = .next (after s
        (if a.getB (E.millrace_tx_sleep.n p) && !(mrOf a p).noticeWake then txFallAsleep a p else a))) ∧
    (∀ (r : Req) (w : Who) (p v : Nat), Accepts s r w E.millrace_role p 0 0 v → v ≠ 1 ∨ p < 2 →
      s.get E.ft_source_port.s ≠ p →
      exec (.millraceRoleWrite r p v) s = .next (wrote s
        (if s.get (E.millrace_role.n p) = v then s.set (E.millrace_role.n p) v
            else mrStage (s.set (E.millrace_role.n p) v) p (if v = 0 then 0 else 1)) r E.millrace_role p 0 0 v)) ∧
    (∀ (r : Req) (w : Who) (p v : Nat), Accepts s r w E.millrace_loopback p 0 0 v → v = 1 ∨ v = 2 →
      s.get E.ft_source_port.s ≠ p → lockstepOn s p = false →
      exec (.millraceLoopbackWrite r p v) s = .next (wrote s
        (if v = 1 then mrSetLine ((s.set (E.millrace_loopback.n p) v).set (E.millrace_state.n p) 6) p .off
          else (s.set (E.millrace_loopback.n p) v).set (E.millrace_state.n p) 6) r E.millrace_loopback p 0 0 v)) ∧
    (∀ (r : Req) (w : Who) (p v : Nat), Accepts s r w E.millrace_prbs p 0 0 v → v = 0 ∨ (s.get E.ft_source_port.s ≠ p ∧
      lockstepOn s p = false) →
      s.get (E.millrace_prbs.n p) ≠ v →
      exec (.millracePrbsWrite r p v) s = .next (wrote s
        (mrSetLine (s.set (E.millrace_prbs.n p) v) p (if v = 1 then .prbs else .idle)) r E.millrace_prbs p 0 0 v)) ∧
    (∀ (r : Req) (w : Who) (p v : Nat), Accepts s r w E.millrace_tx_sleep p 0 0 v → v = 1 →
      s.get (E.millrace_tx_state.n p) = 1 →
      exec (.txSleep r p v) s = .next (wrote s
        (txFallAsleep (s.set (E.millrace_tx_sleep.n p) v) p) r E.millrace_tx_sleep p 0 0 v)) ∧
    (∀ (r : Req) (w : Who) (p v : Nat), Accepts s r w E.millrace_send_wake p 0 0 v → v = 1 →
      s.get (E.millrace_tx_state.n p) = 1 →
      exec (.sendWake r p v) s = .next (wrote s (mrSend s p 0 .wake) r E.millrace_send_wake p 0 0 v))

/-- Accepted writes of a port's width, mode, FEC, role, auto-negotiation, control role and partition, restore, loop-back and
test pattern set the entry and start the port again or note the request, as named in the clause. Rules: R129, R133, R135, R601.
Where a clause rests on the model's own reading: log 64, 75. -/
def Obligations.PortConfigurationCompletes : Prop :=
  ∀ s : State,
    (∀ (r : Req) (w : Who) (n v : Nat), Accepts s r w E.port_width n 0 0 v → 1 ≤ v → portFits s n v = true →
      65536 ≤ (s.set (E.port_width.n n) v).sharedCells →
      exec (.portWidth r n v) s = .next (wrote s ((s.set (E.port_width.n n) v).reconfigure n) r E.port_width n 0 0 v)) ∧
    (∀ (r : Req) (w : Who) (n v : Nat), Accepts s r w E.port_mode n 0 0 v → s.isPort n = true →
      roleMode (s.get (E.port_role.n n)) v = true →
      v ≠ 1 ∨ s.get (E.port_fec.n n) ≠ 1 →
      exec (.portMode r n v) s = .next (wrote s ((s.set (E.port_mode.n n) v).reconfigure n) r E.port_mode n 0 0 v)) ∧
    (∀ (r : Req) (w : Who) (n v : Nat), Accepts s r w E.port_fec n 0 0 v → s.isPort n = true → v ≠ 1 ∨
      s.get (E.port_mode.n n) ≠ 1 →
      exec (.portFec r n v) s = .next (wrote s ((s.set (E.port_fec.n n) v).reconfigure n) r E.port_fec n 0 0 v)) ∧
    (∀ (r : Req) (w : Who) (n v : Nat), Accepts s r w E.port_role n 0 0 v → s.isPort n = true →
      roleMode v (s.get (E.port_mode.n n)) = true →
      v ≠ 3 ∨ 4214 ≤ s.get (E.port_mtu.n n) →
      exec (.portRole r n v) s = .next (wrote s ((s.set (E.port_role.n n) v).reconfigure n) r E.port_role n 0 0 v)) ∧
    (∀ (r : Req) (w : Who) (n v : Nat), Accepts s r w E.port_an n 0 0 v → s.isPort n = true →
      exec (.portAn r n v) s = .next (wrote s ((s.set (E.port_an.n n) v).reconfigure n) r E.port_an n 0 0 v)) ∧
    (∀ (r : Req) (w : Who) (n v : Nat), Accepts s r w E.port_control_role n 0 0 v → s.isPort n = true →
      exec (.portControlRole r n false v) s = .next (wrote s
        ((s.set (E.port_control_role.n n) v).later (.controlClose n)) r E.port_control_role n 0 0 v)) ∧
    (∀ (r : Req) (w : Who) (n v : Nat), Accepts s r w E.port_control_partition n 0 0 v → s.isPort n = true →
      exec (.portControlRole r n true v) s = .next (wrote s
        ((s.set (E.port_control_partition.n n) v).later (.controlClose n)) r E.port_control_partition n 0 0 v)) ∧
    (∀ (r : Req) (w : Who) (n v : Nat), Accepts s r w E.port_restore n 0 0 v → s.isPort n = true → v = 1 →
      (s.prt n).good = fullMap (s.get (E.port_width.n n)) → s.get (E.port_state.n n) = 3 → s.get (E.port_mode.n n) = 0 →
      exec (.portRestore r n v) s = .next (wrote s
        (s.modPort n fun x => { x with ready := true }) r E.port_restore n 0 0 v)) ∧
    (∀ (r : Req) (w : Who) (n v : Nat), Accepts s r w E.port_loopback n 0 0 v → s.isPort n = true →
      s.get (E.port_state.n n) ≠ 0 →
      exec (.portLoopback r n v) s = .next (wrote s
        (let a := (s.set (E.port_loopback.n n) v).startPort n
            let b := if s.inService n then (a.requeuePort n).later (.memberLost n) else a
            if s.get (E.port_state.n n) = 2 ∨ s.get (E.port_state.n n) = 3 then b.linkNotice n 1 else b) r
              E.port_loopback n 0 0 v)) ∧
    (∀ (r : Req) (w : Who) (n v : Nat), Accepts s r w E.port_prbs n 0 0 v → s.isPort n = true →
      s.get (E.port_state.n n) ≠ 0 →
      exec (.portPrbs r n v) s = .next (wrote s
        (let a := (s.set (E.port_prbs.n n) v).startPort n
            let b := if s.inService n then (a.requeuePort n).later (.memberLost n) else a
            if s.get (E.port_state.n n) = 2 ∨ s.get (E.port_state.n n) = 3 then b.linkNotice n 1 else b) r E.port_prbs n
              0 0 v))

/-- The end of training, its time limit, a degrade after partial training, the errors of the lanes over one window, in service
and with a test pattern, the end of a restore hold, a lost or good lane and a lost reference each answer the next state named in
the clause. Rules: R112, R113, R116, R130, R133, R602. Where a clause rests on the model's own reading: log 61, 62, 64, 183. -/
def Obligations.PortTrainingCompletes : Prop :=
  ∀ s : State,
    (∀ (n map : Nat), s.get (E.port_width.n n) ≠ 0 → s.refLost.contains (n / 256) = false →
      s.groupsOut.contains (n / 16) = false →
      s.get (E.port_state.n n) = 1 ∨ s.get (E.port_state.n n) = 4 →
      s.get (E.port_loopback.n n) = 0 → s.get (E.port_prbs.n n) = 0 →
      map % 2 ^ s.get (E.port_width.n n) = fullMap (s.get (E.port_width.n n)) →
      exec (.trainingDone n map) s = .next (after s
        ((s.modPort n fun x => { x with good := fullMap (s.get (E.port_width.n n)) }).comeUp n (s.get (E.port_width.n n),
          0)))) ∧
    (∀ (n : Nat) (mis : Bool) (a : State), s.mgmt.restarting = false → s.get (E.port_state.n n) = 1 ∨
      s.get (E.port_state.n n) = 4 →
      (s.prt n).trainAt + 500000000 ≤ s.ft →
      a = ((s.modPort n fun x => { x with trainAt := s.ft, partialAt := none, good := 0 }).set (E.port_state.n n) 1) →
      exec (.trainingTimeout n mis) s = .next (after s (if mis then a.linkNotice n 5 else a))) ∧
    (∀ (n t : Nat) (x : Nat × Nat), (s.prt n).partialAt = some t → s.get (E.port_state.n n) = 1 ∨
      s.get (E.port_state.n n) = 4 → t + 100000000 ≤ s.ft →
      s.get (E.port_mode.n n) = 0 → s.setS n = some x →
      exec (.partialTrainingDegrade n) s = .next (after s (s.comeUp n x))) ∧
    (∀ (n : Nat) (rates : List Nat) (a : State), s.get (E.port_width.n n) ≠ 0 →
      a = (List.range (s.get (E.port_width.n n))).foldl (fun (x : State) k =>
        x.set (E.lane_pre_fec_ber.n (n + k)) (rates.getD k 0)) s →
      exec (.fecDegraded n (.errors rates)) s = .next (after s
        (if a.berLimit n * s.get (E.port_width.n n) < sumBy (fun k => rates.getD k 0) (List.range (s.get (E.port_width.n n)))
          then a.linkNotice n 4 else a))) ∧
    (∀ (n : Nat) (bits : List (List Bool)), s.get (E.port_state.n n) = 6 →
      exec (.fecDegraded n (.pattern bits)) s = .next (after s
        ((List.range (s.get (E.port_width.n n))).foldl (fun (x : State) k =>
          x.inc (E.lane_prbs_errors.n (n + k)) (prbsErrors (s.get (E.port_prbs.n n)) (bits.getD k []))) s))) ∧
    (∀ (n t : Nat), (s.prt n).holdAt = some t → s.get (E.port_state.n n) = 3 → s.get (E.port_mode.n n) = 0 →
      t + s.get (E.port_restore_hold.n n) ≤ s.ft → s.getB (E.port_auto_restore.n n) = true →
      (s.prt n).good = fullMap (s.get (E.port_width.n n)) →
      exec (.restoreHoldExpire n) s = .next (after s (s.modPort n fun x => { x with ready := true }))) ∧
    (∀ (l : Nat), laneFitted s.part l = true → s.get (E.lane_state.n l) ≠ 3 → s.get (E.lane_state.n l) ≠ 0 →
      exec (.laneLost l) s = .next (after s (((s.set (E.lane_state.n l) 3).inc (E.lane_losses.n l) 1).laneOut l))) ∧
    (∀ (l snr : Nat) (a : State), laneFitted s.part l = true →
      a = ({ s with refLost := s.refLost.filter (fun d => d ≠ l / 256) }.set (E.lane_snr.n l) snr) → a.portOf l = none →
      exec (.laneGood l snr) s = .next (after s (a))) ∧
    (∀ (l snr n : Nat) (a b : State), laneFitted s.part l = true →
      a = ({ s with refLost := s.refLost.filter (fun d => d ≠ l / 256) }.set (E.lane_snr.n l) snr) → a.portOf l = some n →
      b = (((a.set (E.lane_state.n l) 2).modPort n fun x => { x with good := setBitAt x.good (l - n) }).rxGood n) →
      exec (.laneGood l snr) s = .next (after s
        (if (b.prt n).good = fullMap (b.get (E.port_width.n n)) ∧ (b.prt n).holdAt.isNone = true then
          b.modPort n fun x => { x with holdAt := some s.ft } else b))) ∧
    (∀ (die : Nat) (a : State), s.refLost.contains die = false → a = { s with refLost := die :: s.refLost } →
      a.portList.filter (fun n => n / 256 = die ∧ a.get (E.port_state.n n) ≠ 0) = [] →
      exec (.referenceLost die) s = .next (after s (a))) ∧
    (∀ (die n w : Nat) (a b : State), s.refLost.contains die = false → a = { s with refLost := die :: s.refLost } →
      a.portList.filter (fun n => n / 256 = die ∧ a.get (E.port_state.n n) ≠ 0) = [n] → w = a.get (E.port_width.n n) →
      b = (((List.range w).foldl (fun (x : State) k => x.inc (E.lane_losses.n (n + k)) 1)
        (a.lanesTo n w 3) |>.modPort n fun x => { x with good := 0 }).rxGood n) →
      exec (.referenceLost die) s = .next (after s
        ((if b.get (E.port_state.n n) = 2 ∨ b.get (E.port_state.n n) = 3 then b.goDown n
          else (b.leave n 4).modPort n fun x => { x with partner := fullMap w }).linkNotice n 6)))

/-- A marker period sends one lane-status block per active lane and moves to the set in use, a good block updates the partner's
maps, a Rill frame is taken by the Gauge and arrives, an Ethernet frame goes to the host if it is link-local and else to the
bridge, and aged MAC entries go. Rules: R118, R119, R120, R121. Where a clause rests on the model's own reading: log 60, 61, 65,
75, 136. -/
def Obligations.PortFramesComplete : Prop :=
  ∀ s : State,
    (∀ (n : Nat), s.get (E.port_state.n n) = 2 ∨ s.get (E.port_state.n n) = 3 → s.get (E.port_mode.n n) = 0 →
      (s.prt n).markAt ≤ s.ft * 10 + 9 → (∀ x, s.setS n = some x → setMap x = (s.prt n).txMap) →
      exec (.laneStatusMarker n) s = .next (after s
        (((bitList 8 (s.prt n).txMap).foldl (fun (x : State) k => x.emit (.laneStatus n
          (laneBlock (s.prt n).txMap (s.prt n).good k (s.prt n).markSeq (if
            (s.prt n).ready then 1 else 0)))) s).modPort n fun r =>
          { r with markSeq := (r.markSeq + 1) % 256,
                   markAt := if r.markAt + 32768 < s.ft * 10 then s.ft * 10 + 32768 else r.markAt + 32768 }))) ∧
    (∀ (n : Nat) (x : Nat × Nat) (a : State), s.get (E.port_state.n n) = 2 ∨ s.get (E.port_state.n n) = 3 →
      s.get (E.port_mode.n n) = 0 → (s.prt n).markAt ≤ s.ft * 10 + 9 → s.setS n = some x →
      setMap x ≠ (s.prt n).txMap → x.1 ≤ popCount 8 (s.prt n).txMap →
      a = (bitList 8 (s.prt n).txMap).foldl (fun (y : State) k => y.emit (.laneStatus n (laneBlock (setMap x) (s.prt n).good k
        (s.prt n).markSeq (if (s.prt n).ready then 1 else 0)))) s →
      exec (.laneStatusMarker n) s = .next (after s
        (((a.modPort n fun r => { r with
          markSeq := (r.markSeq + 1) % 256,
          markAt := if r.markAt + 32768 < a.ft * 10 then a.ft * 10 + 32768 else r.markAt + 32768 }).txSet n x).widthSettled n))) ∧
    (∀ (n : Nat) (b : List Byte) (a : State) (x : Nat × Nat), crc8 (slice b 1 6) = leAt b 7 1 →
      s.get (E.port_state.n n) = 2 ∨ s.get (E.port_state.n n) = 3 →
      a = ((s.modPort n fun r =>
        { r with rxMap := leAt b 1 1, partner := leAt b 2 1, partnerFlag := leAt b 5 1 % 2 == 1 }).rxGood n) →
      a.setS n = some x → exec (.laneStatusBlock n b) s = .next (after s (a.widthSettled n))) ∧
    (∀ (n : Nat) (b : List Byte) (crc : Nat) (words : List (Nat × List Nat)) (left : Bool) (idle startFt fixed : Nat) (a : State),
      s.isPort n = true → s.get (E.port_mode.n n) = 0 → s.inService n = true →
      s.get (E.port_state.n n) ≠ 5 ∨ s.get (E.port_loopback.n n) ≠ 3 → fecCount (s.get (E.port_fec.n n)) words = (fixed, 0) →
      endingOf b crc = 0 → 64 ≤ b.length → b.length ≤ 4144 →
      a = gaugeReceive ((s.inc (E.port_fec_corrected.n n) fixed).inc (E.port_fec_uncorrectable.n n) 0) n b 0 idle startFt →
      landingFull a n 0 = false →
      exec (.rillFrameReceive n b crc words left idle startFt) s = .next (after s (arrive a n b none left false startFt))) ∧
    (∀ (n : Nat) (b : List Byte) (fcs : Nat) (left : Bool) (words : List (Nat × List Nat)) (used startFt fixed : Nat) (a : State),
      s.inService n = true → s.get (E.port_mode.n n) = 1 → landingFull s n used = false →
      s.get (E.port_state.n n) ≠ 5 ∨ s.get (E.port_loopback.n n) ≠ 3 → fecCount 0 words = (fixed, 0) → endingOf b fcs = 0 →
      60 ≤ b.length → a = (s.inc (E.port_fec_corrected.n n) fixed).inc (E.port_fec_uncorrectable.n n) 0 →
      b.length + 4 ≤ a.get (E.port_mtu.n n) →
      (0x0180C2000000 ≤ beAt b 0 6 → beAt b 0 6 ≤ 0x0180C200000F →
        (if (frameTag b).isSome then beAt b 16 2 else beAt b 12 2) ≠ 0x8808 →
        exec (.ethernetFrameReceive n b fcs left words used startFt) s = .next (after s
          ((a.sampleSee n 0 0 0xFFFF (.eth b) startFt).later (.hostRecord 0 0 n 0 0 b)))) ∧
      (¬ (0x0180C2000000 ≤ beAt b 0 6 ∧ beAt b 0 6 ≤ 0x0180C200000F) → a.get (E.port_role.n n) ≠ 3 →
        exec (.ethernetFrameReceive n b fcs left words used startFt) s = .next (after s
          (bridgeReceive (a.sampleSee n 0 0 0xFFFF (.eth b) startFt) n b false startFt)))) ∧
    (∀ (old : List MacRec) (a : State), s.get E.bridge_ageing_time.s ≠ 0 →
      old = (s.macTable.filter (fun x => !x.static_ && decide
        (s.macAge x.slot + s.get E.bridge_ageing_time.s * 1000000000 ≤ s.ft))) →
      a = (old.foldl (fun (st : State) x => st.macDel x.slot) s) →
      exec .macAgeing s = .next (after s (a.set E.bridge_mac_count.s a.macTable.length)))

/-- A Rill packet that arrives on a port in service, an Eddy re-entry, an arrival-fault window without and with a rate above the
limit, a bundle adaptation, and a corrected and an uncorrectable error of the Reservoir, of a packet and of the Basin, each
answer the next state named in the clause. Rules: R151, R157, R163, R165, R194. Where a clause rests on the model's own reading:
log 65, 71, 75, 96, 149. -/
def Obligations.SwitchArrivalCompletes : Prop :=
  ∀ s : State,
    (∀ (n : Nat) (b : List Byte) (used startFt : Nat), s.isPort n = true → s.get (E.port_mode.n n) = 0 →
      s.inService n = true ∨ s.recabled n = true →
      landingFull s n used = false →
      exec (.rillPacketArrival n b used startFt) s = .next (after s (arrive s n b none false false startFt))) ∧
    (∀ (id : Nat) (e : EddyPkt) (h : Rill) (payload : List Byte), s.sw.eddy.find? (fun e => e.pkt.id = id) = some e →
      e.enterFt + 160 ≤ s.ft → e.pkt.body = .rill h payload →
      s.get (E.bundle_link_allowance.n e.pkt.bundle) =
        (s.sub E.rill_eddy_used.s e.bytes).get (E.bundle_link_allowance.n e.pkt.bundle) →
      residenceUnits e.pkt.arrFt s.ft + s.get (E.bundle_link_allowance.n e.pkt.bundle) < h.lifetime →
      exec (.eddyReentry id) s = .next (after s
        (({ s with sw := { s.sw with eddy := s.sw.eddy.filter (fun x =>
          x.pkt.id ≠ id) } }.sub E.rill_eddy_used.s e.bytes).addTry (tryKey e.pkt) (.again e.pkt)))) ∧
    (mgetD s.sw.faultWin 0 0 + s.get E.rill_fault_window.s ≤ s.ft →
      s.sw.faultCnt.filter (fun x => decide (s.get E.rill_fault_rate.s < x.2)) = [] →
      exec .arrivalFaultWindow s = .next (after s
        ({ s with sw := { s.sw with faultCnt := [], faultWin := [(0, s.ft)] } }))) ∧
    (∀ (x : Nat × Nat), mgetD s.sw.faultWin 0 0 + s.get E.rill_fault_window.s ≤ s.ft →
      s.sw.faultCnt.filter (fun x => decide (s.get E.rill_fault_rate.s < x.2)) = [x] → x.1 < 20000 →
      exec .arrivalFaultWindow s = .next (after s
        (({ s with sw := { s.sw with faultCnt := [], faultWin := [(0, s.ft)] } }.stick (E.rill_rx_flags.n (x.1 / 16))
          (x.1 % 16 - 1)).raise (192 + x.1 / 16 / 256)))) ∧
    (∀ (b : Nat) (factor : NMap Nat), mgetD s.sw.adaptAt b 0 + s.get (E.bundle_adapt_interval.n b) ≤ s.ft →
      (s.getB (E.bundle_adaptive.n b) = false → factor = s.sw.factor) →
      (s.getB (E.bundle_adaptive.n b) = true → factor = (s.members b).foldl (fun (m : NMap Nat) (c : Nat × Nat) =>
        if s.inService c.2 = false then m
        else mput m c.2 (if s.get (E.bundle_delay_target.n b) * (mgetD s.sw.delaySum c.2 (0, 0)).2 < (mgetD s.sw.delaySum c.2 (0, 0)).1 ∨
          (s.get (E.port_role.n c.2) = 3 ∧ 0 < mgetD s.sw.ceSeen b 0)
          then max (s.health c.2 - 1) 1 else min (s.health c.2 + 1) 16)) s.sw.factor) →
      exec (.bundleAdapt b) s = .next (after s
        { s with sw := { s.sw with
          factor := factor, adaptAt := mput s.sw.adaptAt b s.ft, ceSeen := mput s.sw.ceSeen b 0,
          delaySum := s.sw.delaySum.filter (fun x => !(s.members b).any fun c => c.2 == x.1) } })) ∧
    (∀ (row i k : Nat), exec (.reservoirUncorrectable (.corrected row) i k) s = .next (after s
      ((s.inc E.rsv_ecc_corrected.s 1).rowError (rsvRow row)))) ∧
    (∀ (row id k : Nat) (x : Pkt) (a : State), a = s.inc E.rsv_ecc_uncorrectable.s 1 →
      a.sw.pkts.find? (fun x => x.id = id) = some x →
      exec (.reservoirUncorrectable (.packet row) id k) s = .next (after s
        ((((a.sw.pkts.filter fun y => y.id == id || (x.store != 0 && y.store == x.store)).foldl
          (fun (st : State) y => st.strikePkt y) a).raise 256).rowPending (rsvRow row)))) ∧
    (∀ (row i k : Nat), exec (.reservoirUncorrectable (.basin row) i k) s = .next (after s
      (((reservoirSlot s i k).raise 256).rowPending (rsvRow row))))

/-- A cell time moves cells across the crossbar, a port with nothing named names a queue, a packet whose last cell has left
frees its account, an empty queue's average decays, a plane that fails its self check goes out of use, the sampler samples, and
writes of the plane, seed and window-region entries have their effect. Rules: R172, R175, R179, R187, R188, R190, R205, R213.
Where a clause rests on the model's own reading: log 50, 75, 77, 80, 86, 125, 149, 156, 158. -/
def Obligations.SwitchSendingCompletes : Prop :=
  ∀ s : State,
    (∀ (a b c : State), a = s.lockDue → b = (a.weirPairs 0).foldl (fun (st : State) x => weirSend st x.1 x.2) a →
      c = planeMatch ((b.weirPairs 3).map (·.1)) ((b.weirPairs 3).map (·.2))
        (planeMatch ((b.weirPairs 3).map (·.1)) ((b.weirPairs 3).map (·.2)) b 0) 1 →
      exec .cellTimeMatch s = .next (after s
        ((crossDue (nextCycle (closeCycle c))).slewWait.portList.foldl (fun (st : State) n => tryStart (underrun st n) n)
          (crossDue (nextCycle (closeCycle c))).slewWait))) ∧
    (∀ (n q : Nat) (a b : State), s.inService n = true → (s.ptx n).named = none →
      (s.ptx n).txPkt = none ∨ (s.ptx n).endAt ≤ s.ft * 1000 + 64000 →
      a = s.gateWaits n (max s.ft (ceilDiv (s.ptx n).endAt 1000)) →
      a.schedPick n (max s.ft (ceilDiv (s.ptx n).endAt 1000)) = some (q, b) →
      exec (.schedulerDecision n) s = .next (after s (b.modTx n fun x => { x with named := some q }))) ∧
    (∀ (n id : Nat) (x : Pkt), (s.ptx n).txPkt = some id → (s.ptx n).endAt ≤ s.ft * 1000 + 999 →
      s.sw.pkts.find? (fun x => x.id = id) = some x →
      x.cells ≤ x.crossed →
      exec (.packetTransmitted n) s = .next (after s
        ((s.endFrame n).dropPkt x))) ∧
    (∀ (n : Nat), (s.ptx n).txPkt = none → exec (.packetTransmitted n) s = .next (after s s)) ∧
    (∀ (n q : Nat), s.depth n q = 0 → mgetD s.sw.avgAt (qSlot n q) 0 + 1024 ≤ s.ft →
      exec (.queueAvgDecay n q) s = .next (after s (s.avgStep n q))) ∧
    (∀ (p : Nat) (a b : State), bitAt (s.get E.xbar_plane_state.s) p = true →
      a = s.set E.xbar_plane_state.s (clearBitAt (s.get E.xbar_plane_state.s) p) →
      b = a.set E.xbar_plane_enable.s (clearBitAt (a.get E.xbar_plane_enable.s) p) →
      exec (.planeSelfCheckFail p) s = .next (after s
        (({ b with sw := { b.sw with grants := b.sw.grants.map fun (x : Grant) =>
          if x.plane = p then { x with plane := 1 - p } else x } }).raise (257 + p)))) ∧
    (∀ (t : Nat), s.get E.sched_sample_interval.s ≠ 0 → t = s.ft - s.ft % s.get E.sched_sample_interval.s → t ≠ 0 →
      s.qs.sampleAt < t →
      exec .queueSample s = .next (after s
        (s.portList.foldl (fun st n => (List.range 16).foldl (fun st q => sampleQueue t st n q) st)
          { s with qs := { s.qs with sampleAt := t } }))) ∧
    (∀ (r : Req) (w : Who) (v : Nat), Accepts s r w E.xbar_plane_enable 0 0 0 v →
      exec (.planeEnable r v) s = .next (wrote s (planeEnableWrite s v) r E.xbar_plane_enable 0 0 0 v)) ∧
    (∀ (r : Req) (w : Who) (v : Nat), Accepts s r w E.rsv_red_seed 0 0 0 v →
      exec (.rsvRedSeed r v) s = .next (wrote s
        ({ s.set E.rsv_red_seed.s v with
              sw := { s.sw with lfsr := [] },
              qs := { s.qs with samp := s.qs.samp.map (fun x => (x.1, { x.2 with gen := lfsrSeed v })) } }) r
                E.rsv_red_seed 0 0 0 v)) ∧
    (∀ (r : Req) (w : Who) (v : Nat), Accepts s r w E.rsv_window_region 0 0 0 v → s.portList.any (fun n =>
      s.get (E.port_state.n n) != 0) = false →
      65536 ≤ (s.set E.rsv_window_region.s v).sharedCells →
      exec (.rsvWindowRegion r v) s = .next (wrote s
        ((s.set E.rsv_window_region.s v).set E.rsv_packet_cells.s
          (s.set E.rsv_window_region.s v).packetCells) r E.rsv_window_region 0 0 0 v))

/-- A gate list is started, stopped and switched, its start fires at its FT, a switch lands, and a boundary moves to the next
entry or to the list that replaces it, as named in the clause. Rules: R215, R217, R218. Where a clause rests on the model's own
reading: log 31, 50. -/
def Obligations.GatesComplete : Prop :=
  ∀ s : State,
    (∀ (r : Req) (w : Who) (h v : Nat), Accepts s r w E.gate_start 0 0 h v → s.get (E.gate_state.h (hIdx h)) = 0 →
      s.isPort (s.get (E.gate_port.h (hIdx h))) = true →
      (s.liveIdx 9).any (fun i => i ≠ hIdx h ∧ s.get (E.gate_port.h i) = s.get (E.gate_port.h (hIdx h)) ∧
        (s.get (E.gate_state.h i) = 1 ∨ s.get (E.gate_state.h i) = 2)) = false →
      s.ftTest v = 0 →
      exec (.gateStart r h v) s = .next (wrote s
        ((s.schedule v (.gateStart (hIdx h))).hset (E.gate_state.h (hIdx h)) 9 (hIdx h) 1) r E.gate_start 0 0 h v)) ∧
    (∀ (r : Req) (w : Who) (h v : Nat), Accepts s r w E.gate_stop 0 0 h v → v = 1 →
      (gateCatch s (hIdx h)).get (E.gate_state.h (hIdx h)) = 1 →
      exec (.gateStop r h v) s = .next (wrote s
        (((gateCatch s (hIdx h)).unschedule (.gateStart (hIdx h))).hset (E.gate_state.h (hIdx h)) 9 (hIdx h) 0)
          r E.gate_stop 0 0 h v)) ∧
    (∀ (r : Req) (w : Who) (h v : Nat), Accepts s r w E.gate_stop 0 0 h v → v = 1 →
      (gateCatch s (hIdx h)).get (E.gate_state.h (hIdx h)) = 2 → ((gateCatch s (hIdx h)).gateRt (hIdx h)).pend = none →
      exec (.gateStop r h v) s = .next (wrote s
        (gateHalt ((gateCatch s (hIdx h)).unschedule (.gateSwitch (hIdx h))) (hIdx h)) r E.gate_stop 0 0 h v)) ∧
    (∀ (r : Req) (w : Who) (h v : Nat), Accepts s r w E.gate_switch_at 0 0 h v → s.get (E.gate_state.h (hIdx h)) = 2 →
      (s.gateRt (hIdx h)).pend = none →
      s.schedFt (.gateSwitch (hIdx h)) = none → v ≠ 0 → s.ftTest v = 0 →
      exec (.gateSwitchAt r h v) s = .next (wrote s (s.schedule v (.gateSwitch (hIdx h))) r E.gate_switch_at 0 0 h v)) ∧
    (∀ (r : Req) (w : Who) (h v : Nat) (a : State), Accepts s r w E.gate_switch_at 0 0 h v →
      s.get (E.gate_state.h (hIdx h)) = 2 → (s.gateRt (hIdx h)).pend = none →
      s.schedFt (.gateSwitch (hIdx h)) = none → v = 0 → gateLand s (hIdx h) = some a →
      exec (.gateSwitchAt r h v) s = .next (wrote s (a) r E.gate_switch_at 0 0 h v)) ∧
    (∀ (ft seq slot : Nat), s.dueAct = some ⟨ft, seq, .gateStart slot⟩ →
      exec .gateStartFire s = .next (after s (gateRun (s.unschedule (.gateStart slot)) slot ft none).lockFollow)) ∧
    (∀ (ft seq slot : Nat) (a : State), s.dueAct = some ⟨ft, seq, .gateSwitch slot⟩ →
      gateLand (s.unschedule (.gateSwitch slot)) slot = some a →
      exec .gateSwitchLand s = .next (after s a.lockFollow)) ∧
    (∀ (n slot k : Nat) (a : State), s.portGate n = some slot → (s.gateRt slot).boundary ≤ s.ft → (s.gateRt slot).pend = none →
      k = s.gateAfter slot (s.get (E.gate_entry.h slot)) → a = (s.touchPort n).set (E.gate_entry.h slot) k →
      exec (.gateBoundary n) s = .next (after s
        ((a.setGate slot { s.gateRt slot with
          boundary := (s.gateRt slot).boundary + (s.gateEnt slot k).1 }).touchPort n))) ∧
    (∀ (n slot alt : Nat) (a : State), s.portGate n = some slot → (s.gateRt slot).boundary ≤ s.ft →
      (s.gateRt slot).pend = some alt → s.get (E.gate_entry.h slot) = (s.gateRt slot).last →
      a = gateHalt (s.inc (E.gate_switches.h slot) 1) slot →
      exec (.gateBoundary n) s = .next (after s
        (gateRun a alt (s.gateRt slot).boundary (some (slot, a.cyc.n)))))

/-- Arming leaves the collective Armed with its window, disarming an Armed one returns it to Created and frees what it held, and
a segment reduced, an epilogue result, a free epilogue place and a laggard timeout each answer the next state named in the
clause. Rules: R229, R230, R241, R249, R258, R327. Where a clause rests on the model's own reading: log 31, 90, 92, 93, 95, 96,
97, 99, 187. -/
def Obligations.CollectivesComplete : Prop :=
  ∀ s : State,
    (∀ (r : Req) (w : Who) (h x : Nat) (bufs : List (Nat × Nat)) (b : State),
      Accepts s r w E.collective_arm 0 0 h 1 → recableBlocks s (hIdx h) = false →
      s.get (E.collective_state.h (hIdx h)) = 0 → s.armCheck (hIdx h) = 0 → allocBasin s (hIdx h) = (some (x, bufs), b) →
      ∃ a, exec (.collectiveArm r h 1) s = .next (wrote s a r E.collective_arm 0 0 h 1) ∧
        a.get (E.collective_state.h (hIdx h)) = 1 ∧ a.get E.confluence_basin_free.s = b.get E.confluence_basin_free.s - x) ∧
    (∀ (r : Req) (w : Who) (h v : Nat), Accepts s r w E.collective_disarm 0 0 h v → v = 1 →
      s.get (E.collective_state.h (hIdx h)) = 1 →
      exec (.collectiveDisarm r h v) s = .next (wrote s
        (collRelease (s.hset (E.collective_state.h (hIdx h)) 1 (hIdx h) 0) (hIdx h)) r E.collective_disarm 0 0 h v)) ∧
    (∀ (i seg : Nat) (g : Seg), (s.weirRunning && s.weirPart (s.partOf 1 i)) = false → s.seg? i seg = some g → g.stage = 0 →
      (s.liveAt 1 i).isSome = true → s.segReady i g = true →
      (s.collTy i ∉ [2, 3, 5, 6, 7] → s.ownsSeg i seg = true →
        exec (.segmentReductionDone i seg) s = .next (after s (s.ownResult i g))) ∧
      (s.collTy i = 2 ∨ s.collTy i = 3 → exec (.segmentReductionDone i seg) s = .next (after s
        (((s.endSeg i g 0).limitNotes i seg (s.collOut i) 0).checkRun i))) ∧
      (s.collTy i = 6 → exec (.segmentReductionDone i seg) s = .next (after s ((s.endSeg i g 0).checkRun i)))) ∧
    (∀ (i seg st : Nat) (x : Seg) (o : EpiOut), s.seg? i seg = some x → x.stage = 4 → x.ret = some (st, o) →
      exec (.epilogueResult i seg) s = .next (after s
        (s.finish i x st (s.collOut i) (if st = 0 then o.bytes else [])))) ∧
    (∀ (e : Nat) (x : Nat × Nat × List Nat), s.epiJobs e < 64 → s.epiHeld.find? (fun y =>
      s.get (E.collective_engine.h y.1) == e) = some x →
      exec (.epiloguePlaceFree e) s = .next (after s
        (({ s with epiHeld := s.epiHeld.filter (fun y => y.1 != x.1 || y.2.1 != x.2.1) }.modSeg x.1 x.2.1
          fun y => { y with stage := 1 }).sendEpilogue x.1 x.2.1 x.2.2))) ∧
    (∀ (i seg pos : Nat) (x : Seg), s.seg? i seg = some x → x.timeout ≠ 0 → x.first + x.timeout ≤ s.ft → x.stage = 0 ∨
      x.stage = 3 →
      pos = (match (s.needs i seg).find? (fun y => decide (mgetD x.n y.1 0 < y.2)) with
        | some p => if p.1 < 1024 then p.1 else 0xFFFF
        | none => 0xFFFF) →
      exec (.laggardTimeout i seg) s = .next (after s
        (((s.set (E.collective_timeout_position.h i) pos).inc (E.collective_timeouts.h i) 1).abortSeg i x 0x0D)))

/-- A queued job whose Mills are free starts on them, a running job stores its result and ends with status 0, a job past the
timeout ends with 0x0A, a Mill that fails a self-check or has a double-bit error ends the jobs that hold it, and a corrected
error is counted, as named in the clause. Rules: R327, R328, R330, R346, R347. Where a clause rests on the model's own reading:
log 106, 149, 187. -/
def Obligations.MillJobsComplete : Prop :=
  ∀ s : State,
    (∀ (id : Nat) (mills : List Nat) (j : Job) (want : List Nat) (idle : Nat), s.mill.jobs.find? (fun j => j.id = id ∧
      j.state = 0) = some j →
      want = (if j.pinned then (s.pinSet (max 1 (dPins j.desc))).getD [] else dedup mills) → want ≠ [] →
      want.all (fun x => s.millFree x && (s.weirPart j.part || !s.millReserved x)) = true → s.weirPart j.part = false →
      (s.mill.jobs.filter fun x => x.state == 0 && x.id != id && s.weirPart x.part == false &&
        (decide (j.cls < x.cls) || (x.cls == j.cls && decide (x.id < id)))) = [] →
      idle = ((List.range 272).filter fun x => s.millFree x).length →
      exec (.millJobStart id mills) s = .next (after s
        (((want.foldl (fun (st : State) x => ((st.set (E.mill_state.n x) 2).inc (E.mill_shares.n x) 1).add
          (E.mill_die_queue.n (x / 68)) 1) s).modMill fun m => { m with jobs := m.jobs.map fun x =>
            if x.id = id then { j with state := 1, mills := want, free := idle } else x }).haul
              { j with state := 1, mills := want, free := idle }))) ∧
    (∀ (id : Nat) (shares : List Share) (cycles : Nat) (j : Job) (a : State) (o : OpOut),
      s.mill.jobs.find? (fun j => j.id = id ∧ j.state = 1) = some j → s.hauling id = false →
      (∀ r ∈ s.rangesOf j, s.retained r.1 r.2.1 = false ∧ s.diesDown r.1 r.2.1 = false ∧ s.cxlDown r.1 r.2.1 = false) →
      a = (j.mills.foldl (fun (st : State) x => st.inc (E.mill_busy_cycles.n x) cycles) s) → o = runOp a j shares →
      exec (.millJobComplete id shares cycles) s = .next (after s
        ((if j.epi.isSome || bitAt (dw j.desc 0) 21 || dOp j.desc == 3 then o.st
          else o.st.store (dAddr j.desc 8) o.data).endJob j 0 o.ev o.data o.data.length o.fmt o.ops))) ∧
    (∀ (id : Nat) (j : Job), s.mill.jobs.find? (fun j => j.id = id) = some j → s.get E.mill_job_timeout.s ≠ 0 →
      j.at_ + s.get E.mill_job_timeout.s ≤ s.ft → exec (.millJobTimeout id) s = .next (after s (s.abortJob j 0x0A))) ∧
    (∀ (x : Nat) (a b : State), s.get (E.mill_state.n x) ≠ 3 → s.get (E.mill_logical.n x) ≠ 0xFFFF →
      a = (s.set (E.mill_state.n x) 3).repairNote → b = (a.abortJobs (fun j => j.mills.contains x) 0x0B) →
      exec (.millFailure x .selfCheck) s = .next (after s
        ((b.abortJobs (fun j => j.state == 0 && j.pinned &&
          ((b.pinSet (max 1 (dPins j.desc))).getD []).contains x) 0x0C).raise (384 + x / 68)))) ∧
    (∀ (x row : Nat) (a b : State), s.get (E.mill_state.n x) ≠ 3 → s.get (E.mill_logical.n x) ≠ 0xFFFF →
      a = ((s.inc (E.mill_ecc_uncorrectable.n x) 1).set (E.mill_state.n x) 3).repairNote →
      b = (a.abortJobs (fun j => j.mills.contains x) 0x0B) →
      exec (.millFailure x (.doubleBit row)) s = .next (after s
        (((b.abortJobs (fun j => j.state == 0 && j.pinned &&
          ((b.pinSet (max 1 (dPins j.desc))).getD []).contains x) 0x0C).raise (384 + x / 68)).rowPending (millRow x row)))) ∧
    (∀ (x row : Nat), s.get (E.mill_logical.n x) ≠ 0xFFFF →
      exec (.millFailure x (.corrected row)) s = .next (after s
        ((s.inc (E.mill_ecc_corrected.n x) 1).rowError (millRow x row))))

/-- An accepted write stores its bytes and an accepted read answers them as the core cycle ends, a window opens, begins to close
and closes, a Tier 2 line arrives, and an HBM stack fails, as named in the clause. Rules: R358, R359, R364, R367, R372, R381.
Where a clause rests on the model's own reading: log 31, 112, 114, 122, 188. -/
def Obligations.MemoryCompletes : Prop :=
  ∀ s : State,
    (∀ (id : Nat) (chk : EccCheck) (x y : MemAcc) (a : State), s.ms.accs.find? (fun a => a.id = id ∧ a.reach.isNone) = some x →
      x.fills.any (fun f => !f.done) = false → x.due ≤ s.ft →
      s.retained (rillAddr x.h) (accLen x.h) = false → x.fail = false → s.diesDown (rillAddr x.h) (accLen x.h) = false →
      a = ((s.cxlsOf (rillAddr x.h) (accLen x.h)).foldl
        (fun (st : State) c => st.modMs fun m => { m with toRow := mdel m.toRow c })
        (s.modMs fun m => { m with accs := m.accs.map fun z => if z.id = id then { z with reach := some chk } else z })) →
      a.ms.accs.filterMap (fun z => z.reach.map fun c => (z, c)) = [(y, chk)] →
      exec (.memoryAccessComplete id chk) s = .next (after s a) ∧
      (y.h.kind = 2 → a.memEffects = (a.store (rillAddr y.h) y.payload).endAcc y 0 []) ∧
      (y.h.kind ≠ 2 → y.bad = false →
        (∀ (d : List Byte) (b : State), chk = .clean → a.readData y = (d, b) → a.memEffects = b.endAcc y 0 d) ∧
        (∀ (d : List Byte) (b : State), chk = .corrected → (a.readCorrected (rillAddr y.h)).readData y = (d, b) →
          a.memEffects = b.endAcc y 0 d) ∧
        (chk = .bad → a.memEffects = (a.readBad (rillAddr y.h) (accLen y.h)).endAcc y 0x0B [])) ∧
      (y.h.kind ≠ 2 → y.bad = true → a.memEffects = a.endAcc y 0x0B [])) ∧
    (∀ (r : Req) (w : Who) (h v : Nat) (tier lo hi : Nat), Accepts s r w E.window_open 0 0 h v → v = 1 →
      s.get (E.window_state.h (hIdx h)) = 0 →
      s.regionOf (s.get (E.window_base.h (hIdx h))) = some (tier, lo, hi) → s.get (E.window_rights.h (hIdx h)) ≠ 0 →
      s.get (E.window_base.h (hIdx h)) % 4096 = 0 → s.get (E.window_size.h (hIdx h)) % 4096 = 0 →
      s.get (E.window_size.h (hIdx h)) ≠ 0 → s.get (E.window_base.h (hIdx h)) + s.get (E.window_size.h (hIdx h)) ≤ hi →
      s.backed (s.get (E.window_base.h (hIdx h))) (s.get (E.window_size.h (hIdx h))) = true →
      s.rangeDown (s.get (E.window_base.h (hIdx h))) (s.get (E.window_size.h (hIdx h))) = false →
      tier ≠ 4 ∨ s.weirPart (s.partOf 8 (hIdx h)) = false →
      exec (.windowOpen r h v) s = .next (wrote s
        ((s.set (E.window_tier.h (hIdx h)) tier).hset (E.window_state.h (hIdx h)) 8 (hIdx h) 1) r E.window_open 0 0 h v)) ∧
    (∀ (r : Req) (w : Who) (h v : Nat), Accepts s r w E.window_open 0 0 h v → v = 0 →
      s.get (E.window_state.h (hIdx h)) = 1 → s.poolHolds (hIdx h) = false →
      exec (.windowOpen r h v) s = .next (wrote s
        (s.hset (E.window_state.h (hIdx h)) 8 (hIdx h) 2) r E.window_open 0 0 h v)) ∧
    (∀ (i : Nat) (x : HRec), s.liveAt 8 i = some x → s.get (E.window_state.h i) = 2 → s.winQuiet i = true →
      s.ms.dying.contains i = false →
      exec (.windowClosingEnd i) s = .next (after s (s.hset (E.window_state.h i) 8 i 0))) ∧
    (∀ (id line : Nat) (x : MemAcc) (f : Fill) (a : State), s.ms.accs.find? (fun a => a.id = id) = some x →
      x.fills.find? (fun f => f.line = line ∧ !f.done) = some f →
      f.drop = false →
      a = (s.modMs fun m => { m with toRow := mdel m.toRow (lineCxl line), accs := m.accs.map fun (y : MemAcc) =>
        if y.id = id then { y with bad := y.bad || false, fills := y.fills.map fun (z : Fill) =>
          if z.line = line then { z with done := true } else z } else y }).inc (E.cxl_read_bytes.n (lineCxl line)) 256 →
      exec (.t2FillReturn id line false) s = .next (after s (a.touchLine line))) ∧
    (∀ (k : Nat), hbmFitted s.part k = true → s.get (E.hbm_state.n k) ≠ 3 →
      exec (.hbmStackFail k) s = .next (after s
        (((s.set (E.hbm_state.n k) 3).raise (461 + k)).later (.stackFailed k))))

/-- Invalidation, resumption, enabling and disabling of a CXL port, an access that times out, a lost port and a device that
appears each have the effect named in the clause. Rules: R373, R376, R377, R378, R379. Where a clause rests on the model's own
reading: log 16, 114, 153. -/
def Obligations.ExpandersComplete : Prop :=
  ∀ s : State,
    (∀ (r : Req) (w : Who) (c v : Nat), Accepts s r w E.cxl_invalidate c 0 0 v → v = 1 →
      exec (.cxlInvalidate r c v) s = .next (wrote s (s.dropLines c) r E.cxl_invalidate c 0 0 v)) ∧
    (∀ (r : Req) (w : Who) (c v : Nat), Accepts s r w E.cxl_resume c 0 0 v → v = 1 → s.get (E.cxl_state.n c) = 4 →
      exec (.cxlResume r c v) s = .next (wrote s ((s.dropLines c).set (E.cxl_state.n c) 2) r E.cxl_resume c 0 0 v)) ∧
    (∀ (r : Req) (w : Who) (c v : Nat), Accepts s r w E.cxl_enable c 0 0 v → v = 1 → s.get (E.cxl_state.n c) = 5 →
      s.ms.disabling = [] →
      exec (.cxlEnable r c v) s = .next (wrote s
        (((s.set (E.cxl_enable.n c) 1).set (E.cxl_state.n c) 1).dropLines c) r E.cxl_enable c 0 0 v)) ∧
    (∀ (r : Req) (w : Who) (c v : Nat), Accepts s r w E.cxl_enable c 0 0 v → v = 0 → s.ms.disabling.contains c = false →
      exec (.cxlEnable r c v) s = .next (wrote s
        (({ s.set (E.cxl_enable.n c) 0 with
              ms := { s.ms with disabling := c :: s.ms.disabling } }).cxlQuiesce) r E.cxl_enable c 0 0 v)) ∧
    (∀ (id c : Nat) (cs : List Nat) (x : MemAcc) (a : State), s.ms.accs.find? (fun a => a.id = id) = some x →
      s.cxlsOf (rillAddr x.h) (accLen x.h) = c :: cs →
      x.at_ + s.get (E.cxl_timeout.n c) ≤ s.ft → a = (s.inc (E.cxl_timeouts.n c) 1).cxlFlag c 2 →
      mgetD a.ms.toRow c 0 + 1 < 4 →
      exec (.cxlTimeout id) s = .next (after s
        ((a.modMs fun m => { m with toRow := mput m.toRow c (mgetD a.ms.toRow c 0 + 1) }).endAcc x 0x0A []))) ∧
    (∀ (c : Nat) (a b : State), s.get (E.cxl_state.n c) = 2 → a = ((s.set (E.cxl_state.n c) 3).inc
      (E.cxl_losses.n c) 1).cxlFlag c 0 →
      b = ((a.dropLines c).modMs fun m => { m with toRow := mdel m.toRow c }) →
      exec (.cxlPortLost c) s = .next (after s
        (((b.ms.accs.filter (fun x => !x.fail && (b.cxlsOf (rillAddr x.h) (accLen x.h)).contains c)).foldl
          (fun (st : State) x => st.endAcc x 0x0B []) b).later (.cxlLost c)))) ∧
    (∀ (c width size ident : Nat) (slow : Bool) (a : State), s.mgmt.restarting = false → s.get (E.cxl_enable.n c) ≠ 0 →
      s.get (E.cxl_state.n c) = 0 ∨ s.get (E.cxl_state.n c) = 1 ∨ s.get (E.cxl_state.n c) = 3 → s.domOn (49 + c) = true →
      a = (cxlMap { s with mem := memDrop s.mem (baseT2 + c * cxlBytes) (baseT2 + (c + 1) * cxlBytes) } c ⟨width, size,
        ident, slow⟩).dropLines c →
      a.get E.device_ready.s ≠ 0 → a.pwr.fresh.contains c = false →
      exec (.cxlDeviceAppear c width size ident slow) s = .next (after s ((a.set (E.cxl_state.n c) 4).cxlFlag c 1)))

/-- A pool is enabled and filled; a request to allocate, free or share a buffer waits for its turn, and the turn, as the core
cycle ends, has its effect and answers; a refill ends, as named in the clause. Rules: R389, R392, R393, R394, R396. Where a
clause rests on the model's own reading: log 20, 31, 34, 112, 115, 116, 117, 161, 163, 189. -/
def Obligations.PoolsComplete : Prop :=
  ∀ s : State,
    (∀ (r : Req) (w : Who) (h v : Nat) (size bw rw : Nat), Accepts s r w E.pool_enable 0 0 h v → v = 1 →
      s.get (E.pool_state.h (hIdx h)) = 0 →
      size = s.get (E.pool_buffer_size.h (hIdx h)) → 256 ≤ size → size ≤ 2097152 → 2 ^ Nat.log2 size = size →
      s.get (E.pool_count.h (hIdx h)) ≠ 0 → s.get (E.pool_count.h (hIdx h)) ≤ 16777216 →
      (s.bufArea (hIdx h)).1 % 4096 = 0 → (s.ringArea (hIdx h)).1 % 4096 = 0 →
      s.poolWin (hIdx h) (s.get (E.pool_buffer_window.h (hIdx h))) = some bw →
      s.poolWin (hIdx h) (s.get (E.pool_ring_window.h (hIdx h))) = some rw → s.get (E.window_state.h bw) = 1 →
      s.get (E.window_state.h rw) = 1 → s.inWin bw (s.bufArea (hIdx h)) = true → s.inWin rw (s.ringArea (hIdx h)) = true →
      2 ≤ s.get (E.window_tier.h rw) → overlap (s.bufArea (hIdx h)) (s.ringArea (hIdx h)) = false →
      (s.liveIdx 3).filter (fun j => j ≠ hIdx h && s.poolUp j) = [] →
      s.rangeDown (s.bufArea (hIdx h)).1 (s.bufArea (hIdx h)).2 = false →
      s.rangeDown (s.ringArea (hIdx h)).1 (s.ringArea (hIdx h)).2 = false →
      exec (.poolEnable r h v) s = .next (wrote s
        (s.hset (E.pool_state.h (hIdx h)) 3 (hIdx h) 1) r E.pool_enable 0 0 h v)) ∧
    (∀ (i n : Nat) (x : HRec) (a : State), s.liveAt 3 i = some x → s.get (E.pool_state.h i) = 1 →
      n = s.get (E.pool_count.h i) →
      a = ((s.store (s.get (E.pool_ring_base.h i)) ((List.range n).flatMap (fun j => leBytes 4 j) ++
        List.replicate (4 * n) 0)).modPool i fun _ => ⟨[], [], 0, 0, false, true⟩) →
      exec (.poolFillDone i) s = .next (after s
        ((((a.set (E.pool_ring_count.h i) n).set (E.pool_low_free.h i) n).hset (E.pool_state.h i) 3 i 2).poolSync i))) ∧
    (∀ (r : Req) (w : Who) (h j : Nat) (js : List Nat) (a : State), Idle s → s.mgmt.parked = [] → Serves s r w →
      itemGate s w ⟨0x7300, 9, 0, h, 0, []⟩ false 1 = 0 → notCaptured s w ⟨0x7300, 9, 0, h, 0, []⟩ = false →
      s.poolRetained (hIdx h) = false → s.get (E.pool_state.h (hIdx h)) = 2 → (s.pool (hIdx h)).head = j :: js →
      a = ((s.modPool (hIdx h) fun x => { x with head := js }).handOut (hIdx h) j).2 →
      exec (.poolAlloc r h) s = .next (waiting s r 1 ⟨0x7300, 9, 0, h, 0, []⟩) ∧
      poolTurns (waiting s r 1 ⟨0x7300, 9, 0, h, 0, []⟩) = mctpFlush (a.emit (.response r 0x81 0 0 [⟨0x7300, 9, 0, h, leBytes 8
        (a.get (E.pool_buffer_base.h (hIdx h)) + j * a.get (E.pool_buffer_size.h (hIdx h)))⟩]))) ∧
    (∀ (r : Req) (w : Who) (h v : Nat) (j c : Nat), Idle s → s.mgmt.parked = [] → Accepts s r w E.pool_free 0 0 h v →
      s.poolCheck (hIdx h) v = (.ok j, s) → c = s.bufWord (hIdx h) j % 65536 → 1 < c →
      exec (.poolFree r h v) s = .next (waitsWrite s r E.pool_free h v) ∧ poolTurns (waitsWrite s r E.pool_free h v) =
        mctpFlush (accepted s (s.setWord (hIdx h) j (2 ^ 31 + (c - 1))) r (writeIt E.pool_free 0 0 h v))) ∧
    (∀ (r : Req) (w : Who) (h v : Nat) (j : Nat), Idle s → s.mgmt.parked = [] → Accepts s r w E.pool_free 0 0 h v →
      s.poolCheck (hIdx h) v = (.ok j, s) → s.bufWord (hIdx h) j % 65536 ≤ 1 →
      exec (.poolFree r h v) s = .next (waitsWrite s r E.pool_free h v) ∧ poolTurns (waitsWrite s r E.pool_free h v) =
        mctpFlush (accepted s ((((s.setWord (hIdx h) j 0).takeBack (hIdx h) j).inc (E.pool_frees.h (hIdx h)) 1).poolSync
          (hIdx h)) r (writeIt E.pool_free 0 0 h v))) ∧
    (∀ (r : Req) (w : Who) (h v : Nat) (j c : Nat), Idle s → s.mgmt.parked = [] → Accepts s r w E.pool_share 0 0 h v →
      s.poolCheck (hIdx h) v = (.ok j, s) → c = s.bufWord (hIdx h) j % 65536 → c < 65535 →
      exec (.poolShare r h v) s = .next (waitsWrite s r E.pool_share h v) ∧ poolTurns (waitsWrite s r E.pool_share h v) =
        mctpFlush (accepted s (s.setWord (hIdx h) j (2 ^ 31 + (c + 1))) r (writeIt E.pool_share 0 0 h v))) ∧
    (∀ (i : Nat) (x : HRec), s.liveAt 3 i = some x → s.get (E.pool_state.h i) = 2 → (s.pool i).refill = true →
      exec (.poolRefillDone i) s = .next (after s ((s.refillPool i).later .upkeep)))

/-- A request that activates a sequence without a prefix, or reserves tokens, waits for its turn, and the turn, as the core
cycle ends, has its effect and answers; a prefix copy ends and a length is set, as named in the clause. Rules: R393, R404, R406,
R407, R409. Where a clause rests on the model's own reading: log 118, 119, 120, 152, 161, 189. -/
def Obligations.SequencesComplete : Prop :=
  ∀ s : State,
    (∀ (r : Req) (w : Who) (h v : Nat) (root : Nat) (a : State), Idle s → s.mgmt.parked = [] →
      Accepts s r w E.sequence_activate 0 0 h v → v = 1 →
      s.get (E.sequence_state.h (hIdx h)) = 0 →
      mget? s.copying (hIdx h) = none → s.seqPoolsCheck (hIdx h) (s.seqTmpl (hIdx h)) = 0 →
      s.prefixCheck (hIdx h) (s.seqTmpl (hIdx h)) = 0 → s.prefixFree (hIdx h) = true →
      takeTable s (s.seqTmpl (hIdx h)) = (some root, a) → a.prefixTokens (hIdx h) = 0 →
      exec (.sequenceActivate r h v) s = .next (waitsWrite s r E.sequence_activate h v) ∧
      poolTurns (waitsWrite s r E.sequence_activate h v) = mctpFlush (accepted s
        (((a.set (E.sequence_root.h (hIdx h)) root).inc (E.sequence_pages_taken.h (hIdx h)) 0).seqActive
          (hIdx h) 0 0) r (writeIt E.sequence_activate 0 0 h v))) ∧
    (∀ (i x y : Nat) (a : State), mget? s.copying i = some (x, y) → a = copyPage s i x y →
      exec (.prefixCopyDone i) s = .next (after s
        (((({ a with copying := mdel a.copying i }).inc E.holdings_copies.s 1).seqActive i (a.prefixTokens i)
          (roundUp (a.prefixTokens i) 64)).later .upkeep))) ∧
    (∀ (r : Req) (w : Who) (h v : Nat), Idle s → s.mgmt.parked = [] → Accepts s r w E.sequence_reserve 0 0 h v →
      s.get (E.sequence_state.h (hIdx h)) = 1 → v ≤ 16777216 →
      s.get (E.sequence_length.h (hIdx h)) ≤ v → roundUp v 64 < s.get (E.sequence_capacity.h (hIdx h)) →
      s.get (E.sequence_holders.h (hIdx h)) = 0 →
      exec (.sequenceReserve r h v) s = .next (waitsWrite s r E.sequence_reserve h v) ∧
      poolTurns (waitsWrite s r E.sequence_reserve h v) = mctpFlush (accepted s
        ((((shrink s (hIdx h) (roundUp v 64)).set (E.sequence_reserve.h (hIdx h)) v).set (E.sequence_capacity.h (hIdx h))
            (roundUp v 64)).set (E.sequence_pages.h (hIdx h)) (roundUp v 64 / 64)) r (writeIt E.sequence_reserve 0 0 h v))) ∧
    (∀ (r : Req) (w : Who) (h v : Nat) (x : Grown) (a : State), Idle s → s.mgmt.parked = [] →
      Accepts s r w E.sequence_reserve 0 0 h v → s.get (E.sequence_state.h (hIdx h)) = 1 → v ≤ 16777216 →
      s.get (E.sequence_length.h (hIdx h)) ≤ v → s.get (E.sequence_capacity.h (hIdx h)) ≤ roundUp v 64 →
      ((List.range (roundUp v 64 / 64)).filter (fun p => decide (s.get (E.sequence_capacity.h (hIdx h)) / 64 ≤ p))).foldl
          (fun acc p => addPage (s.seqTmpl (hIdx h)) (s.get (E.sequence_root.h (hIdx h))) p none acc) ((⟨true, [],
            []⟩ : Grown), s) = (x, a) →
      x.ok = true →
      exec (.sequenceReserve r h v) s = .next (waitsWrite s r E.sequence_reserve h v) ∧
      poolTurns (waitsWrite s r E.sequence_reserve h v) = mctpFlush (accepted s
        ((((a.set (E.sequence_reserve.h (hIdx h)) v).set (E.sequence_capacity.h (hIdx h)) (roundUp v 64)).set
            (E.sequence_pages.h (hIdx h)) (roundUp v 64 / 64)).inc (E.sequence_pages_taken.h
              (hIdx h)) x.pages.length) r (writeIt E.sequence_reserve 0 0 h v))) ∧
    (∀ (r : Req) (w : Who) (h v : Nat), Accepts s r w E.sequence_length 0 0 h v → s.get (E.sequence_state.h (hIdx h)) = 1 →
      v ≤ s.get (E.sequence_capacity.h (hIdx h)) →
      exec (.sequenceLength r h v) s = .next (wrote s
        ((s.noteOld (E.sequence_length.h (hIdx h))).set (E.sequence_length.h (hIdx h)) v) r E.sequence_length 0 0 h v))

/-- The Weir clock mode is written, the schedule is started, bound, started at its FT, moved over a cycle boundary and stopped,
its engines and Mills are set, and the core clock locks, as named in the clause. Rules: R420, R423, R424, R425, R431, R433.
Where a clause rests on the model's own reading: log 50, 125, 126, 127, 128. -/
def Obligations.WeirCompletes : Prop :=
  ∀ s : State,
    (∀ (r : Req) (w : Who) (v : Nat), Accepts s r w E.weir_clock_mode 0 0 0 v → v ≠ s.get E.weir_clock_mode.s →
      exec (.weirClockMode r v) s = .next (wrote s
        ((s.set E.weir_clock_mode.s v).set E.weir_clock_locked.s 0) r E.weir_clock_mode 0 0 0 v)) ∧
    (∀ (r : Req) (w : Who) (v : Nat), Accepts s r w E.weir_start 0 0 0 v → s.get E.weir_state.s = 0 →
      s.get E.weir_clock_locked.s ≠ 0 → s.ftTest v = 0 →
      exec (.weirStart r v) s = .next (wrote s
        ((s.schedule v .weirStart).set E.weir_state.s 1) r E.weir_start 0 0 0 v)) ∧
    (∀ (r : Req) (w : Who) (v : Nat), Accepts s r w E.weir_start_on_launch 0 0 0 v → v = 1 → s.get E.weir_state.s = 0 →
      s.get E.weir_clock_locked.s ≠ 0 →
      exec (.weirStartOnLaunch r v) s = .next (wrote s (s.set E.weir_state.s 2) r E.weir_start_on_launch 0 0 0 v)) ∧
    (s.isDue .weirStart = true → exec .weirStartFire s = .next (after s ((s.unschedule .weirStart).weirGo).lockFollow)) ∧
    (∀ (a : State), a = s.lockDue → a.weirRunning = true → a.weir.realign = none → a.weir.base + a.weir.s ≤ a.cyc.n →
      a.weir.stopping = false →
      exec .weirCycleBoundary s = .next (after s
        (((a.weirHold (a.get E.weir_cycle.s + 1)).weirBegin (a.get E.weir_cycle.s + 1)).lockBoundary))) ∧
    (∀ (a : State), a = s.lockDue → a.weirRunning = true → a.weir.realign = none → a.weir.base + a.weir.s ≤ a.cyc.n →
      a.weir.stopping = true → exec .weirCycleBoundary s = .next (after s (a.weirHalt))) ∧
    (∀ (r : Req) (w : Who) (v : Nat), Accepts s r w E.weir_stop 0 0 0 v → v = 1 → s.get E.weir_state.s = 1 →
      exec (.weirStop r v) s = .next (wrote s ((s.unschedule .weirStart).set E.weir_state.s 0) r E.weir_stop 0 0 0 v)) ∧
    (∀ (r : Req) (w : Who) (v : Nat), Accepts s r w E.weir_stop 0 0 0 v → v = 1 → s.get E.weir_state.s = 3 →
      exec (.weirStop r v) s = .next (wrote s
        ({ s with weir := { s.weir with stopping := true } }) r E.weir_stop 0 0 0 v)) ∧
    (∀ (r : Req) (w : Who) (v : Nat), Accepts s r w E.weir_engines 0 0 0 v →
      (s.liveIdx 1).any (fun i => bitAt (s.get E.weir_engines.s) (s.get (E.collective_engine.h i)) != bitAt v (s.get
        (E.collective_engine.h i))) = false →
      exec (.weirEngines r v) s = .next (wrote s (s.set E.weir_engines.s v) r E.weir_engines 0 0 0 v)) ∧
    (∀ (r : Req) (w : Who) (v : Nat), Accepts s r w E.weir_mills 0 0 0 v → s.weirRunning = false →
      exec (.weirMills r v) s = .next (wrote s (s.set E.weir_mills.s v) r E.weir_mills 0 0 0 v)) ∧
    (s.get E.weir_clock_mode.s = 1 → exec .coreClockLocked s = .next (after s (s.set E.weir_clock_locked.s 1)))

/-- Lock-step is scheduled, bound to a launch and stopped from each state, and a window closes, as named in the clause. Rules:
R437, R438, R441. -/
def Obligations.LockStepCompletes : Prop :=
  ∀ s : State,
    (∀ (r : Req) (w : Who) (v : Nat), Accepts s r w E.lockstep_start 0 0 0 v → s.lockReady false = true →
      s.lockShort = false → s.ftTest v = 0 →
      exec (.lockstepStart r v) s = .next (wrote s
        ((s.schedule v .lockstep).set E.lockstep_state.s 1) r E.lockstep_start 0 0 0 v)) ∧
    (∀ (r : Req) (w : Who) (v : Nat), Accepts s r w E.lockstep_start_on_launch 0 0 0 v → v = 1 →
      s.lockReady true = true → s.lockShort = false →
      exec (.lockstepStartOnLaunch r v) s = .next (wrote s
        (s.set E.lockstep_state.s 2) r E.lockstep_start_on_launch 0 0 0 v)) ∧
    (∀ (x : Nat) (a b : State), s.get E.lockstep_state.s = 3 → s.lockWindow = some x → s.lock.closed < x →
      a = ((s.digestFrames s.lock.closed).foldl (fun st f => mrSend st (s.get E.lockstep_peer_port.s) 0 (.digest f)) s) →
      b = ({ a with lock := { a.lock with closed := s.lock.closed + 1 } }).lockScan → b.lock.stopAfter = none →
      exec .lockstepWindowClose s = .next (after s (b))) ∧
    (∀ (r : Req) (w : Who) (v : Nat) (x : Nat), Accepts s r w E.lockstep_stop 0 0 0 v → v = 1 →
      s.get E.lockstep_state.s = 3 → s.lockWindow = some x →
      exec (.lockstepStop r v) s = .next (wrote s
        ({ s with lock := { s.lock with stopAfter := some x } }) r E.lockstep_stop 0 0 0 v)) ∧
    (∀ (r : Req) (w : Who) (v : Nat), Accepts s r w E.lockstep_stop 0 0 0 v → v = 1 → s.get E.lockstep_state.s = 1 →
      exec (.lockstepStop r v) s = .next (wrote s
        ((s.unschedule .lockstep).set E.lockstep_state.s 0) r E.lockstep_stop 0 0 0 v))

/-- A snapshot is scheduled, fires and becomes ready, the attribution table is cleared, a trace session is scheduled, opened,
closed and read, as named in the clause. Rules: R448, R449, R450, R454, R455. Where a clause rests on the model's own reading:
log 4, 20, 31, 50, 130, 131, 132, 154, 163. -/
def Obligations.ArchiveCompletes : Prop :=
  ∀ s : State,
    (∀ (r : Req) (w : Who) (v : Nat), Accepts s r w E.snap_at 0 0 0 v → v ≠ 0 → s.ftTest v = 0 → s.snaps.any (fun x =>
      near4000 x.ft v) = false →
      (match s.snap.lastFt with | some l => near4000 l v | none => false) = false →
      exec (.snapAt r v) s = .next (wrote s (s.schedule v .snap) r E.snap_at 0 0 0 v)) ∧
    (∀ (a : State), s.isDue .snap = true → s.getB E.snap_clear.s = false →
      a = ({ s with sched := (match s.sched.find? (fun x => x.kind == .snap) with
        | some x => s.sched.erase x
        | none => s.sched) }) →
      exec .snapshotFire s = .next (after s
        ({ a with snap := { s.snap with
          cap := some (s.capDerived.foldl (fun (m : NMap Nat) (x : Nat × Nat) => mput m x.1 x.2) s.capStored),
          capAttr := attrBefore s.attr s.cyc.attrs, capLive := s.liveKeys, capFt := s.ft, lastFt := some s.ft } }).lockFollow)) ∧
    (∀ (m : NMap Nat), s.snap.cap = some m →
      exec .snapshotShadowReady s = .next (after s
        (({ s with snap := { s.snap with
          cap := none, shadow := m, attr := s.snap.capAttr, live := s.snap.capLive,
            taken := true } }.set E.snap_seq.s ((s.get E.snap_seq.s + 1) % 2 ^ 32)).set
          E.snap_ft.s s.snap.capFt))) ∧
    (∀ (r : Req) (w : Who) (v : Nat), Accepts s r w E.attr_reset 0 0 0 v → v = 1 →
      exec (.attrReset r v) s = .next (wrote s
        (s.cyc.attrs.foldl State.attrCount ({ s with attr := [] }.set E.attr_used.s 1)) r E.attr_reset 0 0 0 v)) ∧
    (∀ (r : Req) (w : Who) (h v : Nat), Accepts s r w E.trace_open_at 0 0 h v →
      s.get (E.trace_state.h (hIdx h)) = 0 ∨ s.get (E.trace_state.h (hIdx h)) = 3 → v ≠ 0 → s.ftTest v = 0 →
      s.traceCheck (hIdx h) = 0 →
      exec (.traceOpenAt r h v) s = .next (wrote s
        ((s.schedule v (.traceOpen (hIdx h))).hset (E.trace_state.h (hIdx h)) 7 (hIdx h) 1) r E.trace_open_at 0 0 h v)) ∧
    (∀ (ft seq i : Nat) (a : State), s.dueAct = some ⟨ft, seq, .traceOpen i⟩ →
      (s.unschedule (.traceOpen i)).traceCheck i = 0 →
      a = (((s.unschedule (.traceOpen i)).traceFinish i).hset (E.trace_state.h i) 7 i 2).add E.archive_sessions_open.s 1 →
      exec .traceOpenFire s = .next (after s (a.markWindow i a.ft 0))) ∧
    (∀ (r : Req) (w : Who) (h v : Nat), Accepts s r w E.trace_close_at 0 0 h v →
      s.get (E.trace_state.h (hIdx h)) = 1 ∨ s.get (E.trace_state.h (hIdx h)) = 2 → v ≠ 0 → s.ftTest v = 0 →
      exec (.traceCloseAt r h v) s = .next (wrote s
        ((s.unschedule (.traceClose (hIdx h))).schedule v (.traceClose (hIdx h))) r E.trace_close_at 0 0 h v)) ∧
    (∀ (r : Req) (w : Who) (h v : Nat), Accepts s r w E.trace_close_at 0 0 h v →
      s.get (E.trace_state.h (hIdx h)) = 1 ∨ s.get (E.trace_state.h (hIdx h)) = 2 → v = 0 →
      exec (.traceCloseAt r h v) s = .next (wrote s
        ((s.unschedule (.traceClose (hIdx h))).traceStop (hIdx h)) r E.trace_close_at 0 0 h v)) ∧
    (∀ (ft seq i : Nat), s.dueAct = some ⟨ft, seq, .traceClose i⟩ →
      exec .traceCloseFire s = .next (after s ((s.unschedule (.traceClose i)).traceStop i))) ∧
    (∀ (r : Req) (w : Who) (h x : Nat) (xs : List Nat), Serves s r w →
      itemGate s w ⟨0xC800, E.trace_next.sub, 0, h, 0, []⟩ false 1 = 0 →
      notCaptured s w ⟨0xC800, E.trace_next.sub, 0, h, 0, []⟩ = false → (s.trace (hIdx h)).queue = x :: xs →
      exec (.traceNext r h) s = .next (after s ((s.modTrace (hIdx h) fun t => { t with queue := t.queue.drop 1 }).emit
        (.response r 0x81 0 0 [⟨0xC800, E.trace_next.sub, 0, h, leBytes 8 x⟩]))))

/-- A Spring stream is started, bound, fired and stopped, a packet is created, and a Gauge check is enabled and disabled, as
named in the clause. Rules: R463, R465, R466, R469. Where a clause rests on the model's own reading: log 31, 50, 135. -/
def Obligations.SpringCompletes : Prop :=
  ∀ s : State,
    (∀ (r : Req) (w : Who) (h v : Nat), Accepts s r w E.spring_start 0 0 h v →
      s.get (E.spring_state.h (hIdx h)) = 0 ∨ s.get (E.spring_state.h (hIdx h)) = 4 → s.ftTest v = 0 →
      springOk s (hIdx h) = true →
      exec (.springStart r h v) s = .next (wrote s
        ((s.schedule v (.springStart (hIdx h))).hset (E.spring_state.h (hIdx h)) 5 (hIdx h) 1) r E.spring_start 0 0 h v)) ∧
    (∀ (r : Req) (w : Who) (h v : Nat), Accepts s r w E.spring_start_on_launch 0 0 h v → v = 1 →
      s.get (E.spring_state.h (hIdx h)) = 0 ∨ s.get (E.spring_state.h (hIdx h)) = 4 → springOk s (hIdx h) = true →
      exec (.springStartOnLaunch r h v) s = .next (wrote s
        (s.hset (E.spring_state.h (hIdx h)) 5 (hIdx h) 2) r E.spring_start_on_launch 0 0 h v)) ∧
    (∀ (ft seq i : Nat), s.dueAct = some ⟨ft, seq, .springStart i⟩ →
      exec .springStartFire s = .next (after s (springGo (s.unschedule (.springStart i)) i).lockFollow)) ∧
    (∀ (i due : Nat) (p : Pkt) (a b c d : State), s.spring.lastCyc ≠ some s.cyc.n → springNext s = some i →
      springBuild s i = (p, a) →
      due = springDue s i (s.stream i).made → s.ft ≤ due → (s.spring.lastCyc.isSome && s.spring.lastDue == due) = false →
      b = { a with spring := { a.spring with
        wait := a.spring.wait ++ [(⟨i, a.cyc.n, p⟩ : SpringPkt)], lastCyc := some a.cyc.n, lastDue := due,
        rt := mput a.spring.rt i { a.stream i with made := (a.stream i).made + 1 } } } →
      c = (b.inc (E.spring_sent.h i) 1).inc (E.spring_bytes.h i) (48 + b.get (E.spring_length.h i)) →
      d = c.set (E.spring_next_seq.h i) ((c.get (E.spring_next_seq.h i) + 1) % 2 ^ 32) →
      d.get (E.spring_count.h i) ≠ (d.stream i).made → exec .springPacketCreate s = .next (after s (d))) ∧
    (∀ (r : Req) (w : Who) (h v : Nat), Accepts s r w E.spring_stop 0 0 h v → v = 1 →
      s.get (E.spring_state.h (hIdx h)) ≠ 0 →
      s.get (E.spring_state.h (hIdx h)) ≠ 4 →
      exec (.springStop r h v) s = .next (wrote s
        (springDone (s.unschedule (.springStart (hIdx h))) (hIdx h) 0x0B true) r E.spring_stop 0 0 h v)) ∧
    (∀ (r : Req) (w : Who) (h v : Nat), Accepts s r w E.gauge_enable 0 0 h v → v = 0 →
      exec (.gaugeEnable r h v) s = .next (wrote s
        (s.hset (E.gauge_state.h (hIdx h)) 6 (hIdx h) 0) r E.gauge_enable 0 0 h v)) ∧
    (∀ (r : Req) (w : Who) (h : Nat), Accepts s r w E.gauge_enable 0 0 h 1 →
      ∃ u, exec (.gaugeEnable r h 1) s = .next (wrote s u r E.gauge_enable 0 0 h 1) ∧
        u.get (E.gauge_state.h (hIdx h)) = 1 ∧ u.get (E.gauge_received.h (hIdx h)) = 0 ∧
        u.get (E.gauge_latency_min.h (hIdx h)) = 0xFFFFFFFF ∧ mget? u.spring.seen (hIdx h) = none)

/-- The Curator's mismatch, watchdog and restart, firmware verification, activation, fall-back and commit, and life-cycle
advances have the effect named in the clause. Rules: R476, R477, R479, R480, R482. Where a clause rests on the model's own
reading: log 14, 18, 142, 191. -/
def Obligations.CuratorCompletes : Prop :=
  ∀ s : State,
    (exec .curatorSafetyMismatch s = .next (after s (s.raise 0))) ∧
    (exec .curatorWatchdogRestart s = .next (after s (s.restartCores.raise 1))) ∧
    (s.mgmt.restarting = true →
      exec .curatorReady s = .next (after s
        ((s.set E.device_ready.s 1).modMgmt fun m => { m with restarting := false, fwWatch := none }))) ∧
    (∀ (r : Req) (w : Who) (v : Nat), Accepts s r w E.fw_verify 0 0 0 v → v = 1 →
      exec (.fwVerify r v) s = .next (wrote s
        (s.set E.fw_verify_status.s (fwTest s (1 - s.fwSlot))) r E.fw_verify 0 0 0 v)) ∧
    (∀ (r : Req) (w : Who) (v : Nat), Accepts s r w E.fw_activate 0 0 0 v → s.ftTest v = 0 →
      s.get E.fw_verify_status.s = 0 →
      exec (.fwActivate r v) s = .next (wrote s (s.schedule v (.fwActivate 0)) r E.fw_activate 0 0 0 v)) ∧
    (∀ (ft seq m : Nat) (a : State), s.dueAct = some ⟨ft, seq, .fwActivate m⟩ →
      a = ((((s.unschedule (.fwActivate m)).runSlot (1 - s.fwSlot)).set E.fw_verify_status.s 0x0C).modMgmt fun x =>
        { x with fwWatch := some (s.ft, s.fwSlot) }) →
      (s.unschedule (.fwActivate m)).fwSlot = s.fwSlot → a.ft = s.ft →
      ((s.unschedule (.fwActivate m)).runSlot (1 - s.fwSlot)).ft = s.ft →
      exec .fwActivateFire s = .next (after s
        (if a.get E.fw_activate_mode.s = 0 then a.restartCores else a.later (.chipReset 3)))) ∧
    (∀ (t old : Nat), s.mgmt.fwWatch = some (t, old) → t + 10000000000 ≤ s.ft → s.get E.device_ready.s = 0 →
      exec .fwFallback s = .next (after s
        (((((s.runSlot old).modMgmt fun m => { m with fwWatch := none }).stick E.fw_flags.s 0).raise 896).restartCores))) ∧
    (∀ (r : Req) (w : Who) (v : Nat), Accepts s r w E.fw_commit 0 0 0 v → v = 1 →
      exec (.fwCommit r v) s = .next (wrote s
        ((s.set E.fw_min_security.s (max (s.get E.fw_min_security.s)
            (s.get E.fw_running.s / 2 ^ 64 % 2 ^ 32))).modMgmt fun m => { m with fwWatch := none }) r E.fw_commit 0 0 0
              v)) ∧
    (∀ (r : Req) (w : Who) (v : Nat), Accepts s r w E.lc_advance 0 0 0 v → v = s.get E.lc_state.s + 1 →
      s.get E.lc_state.s = 2 → w.role = 1 →
      bitAt (s.get E.sec_keys_set.s) 0 = true →
      exec (.lcAdvance r v) s = .next (wrote s (s.set E.lc_pending.s v) r E.lc_advance 0 0 0 v)) ∧
    (∀ (r : Req) (w : Who) (v : Nat), Accepts s r w E.lc_advance 0 0 0 v → v = s.get E.lc_state.s + 1 →
      s.get E.lc_state.s = 1 → w.role = 0 →
      s.mgmt.identity = true → exec (.lcAdvance r v) s = .next (wrote s (s.set E.lc_pending.s v) r E.lc_advance 0 0 0 v)) ∧
    (∀ (r : Req) (w : Who) (v : Nat), Accepts s r w E.lc_advance 0 0 0 v → v = s.get E.lc_state.s + 1 →
      s.get E.lc_state.s = 3 → w.role = 1 →
      s.get E.lc_confirm.s = 0x52455455 →
      exec (.lcAdvance r v) s = .next (wrote s (s.set E.lc_pending.s v) r E.lc_advance 0 0 0 v))

/-- An SPDM request is answered, an endpoint ID is set, a stuck sideband is recovered or given up, MCTP restarts, and management
frames are answered or taken as datagrams, as named in the clause. Rules: R486, R487, R488, R489. Where a clause rests on the
model's own reading: log 11, 14, 137, 138. -/
def Obligations.ManagementPortsComplete : Prop :=
  ∀ s : State,
    (∀ (eid : Nat) (b : List Byte), s.get E.lc_state.s ≠ 0 → s.mgmt.sbFailed = false → leAt b 1 1 = 0x84 →
      exec (.spdmRequest eid b) s = .next (after s
        ((s.modMgmt fun m => { m with spdm := 1 }).emit (.mctp eid (leBytes 1 0x05 ++ leBytes 1 0x10 ++ leBytes 1 0x04 ++
          leBytes 2 0 ++ leBytes 1 0 ++ leBytes 1 1 ++ leBytes 2 0x1200))))) ∧
    (∀ (eid : Nat), s.mgmt.sbFailed = false → eid ≠ 0 → eid < 255 →
      exec (.setEndpointId eid) s = .next (after s (s.set E.mctp_eid.s eid))) ∧
    (s.mgmt.sbFailed = false → s.mgmt.stuckAt = none →
      exec .sidebandStuck s = .next (after s
        (((s.modMgmt fun m => { m with stuckAt := some (s.ft - 10000000), recoverAt := s.ft + 5000000 }).inc
          E.mctp_recoveries.s 1).emit (.device 1 [9])))) ∧
    (∀ (t : Nat), s.mgmt.stuckAt = some t → s.mgmt.sbFailed = false → s.mgmt.recoverAt ≤ s.ft → s.ft < t + 35000000 →
      exec (.sidebandRecoveryRound true) s = .next (after s
        ((s.modMgmt fun m => { m with recoverAt := m.recoverAt + 5000000 }).emit (.device 1 [9])))) ∧
    (∀ (t : Nat), s.mgmt.stuckAt = some t → s.mgmt.sbFailed = false →
      exec (.sidebandRecoveryRound false) s = .next (after s (s.modMgmt fun m => { m with stuckAt := none }))) ∧
    (s.mgmt.sbFailed = false →
      exec (.sidebandFailed true) s = .next (after s
        (((((s.modMgmt fun m => { m with sbFailed := true, stuckAt := none }).stick E.mctp_flags.s 0).raise 2).closeVia
          .mctp).emit (.device 1 [0])))) ∧
    (∀ (r : Req) (w : Who) (v : Nat), Accepts s r w E.mctp_restart 0 0 0 v → v = 1 →
      exec (.mctpRestart r v) s = .next (wrote s
        (s.modMgmt fun m => { m with sbFailed := false, stuckAt := none }) r E.mctp_restart 0 0 0 v)) ∧
    (∀ (b : List Byte) (ip : List Byte), beAt b 12 2 = 0x0806 → ip = (leBytes 12 (s.get E.comm_ipv4.s)).take 4 →
      beAt b 20 2 = 1 → slice b 38 4 = ip →
      ofLe ip ≠ 0 →
      exec (.mgmtFrameReceive b) s = .next (after s
        (s.emit (.mgmtFrame (mgmtEth b 0x0806 ++ slice b 14 6 ++ beBytes 2 2 ++ leBytes 6 Config.commMac ++ ip ++
          slice b 22 10))))) ∧
    (∀ (b : List Byte), beAt b 12 2 ≠ 0x0806 → beAt b 12 2 ≠ 0x0800 → beAt b 12 2 ≠ 0x86DD →
      exec (.mgmtFrameReceive b) s = .next (after s (s.inc E.comm_dropped.s 1)))

/-- Aperture writes and reads, ring tails, ring enables, record deliveries, the interrupt hold-off and transmit descriptors have
the effect named in the clause. Rules: R491, R492, R493, R496. Where a clause rests on the model's own reading: log 139, 140. -/
def Obligations.HostPortCompletes : Prop :=
  ∀ s : State,
    (∀ (off len : Nat) (data : List Byte), s.hostOn = true → off + data.length ≤ 1073741824 → s.ms.apHeld = [] →
      s.retained (s.get E.host_aperture_base.s + off) data.length = false →
      apertureOk s (s.get E.host_aperture_base.s + off) data.length 1 = true →
      exec (.apertureAccess true off len data) s = .next (after s (s.store (s.get E.host_aperture_base.s + off) data))) ∧
    (∀ (off len : Nat) (data d : List Byte) (a : State), s.hostOn = true → off + len ≤ 1073741824 → s.ms.apHeld = [] →
      s.retained (s.get E.host_aperture_base.s + off) len = false →
      apertureOk s (s.get E.host_aperture_base.s + off) len 0 = true →
      s.load (s.get E.host_aperture_base.s + off) len = (d, a) →
      exec (.apertureAccess false off len data) s = .next (after s (a.emit (.hostReadData d)))) ∧
    (∀ (k size new : Nat) (post : Post) (entries : List (List Byte)), s.hostOn = true →
      size = max 1 (s.get (E.hring_size.n k)) → new = (post.tail % size + size - (s.ring k).tail % size) % size →
      exec (.ringTail k post entries) s = .next (after s
        (s.modRing k fun t => { t with
          flags := t.flags &&& (7 ^^^ (post.clear % 8)), tail := post.tail % size, posted := t.posted ++ (entries ++ List.replicate new (leBytes 16 0)).take new }))) ∧
    (∀ (r : Req) (w : Who) (k v : Nat), Accepts s r w E.hring_enable k 0 0 v → v = 1 →
      exec (.hringEnable r k v) s = .next (wrote s
        ((s.set (E.hring_enable.n k) 1).modRing k fun x => { x with stopped := false }) r E.hring_enable k 0 0 v)) ∧
    (∀ (r : Req) (w : Who) (k v : Nat) (a : State), Accepts s r w E.hring_enable k 0 0 v → v = 0 →
      a = ((s.set (E.hring_enable.n k) 0).modRing k fun x => { x with stopped := false }) →
      exec (.hringEnable r k v) s = .next (wrote s (if k = 3 then a else a.ringClear k) r E.hring_enable k 0 0 v)) ∧
    (∀ (k : Nat) (x : RingRec) (xs : List RingRec), k ≠ 2 → s.ringOn k = true → (s.ring k).staged = x :: xs →
      (s.ring k).posted ≠ [] → (fillBuffers (s.ring k).posted x.bytes).2 = [] →
      exec (.ringRecordDeliver k) s = .next (after s (ringWrite s k x))) ∧
    (∀ (k : Nat) (x : RingRec) (xs : List RingRec), k ≠ 2 → s.ringOn k = true → (s.ring k).staged = x :: xs →
      (s.ring k).posted = [] ∨ (fillBuffers (s.ring k).posted x.bytes).2 ≠ [] → s.cyc.rings.contains k = false →
      exec (.ringRecordDeliver k) s = .next (after s { s with cyc := { s.cyc with rings := s.cyc.rings ++ [k] } }) ∧
      ringTake s k = ringWrite s k x) ∧
    (exec (.ringRecordDeliver 2) s = .next (after s (ringArchive s))) ∧
    (∀ (k t : Nat), (s.ring k).irqAt = some t → t + s.get (E.hring_irq_holdoff.n k) ≤ s.ft → s.hostOn = true →
      exec (.ringIrqHoldoff k) s = .next (after s
        ((s.modRing k fun x => { x with irqAt := none }).emit (.irq (1 + k))))) ∧
    (∀ (data d : List Byte) (ds : List (List Byte)), (s.ring 3).posted = d :: ds →
      s.ringOn 3 = true ∨ (s.hostOn = true ∧ (s.ring 3).acc ≠ []) →
      bitAt (leAt d 12 1) 1 = true → bitAt (leAt d 12 1) 2 = false →
      exec (.txDescriptor data) s = .next (after s
        (s.modRing 3 fun t => { t with
          head := (t.head + 1) % max 1 (s.get (E.hring_size.n 3)), posted := ds,
          acc := [((s.ring 3).head, d)],
          accBytes := (data ++ List.replicate (leAt d 8 2) 0).take (leAt d 8 2) })))

/-- Raised sources set, a due chip-reset reaction resets, the FAULT_N pin from outside is followed, a stuck pin is flagged,
re-arming and injection have their effect, and a block reset ends, as named in the clause. Rules: R506, R508, R509, R513. Where
a clause rests on the model's own reading: log 18, 145, 146, 147. -/
def Obligations.FaultsComplete : Prop :=
  ∀ s : State,
    (∀ (srcs : List Nat), exec (.faultSetting srcs) s = .next (after s (s.raiseAll (srcs.filter sourceKnown)))) ∧
    (∀ (src t : Nat), s.flt.pendingReset = some (src, t) → t ≤ s.ft →
      exec .chipResetReaction s = .next (after s
        (({ (s.set E.fault_last_reset_cause.s src).inc E.fault_chip_resets.s 1 with
          flt := { s.flt with pendingReset := none } }).later (.chipReset 2)))) ∧
    (∀ (a : State), s.flt.drive = false → s.get E.fault_pin_sampling.s = 1 →
      a = { s with flt := { s.flt with
        extLow := true, lowSince := some (s.flt.lowSince.getD (s.ft - 1000)) } } →
      exec (.faultNExternal true) s = .next (after s (a.raise 641))) ∧
    (exec (.faultNExternal false) s = .next (after s (({ s with flt := { s.flt with extLow := false } }).pinTrack))) ∧
    (∀ (t : Nat), s.flt.lowSince = some t → s.get E.fault_pin_sampling.s = 1 → s.lineLow = true →
      max t s.flt.samplingSince + 10000000 ≤ s.ft →
      exec .faultNStuck s = .next (after s ((s.set E.fault_pin_sampling.s 0).raise 640))) ∧
    (∀ (r : Req) (w : Who) (v : Nat), Accepts s r w E.fault_pin_rearm 0 0 0 v → v = 1 → s.lineLow = false →
      exec (.faultPinRearm r v) s = .next (wrote s
        ({ s.set E.fault_pin_sampling.s 1 with flt := { s.flt with samplingSince := s.ft } }) r E.fault_pin_rearm 0 0 0
          v)) ∧
    (∀ (r : Req) (w : Who) (v : Nat), Accepts s r w E.fault_inject 0 0 0 v → sourceKnown v = true →
      exec (.faultInject r v) s = .next (wrote s
        ({ s with flt := { s.flt with injected := s.flt.injected ++ [v] } }) r E.fault_inject 0 0 0 v)) ∧
    (∀ (u : Nat), s.flt.resetting.contains u = true → u < 24 ∨ 32 ≤ u →
      exec (.blockResetDone u) s = .next (after s
        ({ s with flt := { s.flt with resetting := s.flt.resetting.filter (· ≠ u) } }))) ∧
    (∀ (u : Nat), s.flt.resetting.contains u = true → 24 ≤ u → u < 32 → s.get (E.hbm_state.n (u - 24)) = 1 →
      exec (.blockResetDone u) s = .next (after s
        (({ s with flt := { s.flt with resetting := s.flt.resetting.filter (· ≠ u) } }).set (E.hbm_state.n (u - 24)) 2)))

/-- Power states and domains are requested now or at an FT, a scheduled request fires, a failed domain is tried again, and an
orderly shut-down is scheduled, as named in the clause. Rules: R520, R521, R522, R531, R542. Where a clause rests on the model's
own reading: log 14. -/
def Obligations.PowerRequestsComplete : Prop :=
  ∀ s : State,
    (∀ (r : Req) (w : Who) (v : Nat) (ds : List Nat), Accepts s r w E.pwr_target 0 0 0 v → s.pwr.trip = false →
      s.pwr.entry = none → s.get E.pwr_state.s ≤ v →
      v ≠ s.get E.pwr_state.s → ds = (s.domsThat fun k => offIn v k && s.dstat k == 0) → s.pwrRefuse v ds = none →
      exec (.pwrTarget r v) s = .next (wrote s
        ((s.modPwr fun p => { p with entry := some ⟨v, ds, s.ft, if v = 2 then
              (s.ms.accs.filter fun a => !(s.stacksOf (rillAddr a.h) (accLen a.h)).isEmpty).map (·.id) else []⟩ }).set
            E.pwr_phase.s 1) r E.pwr_target 0 0 0 v)) ∧
    (∀ (r : Req) (w : Who) (v : Nat), Accepts s r w E.pwr_target 0 0 0 v → s.pwr.trip = false → s.pwr.entry = none →
      v < s.get E.pwr_state.s →
      exec (.pwrTarget r v) s = .next (wrote s (s.wake v) r E.pwr_target 0 0 0 v)) ∧
    (∀ (r : Req) (w : Who) (ft target : Nat), Accepts s r w E.pwr_enter_at 0 0 0 (ft + target * 2 ^ 64) →
      s.pwr.trip = false → target ≤ 3 → ft < 2 ^ 64 →
      s.ftTest ft = 0 →
      exec (.pwrEnterAt r ft target) s = .next (wrote s
        (s.schedule ft (.pwrEnter target)) r E.pwr_enter_at 0 0 0 (ft + target * 2 ^ 64))) ∧
    (∀ (ft seq t : Nat), s.dueAct = some ⟨ft, seq, .pwrEnter t⟩ →
      exec .pwrEnterFire s = .next (after s (State.pwrRequest { s with sched := s.sched.erase ⟨ft, seq, .pwrEnter t⟩ } t).2)) ∧
    (∀ (r : Req) (w : Who) (k v : Nat), Accepts s r w E.pwr_dom_request k 0 0 v → requestable k = true →
      domFitted s.part k = true →
      s.get E.pwr_state.s ≠ 3 → s.get (E.pwr_dom_request.n k) = 0 → v = 1 → s.dstat k = 0 → s.pwrRefuse 0xFF [k] = none →
      exec (.pwrDomRequest r k v) s = .next (wrote s
        (((s.modPwr fun p => { p with entry := some ⟨0xFF, [k], s.ft, []⟩ }).set E.pwr_phase.s 1).set
            (E.pwr_dom_request.n k) 1) r E.pwr_dom_request k 0 0 v)) ∧
    (∀ (r : Req) (w : Who) (k v : Nat) (b : State), Accepts s r w E.pwr_dom_request k 0 0 v → requestable k = true →
      domFitted s.part k = true →
      s.get E.pwr_state.s ≠ 3 → s.get (E.pwr_dom_request.n k) = 1 → v = 0 → b = s.set (E.pwr_dom_request.n k) 0 →
      b.dstat k = 1 → b.keptOff (s.get E.pwr_state.s) k = false →
      exec (.pwrDomRequest r k v) s = .next (wrote s
        ((b.restore (s.get E.pwr_state.s) [k]).exitCheck) r E.pwr_dom_request k 0 0 v)) ∧
    (∀ (r : Req) (w : Who) (k v : Nat), Accepts s r w E.pwr_dom_retry k 0 0 v → 3 ≤ k → domFitted s.part k = true →
      v = 1 → s.dstat k = 4 →
      (s.set (E.pwr_dom_status.n k) 1).keptOff (s.get E.pwr_state.s) k = false →
      exec (.pwrDomRetry r k v) s = .next (wrote s
        ((s.set (E.pwr_dom_status.n k) 1).restore (s.get E.pwr_state.s) [k]) r E.pwr_dom_retry k 0 0 v)) ∧
    (∀ (r : Req) (w : Who) (v : Nat), Accepts s r w E.st_shutdown 0 0 0 v → s.ftTest v = 0 →
      bitAt (s.get E.st_lbist_states.s) (s.get E.lc_state.s) = true → s.get E.st_state.s ≠ 2 →
      exec (.stShutdown r v) s = .next (wrote s
        ((s.unschedule .shutdown).schedule v .shutdown) r E.st_shutdown 0 0 0 v))

/-- Drains end or reach their limit, wake events and lane signals wake, domains are admitted, ramp and become usable, the supply
warning begins and ends, and holds and waits expire, as named in the clause. Rules: R522, R525, R528, R529, R531, R534, R535,
R584. Where a clause rests on the model's own reading: log 148. -/
def Obligations.PowerEventsComplete : Prop :=
  ∀ s : State,
    (∀ (e : PwrEntry) (a : State), s.pwr.entry = some e →
      (s.mill.jobs.any (fun j => j.state == 1 && j.mills.any fun x =>
        e.doms.contains (millDomain x) || e.doms.contains (21 + 5 * (x / 68)))) = false →
      (e.accs.any (fun id => s.ms.accs.any fun x => x.id == id)) = false → e.target = 0xFF →
      a = (e.doms.reverse.foldl (fun (st : State) k => st.domOff k false) s) →
      exec .drainDone s = .next (after s ((a.modPwr fun p => { p with entry := none }).pwrRest))) ∧
    (∀ (e : PwrEntry) (a b : State), s.pwr.entry = some e →
      (s.mill.jobs.any (fun j => j.state == 1 && j.mills.any fun x =>
        e.doms.contains (millDomain x) || e.doms.contains (21 + 5 * (x / 68)))) = false →
      (e.accs.any (fun id => s.ms.accs.any fun x => x.id == id)) = false → e.target < 3 →
      a = e.doms.reverse.foldl (fun (st : State) k => st.domOff k (e.target == 2 && decide (41 ≤ k ∧ k ≤ 48)))
        (s.setDoms (domSet e.target) [1]) →
      b = (a.modPwr fun p => { p with entry := none }).set E.pwr_state.s e.target →
      exec .drainDone s = .next (after s b.pwrRest)) ∧
    (∀ (e : PwrEntry), s.pwr.entry = some e → e.at_ + s.get E.pwr_drain_limit.s ≤ s.ft → e.target ≠ 0xFF →
      s.get E.st_state.s ≠ 1 →
      exec .drainLimit s = .next (after s (s.pwrAbandon 2))) ∧
    (∀ (src : Nat), src ≠ 2 → src ≠ 4 → src ≠ 5 → exec (.wakeEvent src) s = .next (after s (s.wake
      (s.get E.pwr_wake_state.s)))) ∧
    (∀ (l : Nat), s.domBit E.pwr_wake_lanes 0 0 l = true → laneFitted s.part l = true → s.get E.pwr_state.s = 3 →
      exec (.laneSignalWake l) s = .next (after s (s.wake (s.get E.pwr_wake_state.s)))) ∧
    (∀ (k delay : Nat) (ks : List Nat) (a b : State), s.pwr.waiting = k :: ks → s.pwr.sdLow = false →
      a = (s.modPwr fun p => { p with sdWait := none }) → a.dstat k ≠ 4 → a.admissible k = some true →
      delay = (if 41 ≤ k ∧ k ≤ 48 ∧ a.dstat k = 1 then 40000000 else a.get (E.pwr_dom_restore_ns.n k)) →
      b = (a.modPwr fun p => { p with waiting := ks, ramps := p.ramps ++ [(⟨k, a.ft, delay, false⟩ : Ramp)] }) →
      exec .domainAdmit s = .next (after s
        ((b.setDoms (domSet (b.pwr.exit_.getD (b.get E.pwr_state.s))) [1, k]).set (E.pwr_dom_status.n k) 3))) ∧
    (∀ (k : Nat) (x : Ramp), s.pwr.ramps.find? (fun r => r.dom == k && !r.good) = some x →
      x.at_ + s.get (E.pwr_dom_ramp_ns.n k) ≤ s.ft →
      (s.pwr.shed && millGroup k) = false →
      exec (.rampWindowEnd k true) s = .next (after s
        (s.modPwr fun p => { p with ramps := p.ramps.map fun (r : Ramp) =>
          if r.dom = k then { r with good := true } else r }))) ∧
    (∀ (k : Nat) (x : Ramp), s.pwr.ramps.find? (fun r => r.dom == k && !r.good) = some x →
      x.at_ + s.get (E.pwr_dom_ramp_ns.n k) ≤ s.ft →
      exec (.rampWindowEnd k false) s = .next (after s (s.failDom k))) ∧
    (∀ (k : Nat) (x : Ramp) (a : State), s.pwr.ramps.find? (fun r => r.dom == k && r.good) = some x →
      x.at_ + x.delay ≤ s.ft → k < 17 →
      a = ((s.modPwr fun p => { p with ramps := p.ramps.filter (fun r => r.dom != k) }).set (E.pwr_dom_status.n k) 0) →
      exec (.domainUsable k) s = .next (after s ((a.later .upkeep).exitCheck))) ∧
    (∀ (a b c d : State) (on : List Nat), s.get E.pwr_warn_level.s ≠ 1 →
      a = ((s.set E.pwr_warn_level.s 1).raise 639).inc E.pwr_sheds.s 1 →
      b = ((a.modPwr fun p => { p with
        shed := true, shedAt := a.ft, held := false, waiting := p.waiting.filter (fun k => !millGroup k) }).abortJobs
        (fun j => j.state == 1 && j.mills != []) 0x0B) →
      on = (b.domsThat fun k => millGroup k && (b.dstat k == 0 || b.pwr.ramps.any (fun r => r.dom == k && r.good))) →
      c = (on.reverse.foldl (fun (st : State) k => st.domOff k false)
        (b.modPwr fun p => { p with ramps := p.ramps.filter (fun r => !on.contains r.dom) })) →
      d = c.exitCheck →
      exec .pwrWarnAssert s = .next (after s (if d.pwr.entry.isNone && d.pwr.exit_.isNone then d.pwrRest else d))) ∧
    (∀ (a : State), s.get E.pwr_warn_level.s ≠ 0 → a = ((s.set E.pwr_warn_level.s 0).modPwr fun p =>
      { p with shed := false }) →
      a.get E.boot_stage.s ≠ 0 → a.get E.boot_stage.s < 4 → exec .pwrWarnDeassert s = .next (after s (a))) ∧
    (∀ (ks : List Nat) (cur dest : Nat) (a : State), s.get E.pwr_warn_level.s ≠ 0 →
      a = ((s.set E.pwr_warn_level.s 0).modPwr fun p => { p with shed := false }) →
      a.get E.boot_stage.s = 0 → cur = a.get E.pwr_state.s → dest = a.pwr.exit_.getD cur →
      ks = (a.domsThat fun k => millGroup k && a.dstat k == 1 && !a.keptOff dest k) → ks ≠ [] → a.pwr.entry = none →
      exec .pwrWarnDeassert s = .next (after s (a.restore dest ks))) ∧
    (s.get E.pwr_warn_level.s ≠ 0 → s.pwr.held = false → s.pwr.shedAt + s.get E.pwr_hold_window.s ≤ s.ft →
      s.get E.pwr_hold_action.s ≠ 1 →
      exec .holdWindowExpire s = .next (after s (s.modPwr fun p => { p with held := true }))) ∧
    (∀ (k t : Nat) (ks : List Nat), s.pwr.waiting = k :: ks → s.pwr.sdWait = some t → 17 ≤ k → k ≤ 20 →
      s.pwr.sdLow = true → t + 100000000 ≤ s.ft →
      exec .vddSdWaitTimeout s = .next (after s ((s.modPwr fun p => { p with sdWait := none }).failDom k)))

/-- A partition's self-test ends, a rail out of its window is reported, a runtime lane repair is applied or fails, a thermal
sample is taken, and the throttle steps down and up, as named in the clause. Rules: R541, R542, R548, R592, R593. Where a clause
rests on the model's own reading: log 149, 151, 161. -/
def Obligations.SelfTestCompletes : Prop :=
  ∀ s : State,
    (∀ (ok : Bool) (rail p q : Nat) (ps : List Nat) (a : State), s.get E.st_state.s = 2 → s.get E.pwr_state.s = 3 →
      railOk rail = true → a = s.testBegin rail →
      a.st.parts = p :: q :: ps → a.st.woken = false →
      exec (.shutdownTest ok rail) s = .next (after s
        ({ a with st := { a.st with
          rail := min a.st.rail rail, parts := q :: ps, tested := a.st.tested + 1,
          failed := if ok then a.st.failed else p :: a.st.failed } }))) ∧
    (∀ (rail : Nat) (a : State), s.get E.st_state.s = 2 → a = s.testBegin rail →
      exec (.selftestRailOutOfWindow rail) s = .next (after s
        (({ a with st := { a.st with rail := min a.st.rail rail } }).testEnd 3 1))) ∧
    (∀ (join m : Nat), s.st.retired.contains (64 * join + m) = false → join < 8 → m < (if join < 4 then 32 else 8) →
      mgetD s.st.lanes (64 * join + m) 0 < 4 →
      exec (.laneRuntimeRepair join m) s = .next (after s
        ((({ s with st := { s.st with
          lanes := mput s.st.lanes (64 * join + m) (mgetD s.st.lanes
            (64 * join + m) 0 + 1) } }).inc E.st_lane_repairs.s 1).repairNote))) ∧
    (∀ (join m : Nat), s.st.retired.contains (64 * join + m) = false → join < 8 → m < (if join < 4 then 32 else 8) →
      4 ≤ mgetD s.st.lanes (64 * join + m) 0 →
      exec (.laneRuntimeRepair join m) s = .next (after s ((s.retireModule join m).raise 713))) ∧
    (∀ (temps : List Int) (supplies : List Nat), (∀ t ∈ temps, t ≤ 105000) →
      ∃ u, exec (.thermalSample temps supplies) s = .next (after s u) ∧ u.mem = s.mem ∧ u.time = s.time ∧ u.hs = s.hs) ∧
    (∀ (t : Nat) (a b : State), s.therm.hotAt = some t → t + 1000000 ≤ s.ft →
      a = { s.throttleNs with therm := { s.throttleNs.therm with hotAt := some s.throttleNs.ft } } →
      1000 < a.get E.therm_mill_clock.s → b = a.set E.therm_mill_clock.s (a.get E.therm_mill_clock.s - 400) →
      exec .throttleStepDown s = .next (after s
        (((b.inc E.therm_throttle_steps.s 1).thermState (signedOf 32 (b.get E.therm_max.s))).raise 637))) ∧
    (∀ (t : Nat) (a b : State), s.therm.coolAt = some t → t + 10000000 ≤ s.ft →
      a = { s.throttleNs with therm := { s.throttleNs.therm with coolAt := some s.throttleNs.ft } } →
      a.get E.therm_mill_clock.s < 2200 → b = a.set E.therm_mill_clock.s (a.get E.therm_mill_clock.s + 400) →
      exec .throttleStepUp s = .next (after s (b.thermState (signedOf 32 (b.get E.therm_max.s)))))

/-- A re-cabling window is opened now or at an FT, fires, closes and expires, and a rack-wide reset is scheduled and fires, as
named in the clause. Rules: R558, R560, R561. Where a clause rests on the model's own reading: log 18. -/
def Obligations.RackEventsComplete : Prop :=
  ∀ s : State,
    (∀ (r : Req) (w : Who) (v : Nat), Accepts s r w E.recable_open_at 0 0 0 v → s.recableCheck 0 = 0 → v = 0 →
      exec (.recableOpenAt r v) s = .next (wrote s (s.recableOpen) r E.recable_open_at 0 0 0 v)) ∧
    (∀ (r : Req) (w : Who) (v : Nat), Accepts s r w E.recable_open_at 0 0 0 v → s.recableCheck 0 = 0 → v ≠ 0 →
      s.ftTest v = 0 →
      exec (.recableOpenAt r v) s = .next (wrote s
        ((s.schedule v .recable).set E.recable_state.s 1) r E.recable_open_at 0 0 0 v)) ∧
    (∀ (ft seq : Nat), s.dueAct = some ⟨ft, seq, .recable⟩ → (s.unschedule .recable).recableCheck 1 = 0 →
      exec .recableOpenFire s = .next (after s ((s.unschedule .recable).recableOpen))) ∧
    (∀ (r : Req) (w : Who) (v : Nat), Accepts s r w E.recable_close 0 0 0 v → v = 1 → s.get E.recable_state.s = 2 →
      exec (.recableClose r v) s = .next (wrote s (s.recableEnd) r E.recable_close 0 0 0 v)) ∧
    (s.get E.recable_state.s = 2 → s.get E.recable_opened.s + s.get E.recable_limit.s ≤ s.ft →
      exec .recableLimit s = .next (after s { s with cyc := { s.cyc with limit := true } }) ∧
      s.recableExpire = s.recableEnd.inc E.recable_expired.s 1) ∧
    (∀ (r : Req) (w : Who) (v : Nat), Accepts s r w E.rack_reset_at 0 0 0 v → (s.unschedule .rackReset).ftTest v = 0 →
      exec (.rackResetAt r v) s = .next (wrote s
        (((s.unschedule .rackReset).schedule v .rackReset).set E.rack_reset_pending.s v) r E.rack_reset_at 0 0 0 v)) ∧
    (∀ (ft seq : Nat), s.dueAct = some ⟨ft, seq, .rackReset⟩ →
      exec .rackResetFire s = .next (after s
        (((s.unschedule .rackReset).set E.rack_reset_pending.s 0).later (.chipReset 4))))

/-- Power-on, the RESET_N pin, the end and overrun of a start stage, and losses and returns of supplies have the effect named in
the clause. Rules: R564, R566, R583. Where a clause rests on the model's own reading: log 18, 150. -/
def Obligations.StartCompletes : Prop :=
  ∀ s : State,
    (exec .powerOn s = .next (after s (s.powerUp))) ∧
    (s.boot.off = false → exec .chipReset s = .next (after s (s.chipReset 1))) ∧
    (s.boot.off = true → exec .chipReset s = .next (after s (s.powerUp))) ∧
    (∀ (fails : List BootUnit), s.boot.hold = false → s.get E.boot_code.s ≠ 1 → s.get E.boot_code.s ≠ 2 →
      exec (.bootStageEnd fails) s = .next (after s ((s.stageDone (s.get E.boot_stage.s) fails).pinTrack))) ∧
    (∀ (un : List BootUnit) (st : Nat), st = s.get E.boot_stage.s → st ≠ 0 → s.boot.hold = false →
      stageLimit st ≤ s.boot.stageNs →
      s.get E.boot_code.s ≠ 1 → s.get E.boot_code.s ≠ 2 → (st = 2 → s.boot.swapped = true) → st ≠ 4 →
      (s.bootFail st 0x05).boot = s.boot →
      exec (.stageLimitOverrun un) s = .next (after s (((s.bootFail st 0x05).stageDone st un).pinTrack))) ∧
    (∀ (un : List BootUnit) (a : State), s.get E.boot_stage.s = 4 → s.boot.hold = false → stageLimit 4 ≤ s.boot.stageNs →
      s.get E.boot_code.s ≠ 1 → s.get E.boot_code.s ≠ 2 → a = s.bootFail 4 0x05 →
      exec (.stageLimitOverrun un) s = .next (after s
        (((a.pwr.waiting ++ a.pwr.ramps.map (·.dom)).foldl (fun (st : State) k => st.failDom k) a).stageTo 5))) ∧
    (∀ (a : State), a = (s.inc E.supply_vin_lows.s 1).chipReset 1 →
      exec .vinIvrLow s = .next (after s ({ a with boot := { a.boot with hold := true } }))) ∧
    (s.boot.hold = true → s.boot.off = false →
      exec .vinIvrRecovered s = .next (after s ({ s with boot := { s.boot with hold := false } }))) ∧
    (∀ (a b : State), a = (if s.flt.lowSince.isSome then s.emit (.pin 0 true) else s) →
      b = (if a.pwr.trip then a.emit (.pin 1 true) else a) →
      exec .vddAonLow s = .next (after s ({ b.powerUp with boot := ⟨0, 0, true, true, false⟩ })))

/-- A request that the service takes runs its items in order and is answered; a CREATE that passes R43 makes its handle live,
and a DESTROY of a destroyable handle destroys it. Rules: R32, R42, R47, R48, R55, R510. Where a clause rests on the model's own
reading: log 20, 21, 23, 24, 28, 34, 155, 161, 163, 166. -/
def Obligations.RequestsComplete : Prop :=
  ∀ s : State,
    (∀ (r : Req) (w : Who) (items : List Item) (done : List RItem) (a : State), Serves s r w →
      runItems w r 0x1 items [] s = ([], done, a) → (∀ x ∈ done, x.status = 0) →
      exec (.read r items) s = .next (after s (a.emit (.response r 0x81 0 0 done)))) ∧
    (∀ (r : Req) (w : Who) (items : List Item) (done : List RItem) (a : State), Serves s r w →
      runItems w r 0x2 items [] s = ([], done, a) → (∀ x ∈ done, x.status = 0) →
      exec (.write r items) s = .next (after s (a.emit (.response r 0x82 0 0 done)))) ∧
    (∀ (r : Req) (w : Who) (items : List Item) (done : List RItem) (a : State), Serves s r w →
      runItems w r 0x3 items [] s = ([], done, a) → (∀ x ∈ done, x.status = 0) →
      exec (.readBlock r items) s = .next (after s (a.emit (.response r 0x83 0 0 done)))) ∧
    (∀ (r : Req) (w : Who) (items : List Item) (done : List RItem) (a : State), Serves s r w →
      runItems w r 0x4 items [] s = ([], done, a) → (∀ x ∈ done, x.status = 0) →
      exec (.writeBlock r items) s = .next (after s (a.emit (.response r 0x84 0 0 done)))) ∧
    (∀ (r : Req) (w : Who) (items : List Item) (done : List RItem) (a : State), Serves s r w →
      runItems w r 0x10 items [] s = ([], done, a) → (∀ x ∈ done, x.status = 0) →
      exec (.create r items) s = .next (after s (a.emit (.response r 0x90 0 0 done)))) ∧
    (∀ (r : Req) (w : Who) (items : List Item) (done : List RItem) (a : State), Serves s r w →
      runItems w r 0x11 items [] s = ([], done, a) → (∀ x ∈ done, x.status = 0) →
      exec (.destroy r items) s = .next (after s (a.emit (.response r 0x91 0 0 done)))) ∧
    (∀ (r : Req) (w : Who) (items : List Item) (done : List RItem) (a : State), Serves s r w → w.owner < 2 ^ 32 →
      runItems w r 0x41 items [] s = ([], done, a) → (∀ x ∈ done, x.status = 0) →
      exec (.subscribe r items) s = .next (after s (a.emit (.response r 0xC1 0 0 done)))) ∧
    (∀ (r : Req) (w : Who) (it : Item) (t i part : Nat), Serves s r w → createPick s w it none = .ok (t, i, part) →
      exec (.create r [it]) s = .next (after s ((s.makeLive t i part).emit
        (.response r 0x90 0 0 [⟨it.index, it.sub, 0, mkHandle t (s.genOf t i) i, []⟩])))) ∧
    (∀ (r : Req) (w : Who) (it : Item), Serves s r w → itemGate s w it true 2 = 0 → 2 ≤ rightOf s w.role it.index 1 →
      it.data = [] → ¬ (hType it.handle = 4 ∧ it.index = 0x4100 ∧ hIdx it.handle < 16384) →
      destroyable s (hType it.handle) (hIdx it.handle) = true →
      exec (.destroy r [it]) s = .next (after s ((destroyNow s (hType it.handle) (hIdx it.handle)).emit
        (.response r 0x91 0 0 [⟨it.index, it.sub, 0, it.handle, []⟩]))))

/-- A transaction opens, is scheduled to commit, aborted and reported, its scheduled commit fires, an inactive one is dropped,
and an item that passes its check is staged and changes nothing else. Rules: R48, R49, R50, R51, R53. Where a clause rests on
the model's own reading: log 29, 30, 34, 50, 167. -/
def Obligations.TransactionsComplete : Prop :=
  ∀ s : State,
    (∀ (r : Req) (w : Who), Serves s r w →
      (s.mgmt.txs.filter fun x => decide (x.state ≤ 1)).length < 64 →
      exec (.txOpen r) s = .next (after s ((s.modMgmt fun m => { m with
        txs := m.txs ++ [⟨m.nextTx, w.owner, w.role, w.part, 0, 0, [], s.ft, 0, 0⟩]
        nextTx := if m.nextTx + 1 < 2 ^ 32 then m.nextTx + 1 else 1 }).emit
        (.response r 0xA0 (if s.mgmt.nextTx = 0 then 0x02 else 0) s.mgmt.nextTx [])))) ∧
    (∀ (r : Req) (w : Who) (x : Tx) (a : State), ServesTx s r w x → a = s.modTxn x.id (fun y =>
      { y with active := s.ft }) → ∀ ft : Nat,
      ft < 2 ^ 64 → x.state = 0 → ft ≠ 0 → a.ftTest ft = 0 → exec (.txCommit r ft) s = .next (after s
        (((a.schedule ft (.commit x.id)).modTxn x.id fun y => { y with state := 1 }).emit
          (.response r 0xA1 0 r.tx [⟨0, 0, 0, 0, []⟩])))) ∧
    (∀ (r : Req) (w : Who) (x : Tx) (a : State), ServesTx s r w x → a = s.modTxn x.id (fun y => { y with active := s.ft }) →
      x.state ≤ 1 → commitCame a x = false → exec (.txAbort r) s = .next (after s ((a.dropTx x.id).emit (.response r 0xA2 0 r.tx [⟨0, 0, 0, 0,
        []⟩])))) ∧
    (∀ (r : Req) (w : Who) (x : Tx) (a : State), ServesTx s r w x → a = s.modTxn x.id (fun y => { y with active := s.ft }) →
      exec (.txStatus r) s = .next (after s
        (a.emit (.response r 0xA3 0 r.tx [⟨x.bad / 256, x.bad % 256, 0, 0, leBytes 1 x.state ++ leBytes 1 x.status⟩])))) ∧
    (∀ (ft seq id : Nat) (x : Tx), s.dueAct = some ⟨ft, seq, .commit id⟩ →
      (s.unschedule (.commit id)).mgmt.txs.find? (fun x => x.id == id && x.state == 1) = some x → midRequest s = false →
      exec .txCommitFire s = .next (after s ((commitNow (s.unschedule (.commit id)) x).2.2).lockFollow)) ∧
    (∀ (id : Nat) (x : Tx), s.mgmt.txs.find? (fun x => x.id = id) = some x → x.state = 0 → x.active + 10000000000 ≤ s.ft →
      exec (.txInactivityTimeout id) s = .next (after s (s.dropTx id))) ∧
    (∀ (r : Req) (w : Who) (x y : Tx) (a : State) (it : Item), ServesTx s r w x →
      a = s.modTxn x.id (fun z => { z with active := s.ft }) → a.txOf w r.tx = some y → y.state = 0 →
      y.items.length < 4096 → txBytes y + it.data.length ≤ 2097152 →
      (applyStaged (staged a y) { w with inTx := true } ⟨2, it, 0, false⟩).1 = 0 →
      exec (.write r [it]) s = .next (after s
        ((a.modTxn y.id fun z => { z with items := z.items ++ [⟨2, it, 0, false⟩] }).emit
          (.response r 0x82 0 r.tx [⟨it.index, it.sub, 0, it.handle, []⟩]))))

/-- A session opens and closes, a lockout, a quarantine and the creation quiet interval end, as named in the clause. Rules: R44,
R46, R53, R484. Where a clause rests on the model's own reading: log 14, 33, 34, 35, 41, 164. -/
def Obligations.SessionsComplete : Prop :=
  ∀ s : State,
    (∀ (r : Req) (data d : List Byte) (a : State), reachable s r = true → s.get E.boot_stage.s ≠ 1 →
      s.get E.lc_state.s ≠ 0 →
      s.getB E.device_ready.s = true → r.session = 0 → r.tx = 0 → (∀ p, r.via ≠ .control p) →
      sessionOpen s r data = (0, d, a) →
      exec (.sessionOpen r data) s = .next (after s (a.emit (.response r 0xB0 0 0 [⟨0, 0, 0, 0, d⟩]))) ∧
        ∃ x, a.mgmt.sessions = s.mgmt.sessions ++ [x] ∧ x.via = r.via ∧ x.role = leAt data 0 1 ∧
          x.id = s.mgmt.nextSession) ∧
    (∀ (r : Req) (w : Who), Serves s r w → w.owner < 2 ^ 32 →
      exec (.sessionClose r) s = .next (after s ((s.emit (.response r 0xB1 0 0 [])).closeSession w.owner))) ∧
    (∀ (t : Nat), s.mgmt.lockAt = some t → t + 60000000000 ≤ s.ft →
      exec .sessionLockoutEnd s = .next (after s
        ((s.modMgmt fun m => { m with lockAt := none }).set E.sec_lockout.s 0))) ∧
    (∀ (t i ft : Nat), mget? s.hs.quar (t * 2 ^ 20 + i) = some ft → ft ≤ s.ft →
      exec (.quarantineEnd t i) s = .next (after s
        ({ s with hs := { s.hs with quar := mdel s.hs.quar (t * 2 ^ 20 + i) } }))) ∧
    (s.hs.openAt ≤ s.ft → exec .creationQuietEnd s = .next (after s ({ s with hs := { s.hs with openAt := 0 } })))

/-- A PDU is parsed and served, MCTP messages and datagrams hand their PDU on, and the mailbox takes a request and ends it, as
named in the clause. Rules: R56, R58, R59. Where a clause rests on the model's own reading: log 7, 8, 34, 35, 37, 170, 171, 172.
-/
def Obligations.TransportsComplete : Prop :=
  ∀ s : State,
    (∀ (via : Transport) (src : Nat) (b : List Byte) (items : List Item), 16 ≤ b.length → leAt b 0 1 = 1 →
      opKnown (leAt b 1 1) = true → b.length ≤ (if via = .udp then 1400 else 4096) →
      leAt b 14 2 = 0 → parseItems (leAt b 12 2) (b.drop 16) = some items →
      exec (.pduReceive via src b) s = .next (after s
        (serve s .plain ⟨via, src, leAt b 2 2, leAt b 4 4, leAt b 8 4⟩ (leAt b 1 1) items))) ∧
    (∀ (eid : Nat) (b : List Byte), s.mgmt.sbFailed = false → b.take 5 = mctpPrefix →
      s.mgmt.mctpOut.any (fun x => x.eid == eid && x.tag == leAt b 7 2) = false →
      exec (.mctpMessage eid b) s = .next (after s (mctpFlush (receivePdu
        (s.modMgmt fun m => { m with mctpOut := m.mctpOut ++ [⟨eid, leAt b 7 2, none⟩] }) .mctp .mctp eid (b.drop 5))))) ∧
    (∀ (src : Nat) (b : List Byte), 32 ≤ b.length → leAt (b.take (b.length - 16)) 4 4 = 0 →
      leAt (b.take (b.length - 16)) 1 1 = 0x30 →
      b.drop (b.length - 16) = List.replicate 16 0 →
      exec (.udpDatagram src b) s = .next (after s (receivePdu s .udp .udp src (b.take (b.length - 16))))) ∧
    (∀ (ring : Ring) (win full : List Byte), s.hostOn = true → s.mgmt.busy = false → bitAt ring.clear 1 = false →
      full = (win ++ List.replicate 4096 0).take 4096 →
      exec (.mailboxDoorbell ring win) s = .next (after s
        (receivePdu (s.modMgmt fun m => { m with reqWindow := full, busy := true, respLen := 0 }) .mailbox .mailbox 0
          ((full ++ [0]).take (min ring.len 4097))))) ∧
    (∀ (ring : Ring) (win : List Byte), s.hostOn = true → s.mgmt.busy = true →
      exec (.mailboxDoorbell ring win) s = .next (after s
        (s.modMgmt fun m => { m with overrun := true, overruns := m.overruns + 1 }))) ∧
    (s.mgmt.busy = true → (s.mgmt.parked.any fun p => decide (p.carry = .mailbox)) = false →
      exec .mailboxResponseDone s = .next (after s (mailboxDone s)))
end

