-- ==== Sys2Proof/Laws/Bytes.lean ====
section
/-!
SUPPORT. Little-endian byte strings: a number written to bytes reads back, and so do byte strings read in parts.
-/

namespace Sys2Proof.Machine

@[simp] theorem leBytes_length (len n : Nat) : (leBytes len n).length = len := by
  induction len generalizing n with
  | zero => rfl
  | succ k ih => simp [leBytes, ih]

theorem ofLe_leBytes (len n : Nat) : ofLe (leBytes len n) = n % 256 ^ len := by
  induction len generalizing n with
  | zero => simp [leBytes, ofLe, Nat.mod_one]
  | succ k ih =>
    simp only [leBytes, ofLe, ih, BitVec.toNat_ofNat]
    have h : (256 : Nat) ^ (k + 1) = 2 ^ 8 * 256 ^ k := by rw [Nat.pow_succ']; norm_num
    rw [h, Nat.mod_mul]
    norm_num

theorem ofLe_leBytes_of_lt {len n : Nat} (h : n < 256 ^ len) : ofLe (leBytes len n) = n := by
  rw [ofLe_leBytes, Nat.mod_eq_of_lt h]

/-- A field that begins where the bytes before it end reads as itself. -/
theorem slice_at {α : Type} (a b c : List α) (lo len : Nat) (ha : a.length = lo) (hb : b.length = len) :
    slice (a ++ (b ++ c)) lo len = b := by
  subst ha hb
  simp [slice]

theorem leAt_at (a c : List Byte) (lo len n : Nat) (ha : a.length = lo) :
    leAt (a ++ (leBytes len n ++ c)) lo len = n % 256 ^ len := by
  rw [leAt, slice_at a _ c lo len ha (leBytes_length len n), ofLe_leBytes]

end Sys2Proof.Machine
end

