-- ==== Sys2Proof/Laws/Memory.lean ====
section
/-!
SUPPORT. Every operation on the bytes of memory keeps the canonical form: addresses strictly rising, and no byte listed that
equals what an unlisted address reads as.
-/

namespace Sys2Proof.Machine

theorem Memory.wf_cons {c : Host.Cell} {m : List Host.Cell} :
    Memory.wf (c :: m) = true ↔ c.2 ≠ unlisted ∧ (∀ d ∈ m, c.1 < d.1) ∧ Memory.wf m = true := by
  induction m generalizing c with
  | nil => simp [Memory.wf]
  | cons d m ih =>
    obtain ⟨a, b⟩ := c
    obtain ⟨a', b'⟩ := d
    have hd := ih (c := (a', b'))
    show (decide (b ≠ unlisted) && decide (a < a') && Memory.wf ((a', b') :: m)) = true ↔ _
    simp only [Bool.and_eq_true, decide_eq_true_eq, hd]
    constructor
    · rintro ⟨⟨h1, h2⟩, h3, h4, h5⟩
      refine ⟨h1, fun d hd => ?_, h3, h4, h5⟩
      rcases List.mem_cons.1 hd with rfl | hd
      · exact h2
      · exact Nat.lt_trans h2 (h4 d hd)
    · rintro ⟨h1, h2, h3, h4, h5⟩
      exact ⟨⟨h1, h2 _ List.mem_cons_self⟩, h3, h4, h5⟩

theorem Memory.wf_filter (q : Host.Cell → Bool) {m : List Host.Cell} (h : Memory.wf m = true) : Memory.wf (m.filter q) = true := by
  induction m with
  | nil => rfl
  | cons c m ih =>
    obtain ⟨h1, h2, h3⟩ := Memory.wf_cons.1 h
    rw [List.filter_cons]
    split
    · exact Memory.wf_cons.2 ⟨h1, fun d hd => h2 d (List.mem_filter.1 hd).1, ih h3⟩
    · exact ih h3

theorem Memory.wf_append {m n : List Host.Cell} (hm : Memory.wf m = true) (hn : Memory.wf n = true)
    (h : ∀ c ∈ m, ∀ d ∈ n, c.1 < d.1) : Memory.wf (m ++ n) = true := by
  induction m with
  | nil => exact hn
  | cons c m ih =>
    obtain ⟨h1, h2, h3⟩ := Memory.wf_cons.1 hm
    rw [List.cons_append]
    refine Memory.wf_cons.2 ⟨h1, fun d hd => ?_, ih h3 fun x hx => h x (List.mem_cons_of_mem _ hx)⟩
    rcases List.mem_append.1 hd with hd | hd
    · exact h2 d hd
    · exact h c List.mem_cons_self d hd

/-- The cells of bytes from a on are canonical and lie in their range. -/
theorem cellsOf_wf (bs : List Byte) (a : Nat) :
    Memory.wf (cellsOf a bs) = true ∧ ∀ c ∈ cellsOf a bs, a ≤ c.1 ∧ c.1 < a + bs.length := by
  induction bs generalizing a with
  | nil => exact ⟨rfl, by simp [cellsOf]⟩
  | cons b bs ih =>
    obtain ⟨h1, h2⟩ := ih (a + 1)
    have h3 : ∀ c ∈ cellsOf (a + 1) bs, a ≤ c.1 ∧ c.1 < a + (b :: bs).length := by
      intro c hc
      have := h2 c hc
      rw [List.length_cons]
      omega
    unfold cellsOf
    split
    · exact ⟨h1, h3⟩
    · rename_i hb
      refine ⟨Memory.wf_cons.2 ⟨hb, fun d hd => (h2 d hd).1, h1⟩, fun c hc => ?_⟩
      rcases List.mem_cons.1 hc with rfl | hc
      · exact ⟨Nat.le_refl _, by rw [List.length_cons]; show a < a + (bs.length + 1); omega⟩
      · exact h3 c hc

theorem memPut_wf {m : List Host.Cell} (a : Nat) (bs : List Byte) (h : Memory.wf m = true) : Memory.wf (memPut m a bs) = true := by
  obtain ⟨h1, h2⟩ := cellsOf_wf bs a
  unfold memPut
  refine Memory.wf_append (Memory.wf_append (Memory.wf_filter _ h) h1 fun c hc d hd => ?_) (Memory.wf_filter _ h) fun c hc d hd => ?_
  · have hl : c.1 < a := by simpa using (List.mem_filter.1 hc).2
    exact Nat.lt_of_lt_of_le hl (h2 d hd).1
  · have hr : a + bs.length ≤ d.1 := by simpa using (List.mem_filter.1 hd).2
    rcases List.mem_append.1 hc with hc | hc
    · have hl : c.1 < a := by simpa using (List.mem_filter.1 hc).2
      omega
    · have := (h2 c hc).2
      omega

theorem memDrop_wf {m : List Host.Cell} (lo hi : Nat) (h : Memory.wf m = true) : Memory.wf (memDrop m lo hi) = true :=
  Memory.wf_filter _ h

/-- A write of bytes at a fabric address keeps the canonical form. -/
theorem State.memWrite_wf (s : State) (a : Nat) (bs : List Byte) (h : Memory.wf s.mem = true) :
    Memory.wf (s.memWrite a bs).mem = true := by
  unfold State.memWrite
  dsimp only
  generalize s.mem = m at h
  generalize pagePieces (bs.length / 4096 + 2) a bs = ps
  induction ps generalizing m with
  | nil => exact h
  | cons p ps ih => exact ih _ (memPut_wf _ _ h)

/-- A write of a number at a fabric address keeps the canonical form. -/
theorem State.memPut64_wf (s : State) (a n : Nat) (h : Memory.wf s.mem = true) : Memory.wf (s.memPut64 a n).mem = true :=
  s.memWrite_wf a _ h

/-- The memory that a chip reset keeps is canonical. -/
theorem memReset_wf (s : State) (h : Memory.wf s.mem = true) : Memory.wf (memReset s).mem = true := memDrop_wf _ _ h

end Sys2Proof.Machine
end

