-- ==== Sys2Proof/Laws/Millrace.lean ====
section
/-!
SUPPORT. A frame that a Millrace port takes, and what sending frames leaves unchanged.
-/

namespace Sys2Proof.Machine

theorem mrGate_heard {s : State} {p : Nat} {x : MrRx} {f : MrFrame} (h : FrameHeard s p x f) :
    mrGate s p x f true = (decide (s.get (E.millrace_state.n p) = 5 ∨ bringsUp f = true), heardState s p x) := by
  obtain ⟨h1, h2, h3, h4, h5, rd, h6⟩ := h
  have h0 : mrFarEnd s p = false := by
    unfold mrFarEnd
    rcases h1 with h1 | h1 <;> simp [h1]
  have h7 : ¬ ((s.get (E.millrace_state.n p) ≠ 4 ∧ s.get (E.millrace_state.n p) ≠ 5) ∨ s.get (E.millrace_loopback.n p) ≠ 0 ∨
      s.get (E.millrace_prbs.n p) ≠ 0 ∨ (mrOf s p).bubble ∨ s.get (E.millrace_rx_state.n p) ≠ 1) := by
    rcases h1 with h1 | h1 <;> simp [h1, h2, h3, h4, h5]
  unfold mrGate heardState
  simp only [h0, h6, if_neg h7]
  simp

/-- The frame of an Active port whose direction is the type's is taken. -/
theorem mrGate_taken {s : State} {p : Nat} {x : MrRx} {f : MrFrame} (h : FrameTaken s p x f) (d : Bool) (hd : d = true) :
    mrGate s p x f d = (true, heardState s p x) := by
  subst hd
  rw [mrGate_heard h.hears]
  simp [h.active]

/-- What sending on Millrace may change: the ports' records and what leaves the block. -/
def SendsOnly (s t : State) : Prop := ∃ m o, t = { s with mr := m, out := o }

theorem SendsOnly.refl (s : State) : SendsOnly s s := ⟨s.mr, s.out, rfl⟩

theorem SendsOnly.trans {s t u : State} (h : SendsOnly s t) (g : SendsOnly t u) : SendsOnly s u := by
  obtain ⟨m, o, rfl⟩ := h
  obtain ⟨m', o', rfl⟩ := g
  exact ⟨m', o', rfl⟩

theorem SendsOnly.get {s t : State} (h : SendsOnly s t) (l : Loc) : t.get l = s.get l := by
  obtain ⟨m, o, rfl⟩ := h; rfl

theorem SendsOnly.fold {α : Type} (f : State → α → State) (l : List α) (h : ∀ s a, SendsOnly s (f s a)) (s : State) :
    SendsOnly s (l.foldl f s) := by
  induction l generalizing s with
  | nil => exact .refl s
  | cons a l ih => exact (h s a).trans (ih (f s a))

theorem mrMod_only (s : State) (p : Nat) (f : MrPort → MrPort) : SendsOnly s (mrMod s p f) := ⟨_, s.out, rfl⟩

theorem emit_only (s : State) (o : Output) : SendsOnly s (s.emit o) := ⟨s.mr, _, rfl⟩

/-- A frame put on a port that is not in near-end loopback changes no entry. -/
theorem mrPut_only (s : State) (p : Nat) (f : MrFrame) (e : Nat) (h : mrNearEnd s p = false) : SendsOnly s (mrPut s p f e) := by
  unfold mrPut
  have h' : ∀ g, mrNearEnd (mrMod s p g) p = false := fun g => h
  simp only [h', Bool.false_eq_true, if_false]
  exact (mrMod_only s p _).trans (emit_only _ _)

theorem mrSend_only (s : State) (p lag : Nat) (f : MrFrame) (h : mrNearEnd s p = false) : SendsOnly s (mrSend s p lag f) := by
  unfold mrSend
  split
  · exact .refl s
  · simp only
    split
    · exact mrMod_only s p _
    · exact mrPut_only s p f _ h

theorem mrNearEnd_of_carries {s : State} {p : Nat} (h : mrCarries s p = true) : mrNearEnd s p = false := by
  unfold mrCarries at h
  unfold mrNearEnd
  simp only [Bool.and_eq_true, beq_iff_eq] at h
  simp [h.1.1]

/-- A relay changes the ports' records and what leaves the block, and nothing else. -/
theorem mrSendRole_only (s : State) (k lag : Nat) (f : MrFrame) : SendsOnly s (mrSendRole s k lag f) := by
  unfold mrSendRole
  apply SendsOnly.fold
  intro t p
  split
  · rename_i h
    exact mrSend_only t p lag f (mrNearEnd_of_carries h.2.1)
  · exact .refl t

end Sys2Proof.Machine
end

