-- ==== Sys2Proof/Laws/PerInstr.lean ====
section
/-!
SUPPORT. Statements made command by command.
-/

namespace Sys2Proof.Laws.Header

/-- A well-formed command that is a Catalogue request has a header that fits its PDU (R54). -/
def Statement (i : Instr) : Prop := i.wf = true → ∀ r, i.req? = some r → r.wf = true

/-- The left part of a conjunction. -/
theorem left {a b : Bool} (h : (a && b) = true) : a = true := by
  cases a
  · exact h
  · rfl

/-- A command with one header. -/
theorem of {i : Instr} {q : Req} (hq : i.req? = some q) (hw : i.wf = true → q.wf = true) : Statement i := by
  intro h r e
  rw [hq] at e
  cases e
  exact hw h

theorem read (req : Req) (items : List Item) : Statement (.read req items) := of rfl fun h => left (h)

theorem write (req : Req) (items : List Item) : Statement (.write req items) := of rfl fun h => left (h)

theorem readBlock (req : Req) (items : List Item) : Statement (.readBlock req items) := of rfl fun h => left (h)

theorem writeBlock (req : Req) (items : List Item) : Statement (.writeBlock req items) := of rfl fun h => left (h)

theorem create (req : Req) (items : List Item) : Statement (.create req items) := of rfl fun h => left (h)

theorem destroy (req : Req) (items : List Item) : Statement (.destroy req items) := of rfl fun h => left (h)

theorem txOpen (req : Req) : Statement (.txOpen req) := of rfl fun h => h

theorem txCommit (req : Req) (ft : Nat) : Statement (.txCommit req ft) := of rfl fun h => left (h)

theorem txCommitFire : Statement .txCommitFire := fun _ _ e => nomatch e

theorem txAbort (req : Req) : Statement (.txAbort req) := of rfl fun h => h

theorem txStatus (req : Req) : Statement (.txStatus req) := of rfl fun h => h

theorem txInactivityTimeout (id : Nat) : Statement (.txInactivityTimeout id) := fun _ _ e => nomatch e

theorem sessionOpen (req : Req) (data : List Byte) : Statement (.sessionOpen req data) := of rfl fun h => left (h)

theorem sessionClose (req : Req) : Statement (.sessionClose req) := of rfl fun h => h

theorem subscribe (req : Req) (items : List Item) : Statement (.subscribe req items) := of rfl fun h => left (h)

theorem pduReceive (via : Transport) (src : Nat) (bytes : List Byte) : Statement (.pduReceive via src bytes) := fun _ _ e => nomatch e

theorem mctpMessage (eid : Nat) (bytes : List Byte) : Statement (.mctpMessage eid bytes) := fun _ _ e => nomatch e

theorem udpDatagram (src : Nat) (bytes : List Byte) : Statement (.udpDatagram src bytes) := fun _ _ e => nomatch e

theorem mailboxDoorbell (ring : Ring) (window : List Byte) : Statement (.mailboxDoorbell ring window) := fun _ _ e => nomatch e

theorem mailboxResponseDone : Statement .mailboxResponseDone := fun _ _ e => nomatch e

theorem quarantineEnd (t : Nat) (i : Nat) : Statement (.quarantineEnd t i) := fun _ _ e => nomatch e

theorem creationQuietEnd : Statement .creationQuietEnd := fun _ _ e => nomatch e

theorem ftTick : Statement .ftTick := fun _ _ e => nomatch e

theorem timeMark (p : Nat) (rx : MrRx) (value : Nat) : Statement (.timeMark p rx value) := fun _ _ e => nomatch e

theorem missedTimeMarks (p : Nat) : Statement (.missedTimeMarks p) := fun _ _ e => nomatch e

theorem holdoverExpire : Statement .holdoverExpire := fun _ _ e => nomatch e

theorem ftLocalSet (req : Req) (v : Nat) : Statement (.ftLocalSet req v) := of rfl fun h => left (h)

theorem ftLaunchAt (req : Req) (v : Nat) : Statement (.ftLaunchAt req v) := of rfl fun h => left (h)

theorem ftLaunchCancel (req : Req) (v : Nat) : Statement (.ftLaunchCancel req v) := of rfl fun h => left (h)

theorem launchFire : Statement .launchFire := fun _ _ e => nomatch e

theorem arm (p : Nat) (rx : MrRx) (seq : Nat) (target : Nat) : Statement (.arm p rx seq target) := fun _ _ e => nomatch e

theorem confirm (p : Nat) (rx : MrRx) (seq : Nat) : Statement (.confirm p rx seq) := fun _ _ e => nomatch e

theorem abort (p : Nat) (rx : MrRx) (seq : Nat) : Statement (.abort p rx seq) := fun _ _ e => nomatch e

theorem confirmDeadline (seq : Nat) : Statement (.confirmDeadline seq) := fun _ _ e => nomatch e

theorem abortedSequenceExpire (seq : Nat) : Statement (.abortedSequenceExpire seq) := fun _ _ e => nomatch e

theorem missedNoticeRepeat (p : Nat) : Statement (.missedNoticeRepeat p) := fun _ _ e => nomatch e

theorem missedNoticeSleepAgain (p : Nat) : Statement (.missedNoticeSleepAgain p) := fun _ _ e => nomatch e

theorem millraceRoleWrite (req : Req) (p : Nat) (v : Nat) : Statement (.millraceRoleWrite req p v) := of rfl fun h => left (left (h))

theorem detectProbe (p : Nat) (found : Bool) : Statement (.detectProbe p found) := fun _ _ e => nomatch e

theorem trainPhaseAligned (p : Nat) : Statement (.trainPhaseAligned p) := fun _ _ e => nomatch e

theorem symbolLockAchieved (p : Nat) : Statement (.symbolLockAchieved p) := fun _ _ e => nomatch e

theorem bringupTimeout (p : Nat) : Statement (.bringupTimeout p) := fun _ _ e => nomatch e

theorem capability (p : Nat) (rx : MrRx) (payload : List Byte) : Statement (.capability p rx payload) := fun _ _ e => nomatch e

theorem roleMismatchRetry (p : Nat) : Statement (.roleMismatchRetry p) := fun _ _ e => nomatch e

theorem delayProbe (p : Nat) (rx : MrRx) (n : Nat) (turn : Nat) : Statement (.delayProbe p rx n turn) := fun _ _ e => nomatch e

theorem delayEcho (p : Nat) (rx : MrRx) (n : Nat) (turn : Nat) (edge : Nat) : Statement (.delayEcho p rx n turn edge) := fun _ _ e => nomatch e

theorem codeError (p : Nat) : Statement (.codeError p) := fun _ _ e => nomatch e

theorem millraceLockLoss (p : Nat) (stuck0 : Bool) (stuck1 : Bool) : Statement (.millraceLockLoss p stuck0 stuck1) := fun _ _ e => nomatch e

theorem clockLost (p : Nat) : Statement (.clockLost p) := fun _ _ e => nomatch e

theorem millraceLoopbackWrite (req : Req) (p : Nat) (v : Nat) : Statement (.millraceLoopbackWrite req p v) := of rfl fun h => left (left (h))

theorem millracePrbsWrite (req : Req) (p : Nat) (v : Nat) : Statement (.millracePrbsWrite req p v) := of rfl fun h => left (left (h))

theorem txSleep (req : Req) (p : Nat) (v : Nat) : Statement (.txSleep req p v) := of rfl fun h => left (left (h))

theorem sleep (p : Nat) (rx : MrRx) : Statement (.sleep p rx) := fun _ _ e => nomatch e

theorem txWakeTimeout (p : Nat) : Statement (.txWakeTimeout p) := fun _ _ e => nomatch e

theorem receiveWake (p : Nat) : Statement (.receiveWake p) := fun _ _ e => nomatch e

theorem sendWake (req : Req) (p : Nat) (v : Nat) : Statement (.sendWake req p v) := of rfl fun h => left (left (h))

theorem wake (p : Nat) : Statement (.wake p) := fun _ _ e => nomatch e

theorem barrierRelease (p : Nat) (rx : MrRx) (h : Nat) : Statement (.barrierRelease p rx h) := fun _ _ e => nomatch e

theorem lockStepDigest (p : Nat) (rx : MrRx) (payload : List Byte) : Statement (.lockStepDigest p rx payload) := fun _ _ e => nomatch e

theorem digestMissing : Statement .digestMissing := fun _ _ e => nomatch e

theorem laneLost (l : Nat) : Statement (.laneLost l) := fun _ _ e => nomatch e

theorem laneGood (l : Nat) (snr : Nat) : Statement (.laneGood l snr) := fun _ _ e => nomatch e

theorem referenceLost (die : Nat) : Statement (.referenceLost die) := fun _ _ e => nomatch e

theorem portWidth (req : Req) (n : Nat) (v : Nat) : Statement (.portWidth req n v) := of rfl fun h => left (left (h))

theorem portMode (req : Req) (n : Nat) (v : Nat) : Statement (.portMode req n v) := of rfl fun h => left (left (h))

theorem portFec (req : Req) (n : Nat) (v : Nat) : Statement (.portFec req n v) := of rfl fun h => left (left (h))

theorem portRole (req : Req) (n : Nat) (v : Nat) : Statement (.portRole req n v) := of rfl fun h => left (left (h))

theorem portAn (req : Req) (n : Nat) (v : Nat) : Statement (.portAn req n v) := of rfl fun h => left (left (h))

theorem portControlRole (req : Req) (n : Nat) (partition : Bool) (v : Nat) : Statement (.portControlRole req n partition v) := of rfl fun h => left (left (h))

theorem trainingDone (n : Nat) (map : Nat) : Statement (.trainingDone n map) := fun _ _ e => nomatch e

theorem trainingTimeout (n : Nat) (fecMismatch : Bool) : Statement (.trainingTimeout n fecMismatch) := fun _ _ e => nomatch e

theorem partialTrainingDegrade (n : Nat) : Statement (.partialTrainingDegrade n) := fun _ _ e => nomatch e

theorem fecDegraded (n : Nat) (window : LaneWindow) : Statement (.fecDegraded n window) := fun _ _ e => nomatch e

theorem rillFrameReceive (n : Nat) (bytes : List Byte) (crc : Nat) (words : List (Nat × List Nat)) (left : Bool) (idle : Nat) (startFt : Nat) : Statement (.rillFrameReceive n bytes crc words left idle startFt) := fun _ _ e => nomatch e

theorem laneStatusMarker (n : Nat) : Statement (.laneStatusMarker n) := fun _ _ e => nomatch e

theorem laneStatusBlock (n : Nat) (bytes : List Byte) : Statement (.laneStatusBlock n bytes) := fun _ _ e => nomatch e

theorem ethernetFrameReceive (n : Nat) (bytes : List Byte) (fcs : Nat) (left : Bool) (words : List (Nat × List Nat)) (used : Nat) (startFt : Nat) : Statement (.ethernetFrameReceive n bytes fcs left words used startFt) := fun _ _ e => nomatch e

theorem macAgeing : Statement .macAgeing := fun _ _ e => nomatch e

theorem restoreHoldExpire (n : Nat) : Statement (.restoreHoldExpire n) := fun _ _ e => nomatch e

theorem portRestore (req : Req) (n : Nat) (v : Nat) : Statement (.portRestore req n v) := of rfl fun h => left (left (h))

theorem portLoopback (req : Req) (n : Nat) (v : Nat) : Statement (.portLoopback req n v) := of rfl fun h => left (left (h))

theorem portPrbs (req : Req) (n : Nat) (v : Nat) : Statement (.portPrbs req n v) := of rfl fun h => left (left (h))

theorem rillPacketArrival (n : Nat) (bytes : List Byte) (used : Nat) (startFt : Nat) : Statement (.rillPacketArrival n bytes used startFt) := fun _ _ e => nomatch e

theorem eddyReentry (id : Nat) : Statement (.eddyReentry id) := fun _ _ e => nomatch e

theorem arrivalFaultWindow : Statement .arrivalFaultWindow := fun _ _ e => nomatch e

theorem bundleAdapt (b : Nat) : Statement (.bundleAdapt b) := fun _ _ e => nomatch e

theorem cellTimeMatch : Statement .cellTimeMatch := fun _ _ e => nomatch e

theorem schedulerDecision (n : Nat) : Statement (.schedulerDecision n) := fun _ _ e => nomatch e

theorem packetTransmitted (n : Nat) : Statement (.packetTransmitted n) := fun _ _ e => nomatch e

theorem queueAvgDecay (n : Nat) (q : Nat) : Statement (.queueAvgDecay n q) := fun _ _ e => nomatch e

theorem planeEnable (req : Req) (v : Nat) : Statement (.planeEnable req v) := of rfl fun h => left (h)

theorem planeSelfCheckFail (p : Nat) : Statement (.planeSelfCheckFail p) := fun _ _ e => nomatch e

theorem rsvRedSeed (req : Req) (v : Nat) : Statement (.rsvRedSeed req v) := of rfl fun h => left (h)

theorem rsvWindowRegion (req : Req) (v : Nat) : Statement (.rsvWindowRegion req v) := of rfl fun h => left (h)

theorem reservoirUncorrectable (what : RsvError) (i : Nat) (k : Nat) : Statement (.reservoirUncorrectable what i k) := fun _ _ e => nomatch e

theorem queueSample : Statement .queueSample := fun _ _ e => nomatch e

theorem gateStart (req : Req) (h : Nat) (ft : Nat) : Statement (.gateStart req h ft) := of rfl fun h => left (left (h))

theorem gateStartFire : Statement .gateStartFire := fun _ _ e => nomatch e

theorem gateBoundary (n : Nat) : Statement (.gateBoundary n) := fun _ _ e => nomatch e

theorem gateStop (req : Req) (h : Nat) (v : Nat) : Statement (.gateStop req h v) := of rfl fun h => left (left (h))

theorem gateSwitchAt (req : Req) (h : Nat) (ft : Nat) : Statement (.gateSwitchAt req h ft) := of rfl fun h => left (left (h))

theorem gateSwitchLand : Statement .gateSwitchLand := fun _ _ e => nomatch e

theorem collectiveArm (req : Req) (h : Nat) (v : Nat) : Statement (.collectiveArm req h v) := of rfl fun h => left (left (h))

theorem collectiveDisarm (req : Req) (h : Nat) (v : Nat) : Statement (.collectiveDisarm req h v) := of rfl fun h => left (left (h))

theorem segmentReductionDone (i : Nat) (seg : Nat) : Statement (.segmentReductionDone i seg) := fun _ _ e => nomatch e

theorem epilogueResult (i : Nat) (seg : Nat) : Statement (.epilogueResult i seg) := fun _ _ e => nomatch e

theorem epiloguePlaceFree (e : Nat) : Statement (.epiloguePlaceFree e) := fun _ _ e => nomatch e

theorem laggardTimeout (i : Nat) (seg : Nat) : Statement (.laggardTimeout i seg) := fun _ _ e => nomatch e

theorem millJobStart (id : Nat) (mills : List Nat) : Statement (.millJobStart id mills) := fun _ _ e => nomatch e

theorem millJobComplete (id : Nat) (shares : List Share) (cycles : Nat) : Statement (.millJobComplete id shares cycles) := fun _ _ e => nomatch e

theorem millJobTimeout (id : Nat) : Statement (.millJobTimeout id) := fun _ _ e => nomatch e

theorem millFailure (x : Nat) (what : MillError) : Statement (.millFailure x what) := fun _ _ e => nomatch e

theorem memoryAccessComplete (id : Nat) (chk : EccCheck) : Statement (.memoryAccessComplete id chk) := fun _ _ e => nomatch e

theorem windowOpen (req : Req) (h : Nat) (v : Nat) : Statement (.windowOpen req h v) := of rfl fun h => left (left (h))

theorem windowClosingEnd (i : Nat) : Statement (.windowClosingEnd i) := fun _ _ e => nomatch e

theorem t2FillReturn (id : Nat) (line : Nat) (poisoned : Bool) : Statement (.t2FillReturn id line poisoned) := fun _ _ e => nomatch e

theorem cxlInvalidate (req : Req) (c : Nat) (v : Nat) : Statement (.cxlInvalidate req c v) := of rfl fun h => left (left (h))

theorem cxlTimeout (id : Nat) : Statement (.cxlTimeout id) := fun _ _ e => nomatch e

theorem cxlPortLost (c : Nat) : Statement (.cxlPortLost c) := fun _ _ e => nomatch e

theorem cxlDeviceAppear (c : Nat) (width : Nat) (size : Nat) (ident : Nat) (slow : Bool) : Statement (.cxlDeviceAppear c width size ident slow) := fun _ _ e => nomatch e

theorem cxlResume (req : Req) (c : Nat) (v : Nat) : Statement (.cxlResume req c v) := of rfl fun h => left (left (h))

theorem cxlEnable (req : Req) (c : Nat) (v : Nat) : Statement (.cxlEnable req c v) := of rfl fun h => left (left (h))

theorem hbmStackFail (h : Nat) : Statement (.hbmStackFail h) := fun _ _ e => nomatch e

theorem poolEnable (req : Req) (h : Nat) (v : Nat) : Statement (.poolEnable req h v) := of rfl fun h => left (left (h))

theorem poolFillDone (i : Nat) : Statement (.poolFillDone i) := fun _ _ e => nomatch e

theorem poolAlloc (req : Req) (h : Nat) : Statement (.poolAlloc req h) := of rfl fun h => left (h)

theorem poolFree (req : Req) (h : Nat) (v : Nat) : Statement (.poolFree req h v) := of rfl fun h => left (left (h))

theorem poolShare (req : Req) (h : Nat) (v : Nat) : Statement (.poolShare req h v) := of rfl fun h => left (left (h))

theorem poolRefillDone (i : Nat) : Statement (.poolRefillDone i) := fun _ _ e => nomatch e

theorem sequenceActivate (req : Req) (h : Nat) (v : Nat) : Statement (.sequenceActivate req h v) := of rfl fun h => left (left (h))

theorem prefixCopyDone (i : Nat) : Statement (.prefixCopyDone i) := fun _ _ e => nomatch e

theorem sequenceReserve (req : Req) (h : Nat) (v : Nat) : Statement (.sequenceReserve req h v) := of rfl fun h => left (left (h))

theorem sequenceLength (req : Req) (h : Nat) (v : Nat) : Statement (.sequenceLength req h v) := of rfl fun h => left (left (h))

theorem weirClockMode (req : Req) (v : Nat) : Statement (.weirClockMode req v) := of rfl fun h => left (h)

theorem weirStart (req : Req) (ft : Nat) : Statement (.weirStart req ft) := of rfl fun h => left (h)

theorem weirStartOnLaunch (req : Req) (v : Nat) : Statement (.weirStartOnLaunch req v) := of rfl fun h => left (h)

theorem weirStartFire : Statement .weirStartFire := fun _ _ e => nomatch e

theorem weirCycleBoundary : Statement .weirCycleBoundary := fun _ _ e => nomatch e

theorem weirStop (req : Req) (v : Nat) : Statement (.weirStop req v) := of rfl fun h => left (h)

theorem weirEngines (req : Req) (v : Nat) : Statement (.weirEngines req v) := of rfl fun h => left (h)

theorem weirMills (req : Req) (v : Nat) : Statement (.weirMills req v) := of rfl fun h => left (h)

theorem lockstepStart (req : Req) (ft : Nat) : Statement (.lockstepStart req ft) := of rfl fun h => left (h)

theorem lockstepStartOnLaunch (req : Req) (v : Nat) : Statement (.lockstepStartOnLaunch req v) := of rfl fun h => left (h)

theorem lockstepWindowClose : Statement .lockstepWindowClose := fun _ _ e => nomatch e

theorem lockstepStop (req : Req) (v : Nat) : Statement (.lockstepStop req v) := of rfl fun h => left (h)

theorem snapAt (req : Req) (ft : Nat) : Statement (.snapAt req ft) := of rfl fun h => left (h)

theorem snapshotFire : Statement .snapshotFire := fun _ _ e => nomatch e

theorem snapshotShadowReady : Statement .snapshotShadowReady := fun _ _ e => nomatch e

theorem attrReset (req : Req) (v : Nat) : Statement (.attrReset req v) := of rfl fun h => left (h)

theorem traceOpenAt (req : Req) (h : Nat) (ft : Nat) : Statement (.traceOpenAt req h ft) := of rfl fun h => left (left (h))

theorem traceOpenFire : Statement .traceOpenFire := fun _ _ e => nomatch e

theorem traceCloseAt (req : Req) (h : Nat) (ft : Nat) : Statement (.traceCloseAt req h ft) := of rfl fun h => left (left (h))

theorem traceCloseFire : Statement .traceCloseFire := fun _ _ e => nomatch e

theorem traceNext (req : Req) (h : Nat) : Statement (.traceNext req h) := of rfl fun h => left (h)

theorem springStart (req : Req) (h : Nat) (ft : Nat) : Statement (.springStart req h ft) := of rfl fun h => left (left (h))

theorem springStartOnLaunch (req : Req) (h : Nat) (v : Nat) : Statement (.springStartOnLaunch req h v) := of rfl fun h => left (left (h))

theorem springStartFire : Statement .springStartFire := fun _ _ e => nomatch e

theorem springPacketCreate : Statement .springPacketCreate := fun _ _ e => nomatch e

theorem springStop (req : Req) (h : Nat) (v : Nat) : Statement (.springStop req h v) := of rfl fun h => left (left (h))

theorem gaugeEnable (req : Req) (h : Nat) (v : Nat) : Statement (.gaugeEnable req h v) := of rfl fun h => left (left (h))

theorem curatorSafetyMismatch : Statement .curatorSafetyMismatch := fun _ _ e => nomatch e

theorem curatorWatchdogRestart : Statement .curatorWatchdogRestart := fun _ _ e => nomatch e

theorem curatorReady : Statement .curatorReady := fun _ _ e => nomatch e

theorem fwVerify (req : Req) (v : Nat) : Statement (.fwVerify req v) := of rfl fun h => left (h)

theorem fwActivate (req : Req) (ft : Nat) : Statement (.fwActivate req ft) := of rfl fun h => left (h)

theorem fwActivateFire : Statement .fwActivateFire := fun _ _ e => nomatch e

theorem fwFallback : Statement .fwFallback := fun _ _ e => nomatch e

theorem fwCommit (req : Req) (v : Nat) : Statement (.fwCommit req v) := of rfl fun h => left (h)

theorem lcAdvance (req : Req) (v : Nat) : Statement (.lcAdvance req v) := of rfl fun h => left (h)

theorem spdmRequest (eid : Nat) (bytes : List Byte) : Statement (.spdmRequest eid bytes) := fun _ _ e => nomatch e

theorem setEndpointId (eid : Nat) : Statement (.setEndpointId eid) := fun _ _ e => nomatch e

theorem sidebandStuck : Statement .sidebandStuck := fun _ _ e => nomatch e

theorem sidebandRecoveryRound (low : Bool) : Statement (.sidebandRecoveryRound low) := fun _ _ e => nomatch e

theorem sidebandFailed (sclAlone : Bool) : Statement (.sidebandFailed sclAlone) := fun _ _ e => nomatch e

theorem mctpRestart (req : Req) (v : Nat) : Statement (.mctpRestart req v) := of rfl fun h => left (h)

theorem mgmtFrameReceive (bytes : List Byte) : Statement (.mgmtFrameReceive bytes) := fun _ _ e => nomatch e

theorem apertureAccess (write : Bool) (off : Nat) (len : Nat) (data : List Byte) : Statement (.apertureAccess write off len data) := fun _ _ e => nomatch e

theorem ringTail (r : Nat) (post : Post) (entries : List (List Byte)) : Statement (.ringTail r post entries) := fun _ _ e => nomatch e

theorem hringEnable (req : Req) (r : Nat) (v : Nat) : Statement (.hringEnable req r v) := of rfl fun h => left (left (h))

theorem ringRecordDeliver (r : Nat) : Statement (.ringRecordDeliver r) := fun _ _ e => nomatch e

theorem ringIrqHoldoff (r : Nat) : Statement (.ringIrqHoldoff r) := fun _ _ e => nomatch e

theorem txDescriptor (data : List Byte) : Statement (.txDescriptor data) := fun _ _ e => nomatch e

theorem faultSetting (srcs : List Nat) : Statement (.faultSetting srcs) := fun _ _ e => nomatch e

theorem chipResetReaction : Statement .chipResetReaction := fun _ _ e => nomatch e

theorem faultNExternal (low : Bool) : Statement (.faultNExternal low) := fun _ _ e => nomatch e

theorem faultNStuck : Statement .faultNStuck := fun _ _ e => nomatch e

theorem faultPinRearm (req : Req) (v : Nat) : Statement (.faultPinRearm req v) := of rfl fun h => left (h)

theorem faultInject (req : Req) (v : Nat) : Statement (.faultInject req v) := of rfl fun h => left (h)

theorem pwrTarget (req : Req) (v : Nat) : Statement (.pwrTarget req v) := of rfl fun h => left (h)

theorem pwrEnterAt (req : Req) (ft : Nat) (target : Nat) : Statement (.pwrEnterAt req ft target) := of rfl fun h => left (left (h))

theorem pwrEnterFire : Statement .pwrEnterFire := fun _ _ e => nomatch e

theorem pwrDomRequest (req : Req) (k : Nat) (v : Nat) : Statement (.pwrDomRequest req k v) := of rfl fun h => left (left (h))

theorem drainDone : Statement .drainDone := fun _ _ e => nomatch e

theorem drainLimit : Statement .drainLimit := fun _ _ e => nomatch e

theorem wakeEvent (src : Nat) : Statement (.wakeEvent src) := fun _ _ e => nomatch e

theorem laneSignalWake (l : Nat) : Statement (.laneSignalWake l) := fun _ _ e => nomatch e

theorem domainAdmit : Statement .domainAdmit := fun _ _ e => nomatch e

theorem rampWindowEnd (k : Nat) (good : Bool) : Statement (.rampWindowEnd k good) := fun _ _ e => nomatch e

theorem domainUsable (k : Nat) : Statement (.domainUsable k) := fun _ _ e => nomatch e

theorem pwrDomRetry (req : Req) (k : Nat) (v : Nat) : Statement (.pwrDomRetry req k v) := of rfl fun h => left (left (h))

theorem pwrWarnAssert : Statement .pwrWarnAssert := fun _ _ e => nomatch e

theorem pwrWarnDeassert : Statement .pwrWarnDeassert := fun _ _ e => nomatch e

theorem holdWindowExpire : Statement .holdWindowExpire := fun _ _ e => nomatch e

theorem stShutdown (req : Req) (ft : Nat) : Statement (.stShutdown req ft) := of rfl fun h => left (h)

theorem shutdownTest (ok : Bool) (rail : Nat) : Statement (.shutdownTest ok rail) := fun _ _ e => nomatch e

theorem laneRuntimeRepair (join : Nat) (m : Nat) : Statement (.laneRuntimeRepair join m) := fun _ _ e => nomatch e

theorem recableOpenAt (req : Req) (ft : Nat) : Statement (.recableOpenAt req ft) := of rfl fun h => left (h)

theorem recableOpenFire : Statement .recableOpenFire := fun _ _ e => nomatch e

theorem recableClose (req : Req) (v : Nat) : Statement (.recableClose req v) := of rfl fun h => left (h)

theorem recableLimit : Statement .recableLimit := fun _ _ e => nomatch e

theorem rackResetAt (req : Req) (ft : Nat) : Statement (.rackResetAt req ft) := of rfl fun h => left (h)

theorem rackResetFire : Statement .rackResetFire := fun _ _ e => nomatch e

theorem powerOn : Statement .powerOn := fun _ _ e => nomatch e

theorem chipReset : Statement .chipReset := fun _ _ e => nomatch e

theorem bootStageEnd (fails : List BootUnit) : Statement (.bootStageEnd fails) := fun _ _ e => nomatch e

theorem stageLimitOverrun (unfinished : List BootUnit) : Statement (.stageLimitOverrun unfinished) := fun _ _ e => nomatch e

theorem vinIvrLow : Statement .vinIvrLow := fun _ _ e => nomatch e

theorem vddAonLow : Statement .vddAonLow := fun _ _ e => nomatch e

theorem thermalSample (temps : List Int) (supplies : List Nat) : Statement (.thermalSample temps supplies) := fun _ _ e => nomatch e

theorem throttleStepDown : Statement .throttleStepDown := fun _ _ e => nomatch e

theorem throttleStepUp : Statement .throttleStepUp := fun _ _ e => nomatch e

theorem bubbleEnd (p : Nat) (pairs : Nat) : Statement (.bubbleEnd p pairs) := fun _ _ e => nomatch e

theorem missedNotice (p : Nat) (rx : MrRx) (payload : List Byte) : Statement (.missedNotice p rx payload) := fun _ _ e => nomatch e

theorem barrierArrive (p : Nat) (rx : MrRx) (h : Nat) : Statement (.barrierArrive p rx h) := fun _ _ e => nomatch e

theorem transmitWakeDone (p : Nat) : Statement (.transmitWakeDone p) := fun _ _ e => nomatch e

theorem coreClockLocked : Statement .coreClockLocked := fun _ _ e => nomatch e

theorem sessionLockoutEnd : Statement .sessionLockoutEnd := fun _ _ e => nomatch e

theorem blockResetDone (u : Nat) : Statement (.blockResetDone u) := fun _ _ e => nomatch e

theorem vddSdWaitTimeout : Statement .vddSdWaitTimeout := fun _ _ e => nomatch e

theorem vinIvrRecovered : Statement .vinIvrRecovered := fun _ _ e => nomatch e

theorem selftestRailOutOfWindow (rail : Nat) : Statement (.selftestRailOutOfWindow rail) := fun _ _ e => nomatch e

end Sys2Proof.Laws.Header
end

