-- ==== Sys2Proof/Laws/Request.lean ====
section
/-!
SUPPORT. What the Catalogue service answers: one item of a request, and a WRITE of one entry, from the checks of R55 on.
-/

namespace Sys2Proof.Machine

@[simp] theorem whoOf_inTx {s : State} {r : Req} {w : Who} (h : whoOf s r = some w) : w.inTx = false := by
  unfold whoOf at h
  split at h
  · dsimp only at h
    split at h
    · cases h; rfl
    · cases h
  · split at h
    · cases h; rfl
    · rw [Option.map_eq_some_iff] at h
      obtain ⟨x, -, rfl⟩ := h
      rfl

/-- A request that is served, names no transaction and is no request about sessions or transactions runs its items. -/
theorem serve_items {s : State} {r : Req} {w : Who} {c : Carry} {op : Nat} {items : List Item} (v : Serves s r w)
    (hop : op = 1 ∨ op = 2 ∨ op = 3 ∨ op = 4 ∨ op = 0x10 ∨ op = 0x11 ∨ (op = 0x41 ∧ w.owner < 2 ^ 32)) :
    serve s c r op items = settleItems c r op (runItems w r op items [] s) := by
  obtain ⟨h1, h2, h3, h4, h5, h6, h7⟩ := v
  have hs : ¬ (r.via = .udp ∧ r.session = 0 ∧ op ≠ 0x30) := by
    rintro ⟨e, z, -⟩
    rw [whoOf, e] at h5
    simp only [z, if_true, Option.some.injEq] at h5
    exact h6 (by rw [← h5])
  have hr : readyFor s r op items = true := by
    unfold readyFor
    simp [h2, h3, h4]
  have hn : op ≠ 0x20 ∧ op ≠ 0x31 ∧ op ≠ 0x21 ∧ op ≠ 0x22 ∧ op ≠ 0x23 ∧ op ≠ 0x30 := by omega
  obtain ⟨n1, n2, n3, n4, n5, n6⟩ := hn
  have hc : ¬ (decide (2 ^ 32 ≤ w.owner) = true ∧ (op = 0x30 ∨ op = 0x31 ∨ op = 0x41)) := by
    rw [decide_eq_true_iff]
    omega
  unfold serve
  rw [if_neg (by simp [h1]), if_neg hs, if_neg (by simp [hr])]
  simp only [h5]
  rw [if_neg hc, if_neg (by simp [n6]), if_neg (by simp [h6]), if_pos h7]
  simp only [h7, ne_eq, not_true_eq_false, if_false]
  unfold serveFor
  rw [if_neg h6, if_neg n1, if_neg n2, if_neg (by simp [n3, n4, n5])]

/-- An answer without data always has room in the response. -/
@[simp] theorem overflows_nil (r : Req) (op : Nat) (acc : List RItem) (rest : Nat) : overflows r op acc [] rest = false := by
  simp [overflows]

/-- An item whose answer has room is served as it stands. -/
theorem serveBounded_fits {s u : State} {w : Who} {r : Req} {op : Nat} {it : Item} {acc : List RItem} {rest st h : Nat} {d : List Byte}
    (hs : serveItem s w r op it = (st, d, h, u)) (hf : overflows r op acc d rest = false) :
    serveBounded s w r op it acc rest = (st, d, h, u) := by
  unfold serveBounded
  rw [hs]
  simp [hf]

/-- A request of a command without a transport of its own is answered by one response. -/
theorem settleItems_plain (s : State) (r : Req) (op : Nat) (done : List RItem) :
    settleItems .plain r op ([], done, s) = s.emit (.response r (op + 0x80) 0 r.tx done) := by
  unfold settleItems respondAs
  rfl

/-- An item that the checks of R55 refuse makes no request to the buffer pool manager. -/
theorem reachesManager_refused {s : State} {w : Who} {it : Item} {st : Nat} (r : Req) (h : writeGate5 s w it = .error st) :
    reachesManager s w r 2 it = false := by
  simp [reachesManager, h]

/-- An item that is none of the manager's requests makes none. -/
theorem reachesManager_other {s : State} {w : Who} {r : Req} {op : Nat} {it : Item} (h : managed r op it = false) :
    reachesManager s w r op it = false := by
  simp [reachesManager, h]

/-- The entries of the requests to the buffer pool manager. -/
theorem entOf_manager : entOf 0x7300 0x0A = some E.pool_free ∧ entOf 0x7300 0x0B = some E.pool_share ∧
    entOf 0x7400 4 = some E.sequence_activate ∧ entOf 0x7400 5 = some E.sequence_reserve := by
  refine ⟨?_, ?_, ?_, ?_⟩ <;> decide +kernel

/-- An item that passes the first checks of R55 names an entry. -/
theorem gate_entOf {s : State} {w : Who} {it : Item} {e : Ent} {n k i : Nat} (h : writeGate5 s w it = .ok (e, n, k, i)) :
    entOf it.index it.sub = some e := by
  unfold writeGate5 at h
  dsimp only at h
  revert h
  cases entOf it.index it.sub with
  | none => intro h; simp only [] at h; split_ifs at h
  | some x =>
    intro h; simp only [] at h
    split_ifs at h
    all_goals first | (cases h; done) | (simp only [Except.ok.injEq, Prod.mk.injEq] at h; rw [h.1])

/-- Only writes of `pool.free`, `pool.share`, `sequence.activate` and `sequence.reserve` make requests to the manager. -/
theorem managed_entry {s : State} {r : Req} {w : Who} {e : Ent} {n k h v : Nat} (a : Accepts s r w e n k h v)
    (he : e ≠ E.pool_free ∧ e ≠ E.pool_share ∧ e ≠ E.sequence_activate ∧ e ≠ E.sequence_reserve) :
    managed r 2 (writeIt e n k h v) = false := by
  have g := gate_entOf a.gate
  obtain ⟨m1, m2, m3, m4⟩ := entOf_manager
  by_contra hc
  rw [Bool.not_eq_false] at hc
  have hx : ((writeIt e n k h v).index = 0x7300 ∧ ((writeIt e n k h v).sub = 0x0A ∨ (writeIt e n k h v).sub = 0x0B)) ∨
      ((writeIt e n k h v).index = 0x7400 ∧ ((writeIt e n k h v).sub = 4 ∨ (writeIt e n k h v).sub = 5)) := by
    simpa [managed] using (by simpa [managed] using hc : _ ∧ _).2
  obtain ⟨h1, h2 | h2⟩ | ⟨h1, h2 | h2⟩ := hx <;> rw [h1, h2] at g
  · exact he.1 (by rw [m1] at g; exact (Option.some.inj g).symm)
  · exact he.2.1 (by rw [m2] at g; exact (Option.some.inj g).symm)
  · exact he.2.2.1 (by rw [m3] at g; exact (Option.some.inj g).symm)
  · exact he.2.2.2 (by rw [m4] at g; exact (Option.some.inj g).symm)

/-- Items that go on are served one by one: the first answered 0 without waiting. -/
theorem runItems_one {s u : State} {w : Who} {r : Req} {op st h : Nat} {it : Item} {d : List Byte}
    (hm : reachesManager s w r op it = false) (hb : serveBounded s w r op it [] 0 = (st, d, h, u)) (hst : st ≠ waitCode) :
    runItems w r op [it] [] s = ([], [⟨it.index, it.sub, st, h, d⟩], u) := by
  have ho : oneItem w r op it [] [] s =
      if st ≠ 0 ∧ stopsAt r op = true then .error ([], [⟨it.index, it.sub, st, h, d⟩], u)
      else .ok ([⟨it.index, it.sub, st, h, d⟩], u) := by
    unfold oneItem
    rw [List.length_nil, hb]
    dsimp only
    rw [if_neg hst]
    rfl
  rw [runItems, hm, if_neg (by decide), ho]
  by_cases hc : st ≠ 0 ∧ stopsAt r op = true
  · simp only [if_pos hc]
  · simp only [if_neg hc, runItems]

/-- A WRITE whose item is accepted does what its entry's rule says, and answers 0. -/
theorem writeCmd_accepted {s u : State} {r : Req} {w : Who} {e : Ent} {n k h v : Nat} (a : Accepts s r w e n k h v)
    (ht : e.ty ≠ .domain) (hm : managed r 2 (writeIt e n k h v) = false) (hw : writeValue s w e n k (hIdx h) v = (0, keepTouched s u)) :
    writeCmd s r e n k h v = accepted s u r (writeIt e n k h v) := by
  have hin := whoOf_inTx a.serves.who
  have hv : ofLe (writeIt e n k h v).data = v := by
    simp only [writeIt]
    exact ofLe_leBytes_of_lt a.fits
  have hl : (writeIt e n k h v).data.length = e.len := by
    simp only [writeIt, leBytes_length]
  have hi : writeItem s w (writeIt e n k h v) = (0, keepTouched s u) := by
    unfold writeItem
    rw [a.gate]
    simp only []
    rw [if_neg (by simp [ht, hl]), hv, if_neg (by simp [a.range]), if_neg (by simp [hin])]
    simp only [a.free]
    exact hw
  have hs : serveItem s w r 2 (writeIt e n k h v) =
      (0, [], h, (keepTouched s u).dirtyEntry 0 (writeIt e n k h v)) := by
    unfold serveItem
    rw [if_neg (by simp [a.serves.named]), if_neg (by decide), if_neg (by decide), if_neg (by decide), if_neg (by decide),
      if_pos a.serves.noTx]
    simp only []
    rw [if_pos trivial, hi]
    rfl
  rw [writeCmd, serve_items a.serves (by simp),
    runItems_one (reachesManager_other hm) (serveBounded_fits hs (by simp)) (by decide), settleItems_plain, a.serves.noTx]
  rfl

/-- The last checks of a write pass what its entry's rule answers where no field is locked and no transition is met. -/
@[simp] theorem lastChecks_free (s : State) (r : Nat × State) : lastChecks s r false false = r := by
  unfold lastChecks
  split <;> simp

/-- A value out of range is answered 0x06 before the state and the cycle are looked at (R55). -/
theorem lastChecks_range (s u : State) (l c : Bool) : lastChecks s (0x06, u) l c = (0x06, u) := by
  simp [lastChecks]

/-- A locked field is answered 0x0C and nothing changes, where its value is in range (R39, R55). -/
theorem lastChecks_locked {s : State} {r : Nat × State} (h : r.1 ≠ 0x06) (c : Bool) : lastChecks s r true c = (0x0C, s) := by
  simp [lastChecks, h]

/-- A write that passes the general rules of handle states, sticky bits, counters and locked fields does what its entry's rule
says. -/
theorem writeValue_hook {s : State} {w : Who} {e : Ent} {n k i v : Nat} {x : Nat × State}
    (hs : sameCycle s e i = false)
    (h1 : (e.acc == .w1c) = false) (h2 : (e.cls == .counter) = false)
    (h3 : locked s e n i = false)
    (hh : writeHook s w e n k i v = some x) : writeValue s w e n k i v = (x.1, keepTouched s x.2) := by
  unfold writeValue
  rw [hs, h3, lastChecks_free]
  unfold writeRule
  simp only [h1, h2, hh]
  simp [keepTouched]

/-- An accepted item reaches the rule of its entry. -/
theorem writeItem_accepts {s : State} {r : Req} {w : Who} {e : Ent} {n k h v : Nat} (a : Accepts s r w e n k h v) (ht : e.ty ≠ .domain) :
    writeItem s w (writeIt e n k h v) = writeValue s w e n k (hIdx h) v := by
  have hv : ofLe (writeIt e n k h v).data = v := ofLe_leBytes_of_lt a.fits
  have hl : (writeIt e n k h v).data.length = e.len := leBytes_length _ _
  unfold writeItem
  rw [a.gate]
  simp only []
  rw [if_neg (by simp [ht, hl]), hv, if_neg (by simp [a.range]), if_neg (by simp [whoOf_inTx a.serves.who])]
  simp only [a.free]

/-- A WRITE of one item outside a transaction: its status and its effect. -/
theorem serve_write {s u : State} {r : Req} {w : Who} {it : Item} {st : Nat} (v : Serves s r w) (hst : st ≠ waitCode)
    (hm : reachesManager s w r 2 it = false) (h : writeItem s w it = (st, u)) :
    serve s .plain r 2 [it] = (if st = 0 then u.dirtyEntry 0 it else u).emit (.response r 0x82 0 0 [⟨it.index, it.sub, st, it.handle, []⟩]) := by
  have hs : serveItem s w r 2 it = (st, [], it.handle, if st = 0 then u.dirtyEntry 0 it else u) := by
    unfold serveItem
    rw [if_neg (by simp [v.named]), if_neg (by decide), if_neg (by decide), if_neg (by decide), if_neg (by decide),
      if_pos v.noTx]
    simp only []
    rw [if_pos trivial, h]
  rw [serve_items v (by simp), runItems_one hm (serveBounded_fits hs (by simp)) hst, settleItems_plain, v.noTx]

/-- A WRITE whose item is refused leaves the state and answers the status. -/
theorem write_refused {s : State} {r : Req} {w : Who} {it : Item} {st : Nat} (v : Serves s r w) (h0 : st ≠ 0) (hst : st ≠ waitCode)
    (hm : reachesManager s w r 2 it = false) (h : writeItem s w it = (st, s)) : exec (.write r [it]) s = .next (after s (answered s r 0x82 it st)) := by
  show complete s (serve s .plain r 2 [it]) = _
  rw [serve_write v hst hm h, if_neg h0]
  rfl

/-- A READ of one item answers its status and data. -/
theorem read_answers {s u : State} {r : Req} {w : Who} {it : Item} {st : Nat} {d : List Byte} (v : Serves s r w) (hst : st ≠ waitCode)
    (hf : overflows r 1 [] d 0 = false) (hm : reachesManager s w r 1 it = false) (h : readItem s w it = (st, d, u)) : exec (.read r [it]) s = .next (after s (u.emit (.response r 0x81 0 0 [⟨it.index, it.sub, st, it.handle, d⟩]))) := by
  have hs : serveItem s w r 1 it = (st, d, it.handle, u) := by
    unfold serveItem
    rw [if_neg (by simp [v.named]), if_pos rfl, h]
  show complete s (serve s .plain r 1 [it]) = _
  rw [serve_items v (by simp), runItems_one hm (serveBounded_fits hs hf) hst, settleItems_plain, v.noTx]
  rfl

/-- TX_OPEN and SESSION_CLOSE reach their rule. -/
theorem serve_tx {s : State} {r : Req} {w : Who} {c : Carry} {op : Nat} (v : Serves s r w)
    (hop : op = 0x20 ∨ (op = 0x31 ∧ w.owner < 2 ^ 32)) : serve s c r op [] = serveFor s c r w none op [] := by
  obtain ⟨h1, h2, h3, h4, h5, h6, h7⟩ := v
  have hs : ¬ (r.via = .udp ∧ r.session = 0 ∧ op ≠ 0x30) := by
    rintro ⟨e, z, -⟩
    rw [whoOf, e] at h5
    simp only [z, if_true, Option.some.injEq] at h5
    exact h6 (by rw [← h5])
  unfold serve
  rw [if_neg (by simp [h1]), if_neg hs, if_neg (by simp [readyFor, h2, h3, h4])]
  simp only [h5]
  rw [if_neg (by rw [decide_eq_true_iff]; omega), if_neg (by omega), if_neg (by simp [h6]), if_pos h7]
  simp only [h7, ne_eq, not_true_eq_false, if_false]

/-- A request about a transaction reaches its rule, the transaction marked active. -/
theorem serve_inTx {s : State} {r : Req} {w : Who} {x : Tx} {c : Carry} {op : Nat} {items : List Item} (v : ServesTx s r w x)
    (hop : op = 0x21 ∨ op = 0x22 ∨ op = 0x23) :
    serve s c r op items = serveFor (s.modTxn x.id fun y => { y with active := s.ft }) c r w (some x) op items := by
  obtain ⟨h1, h2, h3, h4, h5, h6, h7, h8⟩ := v
  have hs : ¬ (r.via = .udp ∧ r.session = 0 ∧ op ≠ 0x30) := by
    rintro ⟨e, z, -⟩
    rw [whoOf, e] at h5
    simp only [z, if_true, Option.some.injEq] at h5
    exact h6 (by rw [← h5])
  unfold serve
  rw [if_neg (by simp [h1]), if_neg hs, if_neg (by simp [readyFor, h2, h3, h4])]
  simp only [h5]
  rw [if_neg (by omega), if_neg (by omega), if_neg (by simp [h6]), if_neg h7, h8]

/-- A WRITE within a transaction runs its items, the transaction marked active. -/
theorem serve_write_inTx {s : State} {r : Req} {w : Who} {x : Tx} {c : Carry} {items : List Item} (v : ServesTx s r w x) :
    serve s c r 2 items = settleItems c r 2 (runItems w r 2 items [] (s.modTxn x.id fun y => { y with active := s.ft })) := by
  obtain ⟨h1, h2, h3, h4, h5, h6, h7, h8⟩ := v
  have hs : ¬ (r.via = .udp ∧ r.session = 0 ∧ 2 ≠ 0x30) := by
    rintro ⟨e, z, -⟩
    rw [whoOf, e] at h5
    simp only [z, if_true, Option.some.injEq] at h5
    exact h6 (by rw [← h5])
  unfold serve
  rw [if_neg (by simp [h1]), if_neg hs, if_neg (by simp [readyFor, h2, h3, h4])]
  simp only [h5]
  rw [if_neg (by omega), if_neg (by omega), if_neg (by simp [h6]), if_neg h7, h8]
  show serveFor _ c r w (some x) 2 items = _
  unfold serveFor
  rw [if_neg h6, if_neg (by decide), if_neg (by decide), if_neg (by decide)]

end Sys2Proof.Machine
end

