-- ==== Sys2Proof/Laws/Settle.lean ====
section
/-!
SUPPORT. What the settling of a command leaves: no work; the state itself where there was none.
-/

namespace Sys2Proof.Machine

theorem settleN_todo (k : Nat) (s : State) : (settleN k s).todo = [] := by
  induction k generalizing s with
  | zero => rfl
  | succ k ih =>
    unfold settleN
    split
    · assumption
    · exact ih _

@[simp] theorem settle_todo (s : State) : (settle s).todo = [] := settleN_todo 64 s

/-- Where an effect leaves no work, settling changes nothing. -/
theorem settle_idle {s : State} (h : s.todo = []) : settle s = s := by
  unfold settle settleN
  rw [if_pos h]

@[simp] theorem after_todo (s u : State) : (after s u).todo = [] := settleN_todo 64 u
@[simp] theorem after_pending (s u : State) : (after s u).pending = s.pending := rfl

/-- An effect that leaves no work is the whole of what a command does. -/
theorem after_idle {s u : State} (h : u.todo = []) : after s u = { u with pending := s.pending } := by
  unfold after
  rw [settle_idle h]

/-- One step of a run. -/
theorem run_succ {M : Host.Core} {k : Nat} {s s' : M.State} (h : M.step s = .next s') : M.run (k + 1) s = M.run k s' := by
  rw [Host.Core.run, h]

end Sys2Proof.Machine
end

