-- ==== Sys2Proof/Laws/Sha.lean ====
section
/-!
SUPPORT. The lengths of hashes: SHA-256 and HMAC-SHA-256 answer 32 bytes.
-/

namespace Sys2Proof.Machine

theorem shaRound_length (f : ShaForm) (v : List Nat) (kw : Nat) : (shaRound f v kw).length = v.length := by
  unfold shaRound; split <;> rfl

theorem shaRounds_length (f : ShaForm) (l v : List Nat) : (l.foldl (shaRound f) v).length = v.length := by
  induction l generalizing v with
  | nil => rfl
  | cons x l ih => rw [List.foldl_cons, ih, shaRound_length]

theorem shaBlock_length (f : ShaForm) (k h w : List Nat) : (shaBlock f k h w).length = h.length := by
  simp [shaBlock, shaRounds_length]

theorem shaBlocks_length (f : ShaForm) (k : List Nat) (n : Nat) (h : List Nat) (b : List Byte) :
    (shaBlocks f k n h b).length = h.length := by
  induction n generalizing h b with
  | zero => rfl
  | succ n ih => rw [shaBlocks, ih, shaBlock_length]

/-- Words of equal length, written to bytes. -/
theorem beBytes_flatten_length (k : Nat) (l : List Nat) : ((l.map (beBytes k)).flatten).length = k * l.length := by
  induction l with
  | nil => simp
  | cons x l ih => simp [ih, beBytes, Nat.mul_add, Nat.add_comm]

theorem sha256_length (b : List Byte) : (sha256 b).length = 32 := by
  simp only [sha256, beBytes_flatten_length, shaBlocks_length]; rfl

theorem hmac_length (key msg : List Byte) : (hmac key msg).length = 32 := sha256_length _

end Sys2Proof.Machine
end

