-- ==== Sys2Proof/Laws/State.lean ====
section
/-!
SUPPORT. What the updates of State do to its fields and to the Catalogue store: one lemma per field per update, so that no proof
unfolds a record update.
-/

namespace Sys2Proof.Machine

/-! ### Sorted maps -/

@[simp] theorem mget?_mput_self {α : Type} (m : NMap α) (k : Nat) (a : α) : mget? (mput m k a) k = some a := by
  induction m with
  | nil => simp [mput, mget?]
  | cons x m ih =>
    obtain ⟨j, b⟩ := x
    unfold mput
    split
    · simp [mget?]
    · split
      · simp [mget?]
      · rw [mget?, if_neg (by omega), ih]

theorem mget?_mput_ne {α : Type} (m : NMap α) (k j : Nat) (a : α) (h : j ≠ k) : mget? (mput m k a) j = mget? m j := by
  induction m with
  | nil => simp [mput, mget?, Ne.symm h]
  | cons x m ih =>
    obtain ⟨i, b⟩ := x
    unfold mput
    split
    · simp [mget?, Ne.symm h]
    · split
      · subst_vars; simp [mget?, Ne.symm h]
      · simp [mget?, ih]

@[simp] theorem mgetD_mput_self {α : Type} (m : NMap α) (k : Nat) (a d : α) : mgetD (mput m k a) k d = a := by
  simp [mgetD]

theorem mgetD_mput_ne {α : Type} (m : NMap α) (k j : Nat) (a d : α) (h : j ≠ k) : mgetD (mput m k a) j d = mgetD m j d := by
  rw [mgetD, mget?_mput_ne m k j a h, mgetD]

theorem mget?_mdel_ne {α : Type} (m : NMap α) (k j : Nat) (h : j ≠ k) : mget? (mdel m k) j = mget? m j := by
  induction m with
  | nil => rfl
  | cons x m ih =>
    obtain ⟨i, b⟩ := x
    simp only [mdel, List.filter_cons] at ih ⊢
    split
    · simp only [mget?]; rw [ih]
    · simp_all [mget?, Ne.symm h]

@[simp] theorem mget?_mdel_self {α : Type} (m : NMap α) (k : Nat) : mget? (mdel m k) k = none := by
  induction m with
  | nil => rfl
  | cons x m ih =>
    obtain ⟨i, b⟩ := x
    simp only [mdel, List.filter_cons] at ih ⊢
    split
    · simp_all [mget?]
    · exact ih

/-! ### The Catalogue store -/

@[simp] theorem State.get_set_self (s : State) (l : Loc) (v : Nat) : (s.set l v).get l = v := mgetD_mput_self _ _ _ _

/-- A place reads as before where another place is set. -/
theorem State.get_set_ne (s : State) (l m : Loc) (v : Nat) (h : m.key ≠ l.key) : (s.set l v).get m = s.get m :=
  mgetD_mput_ne _ _ _ _ _ h

theorem State.get_inc_ne (s : State) (l m : Loc) (n : Nat) (h : m.key ≠ l.key) : (s.inc l n).get m = s.get m := by
  unfold State.inc
  split
  · rfl
  · exact s.get_set_ne l m _ h

theorem State.get_inc_self (s : State) (l : Loc) (n : Nat) (h : s.get l < 2 ^ 64) : (s.inc l n).get l = (s.get l + n) % 2 ^ 64 := by
  unfold State.inc
  split
  · subst_vars; exact (Nat.mod_eq_of_lt h).symm
  · exact s.get_set_self l _

theorem State.get_hset_ne (s : State) (l m : Loc) (t i v : Nat) (h : m.key ≠ l.key) : (s.hset l t i v).get m = s.get m :=
  s.get_set_ne l m v h

@[simp] theorem State.get_hset_self (s : State) (l : Loc) (t i v : Nat) : (s.hset l t i v).get l = v := s.get_set_self l v

theorem State.get_stick_ne (s : State) (l m : Loc) (i : Nat) (h : m.key ≠ l.key) : (s.stick l i).get m = s.get m :=
  s.get_set_ne l m _ h

@[simp] theorem State.get_stick_self (s : State) (l : Loc) (i : Nat) : (s.stick l i).get l = setBitAt (s.get l) i :=
  s.get_set_self l _

/-- A counter's increment touches the store and the cycle's notes alone. -/
theorem State.inc_eq (s : State) (l : Loc) (n : Nat) : s.inc l n = { s with cat := (s.inc l n).cat, cyc := (s.inc l n).cyc } := by
  unfold State.inc
  split <;> rfl

/-! ### set -/

@[simp] theorem State.set_pending (s : State) (l : Loc) (v : Nat) : (s.set l v).pending = s.pending := rfl
@[simp] theorem State.set_out (s : State) (l : Loc) (v : Nat) : (s.set l v).out = s.out := rfl
@[simp] theorem State.set_todo (s : State) (l : Loc) (v : Nat) : (s.set l v).todo = s.todo := rfl
@[simp] theorem State.set_freeCtr (s : State) (l : Loc) (v : Nat) : (s.set l v).freeCtr = s.freeCtr := rfl
@[simp] theorem State.set_part (s : State) (l : Loc) (v : Nat) : (s.set l v).part = s.part := rfl
@[simp] theorem State.set_cyc (s : State) (l : Loc) (v : Nat) : (s.set l v).cyc = s.cyc := rfl
@[simp] theorem State.set_mem (s : State) (l : Loc) (v : Nat) : (s.set l v).mem = s.mem := rfl
@[simp] theorem State.set_sched (s : State) (l : Loc) (v : Nat) : (s.set l v).sched = s.sched := rfl
@[simp] theorem State.set_schedSeq (s : State) (l : Loc) (v : Nat) : (s.set l v).schedSeq = s.schedSeq := rfl
@[simp] theorem State.set_time (s : State) (l : Loc) (v : Nat) : (s.set l v).time = s.time := rfl
@[simp] theorem State.set_hs (s : State) (l : Loc) (v : Nat) : (s.set l v).hs = s.hs := rfl
@[simp] theorem State.set_mgmt (s : State) (l : Loc) (v : Nat) : (s.set l v).mgmt = s.mgmt := rfl
@[simp] theorem State.set_flt (s : State) (l : Loc) (v : Nat) : (s.set l v).flt = s.flt := rfl
@[simp] theorem State.set_launches (s : State) (l : Loc) (v : Nat) : (s.set l v).launches = s.launches := rfl
@[simp] theorem State.set_aborted (s : State) (l : Loc) (v : Nat) : (s.set l v).aborted = s.aborted := rfl
@[simp] theorem State.set_mr (s : State) (l : Loc) (v : Nat) : (s.set l v).mr = s.mr := rfl
@[simp] theorem State.set_sw (s : State) (l : Loc) (v : Nat) : (s.set l v).sw = s.sw := rfl
@[simp] theorem State.set_qs (s : State) (l : Loc) (v : Nat) : (s.set l v).qs = s.qs := rfl
@[simp] theorem State.set_ports (s : State) (l : Loc) (v : Nat) : (s.set l v).ports = s.ports := rfl
@[simp] theorem State.set_refLost (s : State) (l : Loc) (v : Nat) : (s.set l v).refLost = s.refLost := rfl
@[simp] theorem State.set_groupsOut (s : State) (l : Loc) (v : Nat) : (s.set l v).groupsOut = s.groupsOut := rfl
@[simp] theorem State.set_macSeen (s : State) (l : Loc) (v : Nat) : (s.set l v).macSeen = s.macSeen := rfl
@[simp] theorem State.set_macWritten (s : State) (l : Loc) (v : Nat) : (s.set l v).macWritten = s.macWritten := rfl
@[simp] theorem State.set_macLearnt (s : State) (l : Loc) (v : Nat) : (s.set l v).macLearnt = s.macLearnt := rfl
@[simp] theorem State.set_ms (s : State) (l : Loc) (v : Nat) : (s.set l v).ms = s.ms := rfl
@[simp] theorem State.set_pools (s : State) (l : Loc) (v : Nat) : (s.set l v).pools = s.pools := rfl
@[simp] theorem State.set_copying (s : State) (l : Loc) (v : Nat) : (s.set l v).copying = s.copying := rfl
@[simp] theorem State.set_attr (s : State) (l : Loc) (v : Nat) : (s.set l v).attr = s.attr := rfl
@[simp] theorem State.set_mill (s : State) (l : Loc) (v : Nat) : (s.set l v).mill = s.mill := rfl
@[simp] theorem State.set_coll (s : State) (l : Loc) (v : Nat) : (s.set l v).coll = s.coll := rfl
@[simp] theorem State.set_epiHeld (s : State) (l : Loc) (v : Nat) : (s.set l v).epiHeld = s.epiHeld := rfl
@[simp] theorem State.set_weir (s : State) (l : Loc) (v : Nat) : (s.set l v).weir = s.weir := rfl
@[simp] theorem State.set_lock (s : State) (l : Loc) (v : Nat) : (s.set l v).lock = s.lock := rfl
@[simp] theorem State.set_arc (s : State) (l : Loc) (v : Nat) : (s.set l v).arc = s.arc := rfl
@[simp] theorem State.set_snap (s : State) (l : Loc) (v : Nat) : (s.set l v).snap = s.snap := rfl
@[simp] theorem State.set_spring (s : State) (l : Loc) (v : Nat) : (s.set l v).spring = s.spring := rfl
@[simp] theorem State.set_rings (s : State) (l : Loc) (v : Nat) : (s.set l v).rings = s.rings := rfl
@[simp] theorem State.set_pwr (s : State) (l : Loc) (v : Nat) : (s.set l v).pwr = s.pwr := rfl
@[simp] theorem State.set_st (s : State) (l : Loc) (v : Nat) : (s.set l v).st = s.st := rfl
@[simp] theorem State.set_boot (s : State) (l : Loc) (v : Nat) : (s.set l v).boot = s.boot := rfl
@[simp] theorem State.set_therm (s : State) (l : Loc) (v : Nat) : (s.set l v).therm = s.therm := rfl

/-! ### emit -/

@[simp] theorem State.emit_pending (s : State) (o : Output) : (s.emit o).pending = s.pending := rfl
@[simp] theorem State.emit_todo (s : State) (o : Output) : (s.emit o).todo = s.todo := rfl
@[simp] theorem State.emit_freeCtr (s : State) (o : Output) : (s.emit o).freeCtr = s.freeCtr := rfl
@[simp] theorem State.emit_part (s : State) (o : Output) : (s.emit o).part = s.part := rfl
@[simp] theorem State.emit_cyc (s : State) (o : Output) : (s.emit o).cyc = s.cyc := rfl
@[simp] theorem State.emit_cat (s : State) (o : Output) : (s.emit o).cat = s.cat := rfl
@[simp] theorem State.emit_mem (s : State) (o : Output) : (s.emit o).mem = s.mem := rfl
@[simp] theorem State.emit_sched (s : State) (o : Output) : (s.emit o).sched = s.sched := rfl
@[simp] theorem State.emit_schedSeq (s : State) (o : Output) : (s.emit o).schedSeq = s.schedSeq := rfl
@[simp] theorem State.emit_time (s : State) (o : Output) : (s.emit o).time = s.time := rfl
@[simp] theorem State.emit_hs (s : State) (o : Output) : (s.emit o).hs = s.hs := rfl
@[simp] theorem State.emit_mgmt (s : State) (o : Output) : (s.emit o).mgmt = s.mgmt := rfl
@[simp] theorem State.emit_flt (s : State) (o : Output) : (s.emit o).flt = s.flt := rfl
@[simp] theorem State.emit_launches (s : State) (o : Output) : (s.emit o).launches = s.launches := rfl
@[simp] theorem State.emit_aborted (s : State) (o : Output) : (s.emit o).aborted = s.aborted := rfl
@[simp] theorem State.emit_mr (s : State) (o : Output) : (s.emit o).mr = s.mr := rfl
@[simp] theorem State.emit_sw (s : State) (o : Output) : (s.emit o).sw = s.sw := rfl
@[simp] theorem State.emit_qs (s : State) (o : Output) : (s.emit o).qs = s.qs := rfl
@[simp] theorem State.emit_ports (s : State) (o : Output) : (s.emit o).ports = s.ports := rfl
@[simp] theorem State.emit_refLost (s : State) (o : Output) : (s.emit o).refLost = s.refLost := rfl
@[simp] theorem State.emit_groupsOut (s : State) (o : Output) : (s.emit o).groupsOut = s.groupsOut := rfl
@[simp] theorem State.emit_macSeen (s : State) (o : Output) : (s.emit o).macSeen = s.macSeen := rfl
@[simp] theorem State.emit_macWritten (s : State) (o : Output) : (s.emit o).macWritten = s.macWritten := rfl
@[simp] theorem State.emit_macLearnt (s : State) (o : Output) : (s.emit o).macLearnt = s.macLearnt := rfl
@[simp] theorem State.emit_ms (s : State) (o : Output) : (s.emit o).ms = s.ms := rfl
@[simp] theorem State.emit_pools (s : State) (o : Output) : (s.emit o).pools = s.pools := rfl
@[simp] theorem State.emit_copying (s : State) (o : Output) : (s.emit o).copying = s.copying := rfl
@[simp] theorem State.emit_attr (s : State) (o : Output) : (s.emit o).attr = s.attr := rfl
@[simp] theorem State.emit_mill (s : State) (o : Output) : (s.emit o).mill = s.mill := rfl
@[simp] theorem State.emit_coll (s : State) (o : Output) : (s.emit o).coll = s.coll := rfl
@[simp] theorem State.emit_epiHeld (s : State) (o : Output) : (s.emit o).epiHeld = s.epiHeld := rfl
@[simp] theorem State.emit_weir (s : State) (o : Output) : (s.emit o).weir = s.weir := rfl
@[simp] theorem State.emit_lock (s : State) (o : Output) : (s.emit o).lock = s.lock := rfl
@[simp] theorem State.emit_arc (s : State) (o : Output) : (s.emit o).arc = s.arc := rfl
@[simp] theorem State.emit_snap (s : State) (o : Output) : (s.emit o).snap = s.snap := rfl
@[simp] theorem State.emit_spring (s : State) (o : Output) : (s.emit o).spring = s.spring := rfl
@[simp] theorem State.emit_rings (s : State) (o : Output) : (s.emit o).rings = s.rings := rfl
@[simp] theorem State.emit_pwr (s : State) (o : Output) : (s.emit o).pwr = s.pwr := rfl
@[simp] theorem State.emit_st (s : State) (o : Output) : (s.emit o).st = s.st := rfl
@[simp] theorem State.emit_boot (s : State) (o : Output) : (s.emit o).boot = s.boot := rfl
@[simp] theorem State.emit_therm (s : State) (o : Output) : (s.emit o).therm = s.therm := rfl

@[simp] theorem State.emit_out (s : State) (o : Output) : (s.emit o).out = s.out ++ [o] := rfl
@[simp] theorem State.emit_get (s : State) (o : Output) (l : Loc) : (s.emit o).get l = s.get l := rfl

/-! ### later -/

@[simp] theorem State.later_pending (s : State) (t : Todo) : (s.later t).pending = s.pending := rfl
@[simp] theorem State.later_out (s : State) (t : Todo) : (s.later t).out = s.out := rfl
@[simp] theorem State.later_freeCtr (s : State) (t : Todo) : (s.later t).freeCtr = s.freeCtr := rfl
@[simp] theorem State.later_part (s : State) (t : Todo) : (s.later t).part = s.part := rfl
@[simp] theorem State.later_cyc (s : State) (t : Todo) : (s.later t).cyc = s.cyc := rfl
@[simp] theorem State.later_cat (s : State) (t : Todo) : (s.later t).cat = s.cat := rfl
@[simp] theorem State.later_mem (s : State) (t : Todo) : (s.later t).mem = s.mem := rfl
@[simp] theorem State.later_sched (s : State) (t : Todo) : (s.later t).sched = s.sched := rfl
@[simp] theorem State.later_schedSeq (s : State) (t : Todo) : (s.later t).schedSeq = s.schedSeq := rfl
@[simp] theorem State.later_time (s : State) (t : Todo) : (s.later t).time = s.time := rfl
@[simp] theorem State.later_hs (s : State) (t : Todo) : (s.later t).hs = s.hs := rfl
@[simp] theorem State.later_mgmt (s : State) (t : Todo) : (s.later t).mgmt = s.mgmt := rfl
@[simp] theorem State.later_flt (s : State) (t : Todo) : (s.later t).flt = s.flt := rfl
@[simp] theorem State.later_launches (s : State) (t : Todo) : (s.later t).launches = s.launches := rfl
@[simp] theorem State.later_aborted (s : State) (t : Todo) : (s.later t).aborted = s.aborted := rfl
@[simp] theorem State.later_mr (s : State) (t : Todo) : (s.later t).mr = s.mr := rfl
@[simp] theorem State.later_sw (s : State) (t : Todo) : (s.later t).sw = s.sw := rfl
@[simp] theorem State.later_qs (s : State) (t : Todo) : (s.later t).qs = s.qs := rfl
@[simp] theorem State.later_ports (s : State) (t : Todo) : (s.later t).ports = s.ports := rfl
@[simp] theorem State.later_refLost (s : State) (t : Todo) : (s.later t).refLost = s.refLost := rfl
@[simp] theorem State.later_groupsOut (s : State) (t : Todo) : (s.later t).groupsOut = s.groupsOut := rfl
@[simp] theorem State.later_macSeen (s : State) (t : Todo) : (s.later t).macSeen = s.macSeen := rfl
@[simp] theorem State.later_macWritten (s : State) (t : Todo) : (s.later t).macWritten = s.macWritten := rfl
@[simp] theorem State.later_macLearnt (s : State) (t : Todo) : (s.later t).macLearnt = s.macLearnt := rfl
@[simp] theorem State.later_ms (s : State) (t : Todo) : (s.later t).ms = s.ms := rfl
@[simp] theorem State.later_pools (s : State) (t : Todo) : (s.later t).pools = s.pools := rfl
@[simp] theorem State.later_copying (s : State) (t : Todo) : (s.later t).copying = s.copying := rfl
@[simp] theorem State.later_attr (s : State) (t : Todo) : (s.later t).attr = s.attr := rfl
@[simp] theorem State.later_mill (s : State) (t : Todo) : (s.later t).mill = s.mill := rfl
@[simp] theorem State.later_coll (s : State) (t : Todo) : (s.later t).coll = s.coll := rfl
@[simp] theorem State.later_epiHeld (s : State) (t : Todo) : (s.later t).epiHeld = s.epiHeld := rfl
@[simp] theorem State.later_weir (s : State) (t : Todo) : (s.later t).weir = s.weir := rfl
@[simp] theorem State.later_lock (s : State) (t : Todo) : (s.later t).lock = s.lock := rfl
@[simp] theorem State.later_arc (s : State) (t : Todo) : (s.later t).arc = s.arc := rfl
@[simp] theorem State.later_snap (s : State) (t : Todo) : (s.later t).snap = s.snap := rfl
@[simp] theorem State.later_spring (s : State) (t : Todo) : (s.later t).spring = s.spring := rfl
@[simp] theorem State.later_rings (s : State) (t : Todo) : (s.later t).rings = s.rings := rfl
@[simp] theorem State.later_pwr (s : State) (t : Todo) : (s.later t).pwr = s.pwr := rfl
@[simp] theorem State.later_st (s : State) (t : Todo) : (s.later t).st = s.st := rfl
@[simp] theorem State.later_boot (s : State) (t : Todo) : (s.later t).boot = s.boot := rfl
@[simp] theorem State.later_therm (s : State) (t : Todo) : (s.later t).therm = s.therm := rfl

@[simp] theorem State.later_todo (s : State) (t : Todo) : (s.later t).todo = s.todo ++ [t] := rfl
@[simp] theorem State.later_get (s : State) (t : Todo) (l : Loc) : (s.later t).get l = s.get l := rfl

/-! ### inc -/

@[simp] theorem State.inc_pending (s : State) (l : Loc) (n : Nat) : (s.inc l n).pending = s.pending :=
  (congrArg State.pending (s.inc_eq l n)).trans rfl
@[simp] theorem State.inc_out (s : State) (l : Loc) (n : Nat) : (s.inc l n).out = s.out :=
  (congrArg State.out (s.inc_eq l n)).trans rfl
@[simp] theorem State.inc_todo (s : State) (l : Loc) (n : Nat) : (s.inc l n).todo = s.todo :=
  (congrArg State.todo (s.inc_eq l n)).trans rfl
@[simp] theorem State.inc_freeCtr (s : State) (l : Loc) (n : Nat) : (s.inc l n).freeCtr = s.freeCtr :=
  (congrArg State.freeCtr (s.inc_eq l n)).trans rfl
@[simp] theorem State.inc_part (s : State) (l : Loc) (n : Nat) : (s.inc l n).part = s.part :=
  (congrArg State.part (s.inc_eq l n)).trans rfl
@[simp] theorem State.inc_mem (s : State) (l : Loc) (n : Nat) : (s.inc l n).mem = s.mem :=
  (congrArg State.mem (s.inc_eq l n)).trans rfl
@[simp] theorem State.inc_sched (s : State) (l : Loc) (n : Nat) : (s.inc l n).sched = s.sched :=
  (congrArg State.sched (s.inc_eq l n)).trans rfl
@[simp] theorem State.inc_schedSeq (s : State) (l : Loc) (n : Nat) : (s.inc l n).schedSeq = s.schedSeq :=
  (congrArg State.schedSeq (s.inc_eq l n)).trans rfl
@[simp] theorem State.inc_time (s : State) (l : Loc) (n : Nat) : (s.inc l n).time = s.time :=
  (congrArg State.time (s.inc_eq l n)).trans rfl
@[simp] theorem State.inc_hs (s : State) (l : Loc) (n : Nat) : (s.inc l n).hs = s.hs :=
  (congrArg State.hs (s.inc_eq l n)).trans rfl
@[simp] theorem State.inc_mgmt (s : State) (l : Loc) (n : Nat) : (s.inc l n).mgmt = s.mgmt :=
  (congrArg State.mgmt (s.inc_eq l n)).trans rfl
@[simp] theorem State.inc_flt (s : State) (l : Loc) (n : Nat) : (s.inc l n).flt = s.flt :=
  (congrArg State.flt (s.inc_eq l n)).trans rfl
@[simp] theorem State.inc_launches (s : State) (l : Loc) (n : Nat) : (s.inc l n).launches = s.launches :=
  (congrArg State.launches (s.inc_eq l n)).trans rfl
@[simp] theorem State.inc_aborted (s : State) (l : Loc) (n : Nat) : (s.inc l n).aborted = s.aborted :=
  (congrArg State.aborted (s.inc_eq l n)).trans rfl
@[simp] theorem State.inc_mr (s : State) (l : Loc) (n : Nat) : (s.inc l n).mr = s.mr :=
  (congrArg State.mr (s.inc_eq l n)).trans rfl
@[simp] theorem State.inc_sw (s : State) (l : Loc) (n : Nat) : (s.inc l n).sw = s.sw :=
  (congrArg State.sw (s.inc_eq l n)).trans rfl
@[simp] theorem State.inc_qs (s : State) (l : Loc) (n : Nat) : (s.inc l n).qs = s.qs :=
  (congrArg State.qs (s.inc_eq l n)).trans rfl
@[simp] theorem State.inc_ports (s : State) (l : Loc) (n : Nat) : (s.inc l n).ports = s.ports :=
  (congrArg State.ports (s.inc_eq l n)).trans rfl
@[simp] theorem State.inc_refLost (s : State) (l : Loc) (n : Nat) : (s.inc l n).refLost = s.refLost :=
  (congrArg State.refLost (s.inc_eq l n)).trans rfl
@[simp] theorem State.inc_groupsOut (s : State) (l : Loc) (n : Nat) : (s.inc l n).groupsOut = s.groupsOut :=
  (congrArg State.groupsOut (s.inc_eq l n)).trans rfl
@[simp] theorem State.inc_macSeen (s : State) (l : Loc) (n : Nat) : (s.inc l n).macSeen = s.macSeen :=
  (congrArg State.macSeen (s.inc_eq l n)).trans rfl
@[simp] theorem State.inc_macWritten (s : State) (l : Loc) (n : Nat) : (s.inc l n).macWritten = s.macWritten :=
  (congrArg State.macWritten (s.inc_eq l n)).trans rfl
@[simp] theorem State.inc_macLearnt (s : State) (l : Loc) (n : Nat) : (s.inc l n).macLearnt = s.macLearnt :=
  (congrArg State.macLearnt (s.inc_eq l n)).trans rfl
@[simp] theorem State.inc_ms (s : State) (l : Loc) (n : Nat) : (s.inc l n).ms = s.ms :=
  (congrArg State.ms (s.inc_eq l n)).trans rfl
@[simp] theorem State.inc_pools (s : State) (l : Loc) (n : Nat) : (s.inc l n).pools = s.pools :=
  (congrArg State.pools (s.inc_eq l n)).trans rfl
@[simp] theorem State.inc_copying (s : State) (l : Loc) (n : Nat) : (s.inc l n).copying = s.copying :=
  (congrArg State.copying (s.inc_eq l n)).trans rfl
@[simp] theorem State.inc_attr (s : State) (l : Loc) (n : Nat) : (s.inc l n).attr = s.attr :=
  (congrArg State.attr (s.inc_eq l n)).trans rfl
@[simp] theorem State.inc_mill (s : State) (l : Loc) (n : Nat) : (s.inc l n).mill = s.mill :=
  (congrArg State.mill (s.inc_eq l n)).trans rfl
@[simp] theorem State.inc_coll (s : State) (l : Loc) (n : Nat) : (s.inc l n).coll = s.coll :=
  (congrArg State.coll (s.inc_eq l n)).trans rfl
@[simp] theorem State.inc_epiHeld (s : State) (l : Loc) (n : Nat) : (s.inc l n).epiHeld = s.epiHeld :=
  (congrArg State.epiHeld (s.inc_eq l n)).trans rfl
@[simp] theorem State.inc_weir (s : State) (l : Loc) (n : Nat) : (s.inc l n).weir = s.weir :=
  (congrArg State.weir (s.inc_eq l n)).trans rfl
@[simp] theorem State.inc_lock (s : State) (l : Loc) (n : Nat) : (s.inc l n).lock = s.lock :=
  (congrArg State.lock (s.inc_eq l n)).trans rfl
@[simp] theorem State.inc_arc (s : State) (l : Loc) (n : Nat) : (s.inc l n).arc = s.arc :=
  (congrArg State.arc (s.inc_eq l n)).trans rfl
@[simp] theorem State.inc_snap (s : State) (l : Loc) (n : Nat) : (s.inc l n).snap = s.snap :=
  (congrArg State.snap (s.inc_eq l n)).trans rfl
@[simp] theorem State.inc_spring (s : State) (l : Loc) (n : Nat) : (s.inc l n).spring = s.spring :=
  (congrArg State.spring (s.inc_eq l n)).trans rfl
@[simp] theorem State.inc_rings (s : State) (l : Loc) (n : Nat) : (s.inc l n).rings = s.rings :=
  (congrArg State.rings (s.inc_eq l n)).trans rfl
@[simp] theorem State.inc_pwr (s : State) (l : Loc) (n : Nat) : (s.inc l n).pwr = s.pwr :=
  (congrArg State.pwr (s.inc_eq l n)).trans rfl
@[simp] theorem State.inc_st (s : State) (l : Loc) (n : Nat) : (s.inc l n).st = s.st :=
  (congrArg State.st (s.inc_eq l n)).trans rfl
@[simp] theorem State.inc_boot (s : State) (l : Loc) (n : Nat) : (s.inc l n).boot = s.boot :=
  (congrArg State.boot (s.inc_eq l n)).trans rfl
@[simp] theorem State.inc_therm (s : State) (l : Loc) (n : Nat) : (s.inc l n).therm = s.therm :=
  (congrArg State.therm (s.inc_eq l n)).trans rfl

/-! ### hset -/

@[simp] theorem State.hset_pending (s : State) (l : Loc) (t i v : Nat) : (s.hset l t i v).pending = s.pending := rfl
@[simp] theorem State.hset_out (s : State) (l : Loc) (t i v : Nat) : (s.hset l t i v).out = s.out := rfl
@[simp] theorem State.hset_todo (s : State) (l : Loc) (t i v : Nat) : (s.hset l t i v).todo = s.todo := rfl
@[simp] theorem State.hset_freeCtr (s : State) (l : Loc) (t i v : Nat) : (s.hset l t i v).freeCtr = s.freeCtr := rfl
@[simp] theorem State.hset_part (s : State) (l : Loc) (t i v : Nat) : (s.hset l t i v).part = s.part := rfl
@[simp] theorem State.hset_mem (s : State) (l : Loc) (t i v : Nat) : (s.hset l t i v).mem = s.mem := rfl
@[simp] theorem State.hset_sched (s : State) (l : Loc) (t i v : Nat) : (s.hset l t i v).sched = s.sched := rfl
@[simp] theorem State.hset_schedSeq (s : State) (l : Loc) (t i v : Nat) : (s.hset l t i v).schedSeq = s.schedSeq := rfl
@[simp] theorem State.hset_time (s : State) (l : Loc) (t i v : Nat) : (s.hset l t i v).time = s.time := rfl
@[simp] theorem State.hset_hs (s : State) (l : Loc) (t i v : Nat) : (s.hset l t i v).hs = s.hs := rfl
@[simp] theorem State.hset_flt (s : State) (l : Loc) (t i v : Nat) : (s.hset l t i v).flt = s.flt := rfl
@[simp] theorem State.hset_launches (s : State) (l : Loc) (t i v : Nat) : (s.hset l t i v).launches = s.launches := rfl
@[simp] theorem State.hset_aborted (s : State) (l : Loc) (t i v : Nat) : (s.hset l t i v).aborted = s.aborted := rfl
@[simp] theorem State.hset_mr (s : State) (l : Loc) (t i v : Nat) : (s.hset l t i v).mr = s.mr := rfl
@[simp] theorem State.hset_sw (s : State) (l : Loc) (t i v : Nat) : (s.hset l t i v).sw = s.sw := rfl
@[simp] theorem State.hset_qs (s : State) (l : Loc) (t i v : Nat) : (s.hset l t i v).qs = s.qs := rfl
@[simp] theorem State.hset_ports (s : State) (l : Loc) (t i v : Nat) : (s.hset l t i v).ports = s.ports := rfl
@[simp] theorem State.hset_refLost (s : State) (l : Loc) (t i v : Nat) : (s.hset l t i v).refLost = s.refLost := rfl
@[simp] theorem State.hset_groupsOut (s : State) (l : Loc) (t i v : Nat) : (s.hset l t i v).groupsOut = s.groupsOut := rfl
@[simp] theorem State.hset_macSeen (s : State) (l : Loc) (t i v : Nat) : (s.hset l t i v).macSeen = s.macSeen := rfl
@[simp] theorem State.hset_macWritten (s : State) (l : Loc) (t i v : Nat) : (s.hset l t i v).macWritten = s.macWritten := rfl
@[simp] theorem State.hset_macLearnt (s : State) (l : Loc) (t i v : Nat) : (s.hset l t i v).macLearnt = s.macLearnt := rfl
@[simp] theorem State.hset_ms (s : State) (l : Loc) (t i v : Nat) : (s.hset l t i v).ms = s.ms := rfl
@[simp] theorem State.hset_pools (s : State) (l : Loc) (t i v : Nat) : (s.hset l t i v).pools = s.pools := rfl
@[simp] theorem State.hset_copying (s : State) (l : Loc) (t i v : Nat) : (s.hset l t i v).copying = s.copying := rfl
@[simp] theorem State.hset_attr (s : State) (l : Loc) (t i v : Nat) : (s.hset l t i v).attr = s.attr := rfl
@[simp] theorem State.hset_mill (s : State) (l : Loc) (t i v : Nat) : (s.hset l t i v).mill = s.mill := rfl
@[simp] theorem State.hset_coll (s : State) (l : Loc) (t i v : Nat) : (s.hset l t i v).coll = s.coll := rfl
@[simp] theorem State.hset_epiHeld (s : State) (l : Loc) (t i v : Nat) : (s.hset l t i v).epiHeld = s.epiHeld := rfl
@[simp] theorem State.hset_weir (s : State) (l : Loc) (t i v : Nat) : (s.hset l t i v).weir = s.weir := rfl
@[simp] theorem State.hset_lock (s : State) (l : Loc) (t i v : Nat) : (s.hset l t i v).lock = s.lock := rfl
@[simp] theorem State.hset_arc (s : State) (l : Loc) (t i v : Nat) : (s.hset l t i v).arc = s.arc := rfl
@[simp] theorem State.hset_snap (s : State) (l : Loc) (t i v : Nat) : (s.hset l t i v).snap = s.snap := rfl
@[simp] theorem State.hset_spring (s : State) (l : Loc) (t i v : Nat) : (s.hset l t i v).spring = s.spring := rfl
@[simp] theorem State.hset_rings (s : State) (l : Loc) (t i v : Nat) : (s.hset l t i v).rings = s.rings := rfl
@[simp] theorem State.hset_pwr (s : State) (l : Loc) (t i v : Nat) : (s.hset l t i v).pwr = s.pwr := rfl
@[simp] theorem State.hset_st (s : State) (l : Loc) (t i v : Nat) : (s.hset l t i v).st = s.st := rfl
@[simp] theorem State.hset_boot (s : State) (l : Loc) (t i v : Nat) : (s.hset l t i v).boot = s.boot := rfl
@[simp] theorem State.hset_therm (s : State) (l : Loc) (t i v : Nat) : (s.hset l t i v).therm = s.therm := rfl

/-! ### stick -/

@[simp] theorem State.stick_pending (s : State) (l : Loc) (i : Nat) : (s.stick l i).pending = s.pending := rfl
@[simp] theorem State.stick_out (s : State) (l : Loc) (i : Nat) : (s.stick l i).out = s.out := rfl
@[simp] theorem State.stick_todo (s : State) (l : Loc) (i : Nat) : (s.stick l i).todo = s.todo := rfl
@[simp] theorem State.stick_freeCtr (s : State) (l : Loc) (i : Nat) : (s.stick l i).freeCtr = s.freeCtr := rfl
@[simp] theorem State.stick_part (s : State) (l : Loc) (i : Nat) : (s.stick l i).part = s.part := rfl
@[simp] theorem State.stick_mem (s : State) (l : Loc) (i : Nat) : (s.stick l i).mem = s.mem := rfl
@[simp] theorem State.stick_sched (s : State) (l : Loc) (i : Nat) : (s.stick l i).sched = s.sched := rfl
@[simp] theorem State.stick_schedSeq (s : State) (l : Loc) (i : Nat) : (s.stick l i).schedSeq = s.schedSeq := rfl
@[simp] theorem State.stick_time (s : State) (l : Loc) (i : Nat) : (s.stick l i).time = s.time := rfl
@[simp] theorem State.stick_hs (s : State) (l : Loc) (i : Nat) : (s.stick l i).hs = s.hs := rfl
@[simp] theorem State.stick_mgmt (s : State) (l : Loc) (i : Nat) : (s.stick l i).mgmt = s.mgmt := rfl
@[simp] theorem State.stick_flt (s : State) (l : Loc) (i : Nat) : (s.stick l i).flt = s.flt := rfl
@[simp] theorem State.stick_launches (s : State) (l : Loc) (i : Nat) : (s.stick l i).launches = s.launches := rfl
@[simp] theorem State.stick_aborted (s : State) (l : Loc) (i : Nat) : (s.stick l i).aborted = s.aborted := rfl
@[simp] theorem State.stick_mr (s : State) (l : Loc) (i : Nat) : (s.stick l i).mr = s.mr := rfl
@[simp] theorem State.stick_sw (s : State) (l : Loc) (i : Nat) : (s.stick l i).sw = s.sw := rfl
@[simp] theorem State.stick_qs (s : State) (l : Loc) (i : Nat) : (s.stick l i).qs = s.qs := rfl
@[simp] theorem State.stick_ports (s : State) (l : Loc) (i : Nat) : (s.stick l i).ports = s.ports := rfl
@[simp] theorem State.stick_refLost (s : State) (l : Loc) (i : Nat) : (s.stick l i).refLost = s.refLost := rfl
@[simp] theorem State.stick_groupsOut (s : State) (l : Loc) (i : Nat) : (s.stick l i).groupsOut = s.groupsOut := rfl
@[simp] theorem State.stick_macSeen (s : State) (l : Loc) (i : Nat) : (s.stick l i).macSeen = s.macSeen := rfl
@[simp] theorem State.stick_macWritten (s : State) (l : Loc) (i : Nat) : (s.stick l i).macWritten = s.macWritten := rfl
@[simp] theorem State.stick_macLearnt (s : State) (l : Loc) (i : Nat) : (s.stick l i).macLearnt = s.macLearnt := rfl
@[simp] theorem State.stick_ms (s : State) (l : Loc) (i : Nat) : (s.stick l i).ms = s.ms := rfl
@[simp] theorem State.stick_pools (s : State) (l : Loc) (i : Nat) : (s.stick l i).pools = s.pools := rfl
@[simp] theorem State.stick_copying (s : State) (l : Loc) (i : Nat) : (s.stick l i).copying = s.copying := rfl
@[simp] theorem State.stick_attr (s : State) (l : Loc) (i : Nat) : (s.stick l i).attr = s.attr := rfl
@[simp] theorem State.stick_mill (s : State) (l : Loc) (i : Nat) : (s.stick l i).mill = s.mill := rfl
@[simp] theorem State.stick_coll (s : State) (l : Loc) (i : Nat) : (s.stick l i).coll = s.coll := rfl
@[simp] theorem State.stick_epiHeld (s : State) (l : Loc) (i : Nat) : (s.stick l i).epiHeld = s.epiHeld := rfl
@[simp] theorem State.stick_weir (s : State) (l : Loc) (i : Nat) : (s.stick l i).weir = s.weir := rfl
@[simp] theorem State.stick_lock (s : State) (l : Loc) (i : Nat) : (s.stick l i).lock = s.lock := rfl
@[simp] theorem State.stick_arc (s : State) (l : Loc) (i : Nat) : (s.stick l i).arc = s.arc := rfl
@[simp] theorem State.stick_snap (s : State) (l : Loc) (i : Nat) : (s.stick l i).snap = s.snap := rfl
@[simp] theorem State.stick_spring (s : State) (l : Loc) (i : Nat) : (s.stick l i).spring = s.spring := rfl
@[simp] theorem State.stick_rings (s : State) (l : Loc) (i : Nat) : (s.stick l i).rings = s.rings := rfl
@[simp] theorem State.stick_pwr (s : State) (l : Loc) (i : Nat) : (s.stick l i).pwr = s.pwr := rfl
@[simp] theorem State.stick_st (s : State) (l : Loc) (i : Nat) : (s.stick l i).st = s.st := rfl
@[simp] theorem State.stick_boot (s : State) (l : Loc) (i : Nat) : (s.stick l i).boot = s.boot := rfl
@[simp] theorem State.stick_therm (s : State) (l : Loc) (i : Nat) : (s.stick l i).therm = s.therm := rfl

/-! ### fresh -/

@[simp] theorem State.fresh_pending (s : State) (m : Nat) : ((s.fresh m).2).pending = s.pending := rfl
@[simp] theorem State.fresh_out (s : State) (m : Nat) : ((s.fresh m).2).out = s.out := rfl
@[simp] theorem State.fresh_todo (s : State) (m : Nat) : ((s.fresh m).2).todo = s.todo := rfl
@[simp] theorem State.fresh_part (s : State) (m : Nat) : ((s.fresh m).2).part = s.part := rfl
@[simp] theorem State.fresh_cyc (s : State) (m : Nat) : ((s.fresh m).2).cyc = s.cyc := rfl
@[simp] theorem State.fresh_cat (s : State) (m : Nat) : ((s.fresh m).2).cat = s.cat := rfl
@[simp] theorem State.fresh_mem (s : State) (m : Nat) : ((s.fresh m).2).mem = s.mem := rfl
@[simp] theorem State.fresh_sched (s : State) (m : Nat) : ((s.fresh m).2).sched = s.sched := rfl
@[simp] theorem State.fresh_schedSeq (s : State) (m : Nat) : ((s.fresh m).2).schedSeq = s.schedSeq := rfl
@[simp] theorem State.fresh_time (s : State) (m : Nat) : ((s.fresh m).2).time = s.time := rfl
@[simp] theorem State.fresh_hs (s : State) (m : Nat) : ((s.fresh m).2).hs = s.hs := rfl
@[simp] theorem State.fresh_mgmt (s : State) (m : Nat) : ((s.fresh m).2).mgmt = s.mgmt := rfl
@[simp] theorem State.fresh_flt (s : State) (m : Nat) : ((s.fresh m).2).flt = s.flt := rfl
@[simp] theorem State.fresh_launches (s : State) (m : Nat) : ((s.fresh m).2).launches = s.launches := rfl
@[simp] theorem State.fresh_aborted (s : State) (m : Nat) : ((s.fresh m).2).aborted = s.aborted := rfl
@[simp] theorem State.fresh_mr (s : State) (m : Nat) : ((s.fresh m).2).mr = s.mr := rfl
@[simp] theorem State.fresh_sw (s : State) (m : Nat) : ((s.fresh m).2).sw = s.sw := rfl
@[simp] theorem State.fresh_qs (s : State) (m : Nat) : ((s.fresh m).2).qs = s.qs := rfl
@[simp] theorem State.fresh_ports (s : State) (m : Nat) : ((s.fresh m).2).ports = s.ports := rfl
@[simp] theorem State.fresh_refLost (s : State) (m : Nat) : ((s.fresh m).2).refLost = s.refLost := rfl
@[simp] theorem State.fresh_groupsOut (s : State) (m : Nat) : ((s.fresh m).2).groupsOut = s.groupsOut := rfl
@[simp] theorem State.fresh_macSeen (s : State) (m : Nat) : ((s.fresh m).2).macSeen = s.macSeen := rfl
@[simp] theorem State.fresh_macWritten (s : State) (m : Nat) : ((s.fresh m).2).macWritten = s.macWritten := rfl
@[simp] theorem State.fresh_macLearnt (s : State) (m : Nat) : ((s.fresh m).2).macLearnt = s.macLearnt := rfl
@[simp] theorem State.fresh_ms (s : State) (m : Nat) : ((s.fresh m).2).ms = s.ms := rfl
@[simp] theorem State.fresh_pools (s : State) (m : Nat) : ((s.fresh m).2).pools = s.pools := rfl
@[simp] theorem State.fresh_copying (s : State) (m : Nat) : ((s.fresh m).2).copying = s.copying := rfl
@[simp] theorem State.fresh_attr (s : State) (m : Nat) : ((s.fresh m).2).attr = s.attr := rfl
@[simp] theorem State.fresh_mill (s : State) (m : Nat) : ((s.fresh m).2).mill = s.mill := rfl
@[simp] theorem State.fresh_coll (s : State) (m : Nat) : ((s.fresh m).2).coll = s.coll := rfl
@[simp] theorem State.fresh_epiHeld (s : State) (m : Nat) : ((s.fresh m).2).epiHeld = s.epiHeld := rfl
@[simp] theorem State.fresh_weir (s : State) (m : Nat) : ((s.fresh m).2).weir = s.weir := rfl
@[simp] theorem State.fresh_lock (s : State) (m : Nat) : ((s.fresh m).2).lock = s.lock := rfl
@[simp] theorem State.fresh_arc (s : State) (m : Nat) : ((s.fresh m).2).arc = s.arc := rfl
@[simp] theorem State.fresh_snap (s : State) (m : Nat) : ((s.fresh m).2).snap = s.snap := rfl
@[simp] theorem State.fresh_spring (s : State) (m : Nat) : ((s.fresh m).2).spring = s.spring := rfl
@[simp] theorem State.fresh_rings (s : State) (m : Nat) : ((s.fresh m).2).rings = s.rings := rfl
@[simp] theorem State.fresh_pwr (s : State) (m : Nat) : ((s.fresh m).2).pwr = s.pwr := rfl
@[simp] theorem State.fresh_st (s : State) (m : Nat) : ((s.fresh m).2).st = s.st := rfl
@[simp] theorem State.fresh_boot (s : State) (m : Nat) : ((s.fresh m).2).boot = s.boot := rfl
@[simp] theorem State.fresh_therm (s : State) (m : Nat) : ((s.fresh m).2).therm = s.therm := rfl

/-! ### schedule -/

@[simp] theorem State.schedule_pending (s : State) (ft : Nat) (k : ActKind) : (s.schedule ft k).pending = s.pending := rfl
@[simp] theorem State.schedule_out (s : State) (ft : Nat) (k : ActKind) : (s.schedule ft k).out = s.out := rfl
@[simp] theorem State.schedule_todo (s : State) (ft : Nat) (k : ActKind) : (s.schedule ft k).todo = s.todo := rfl
@[simp] theorem State.schedule_freeCtr (s : State) (ft : Nat) (k : ActKind) : (s.schedule ft k).freeCtr = s.freeCtr := rfl
@[simp] theorem State.schedule_part (s : State) (ft : Nat) (k : ActKind) : (s.schedule ft k).part = s.part := rfl
@[simp] theorem State.schedule_cyc (s : State) (ft : Nat) (k : ActKind) : (s.schedule ft k).cyc = s.cyc := rfl
@[simp] theorem State.schedule_cat (s : State) (ft : Nat) (k : ActKind) : (s.schedule ft k).cat = s.cat := rfl
@[simp] theorem State.schedule_mem (s : State) (ft : Nat) (k : ActKind) : (s.schedule ft k).mem = s.mem := rfl
@[simp] theorem State.schedule_time (s : State) (ft : Nat) (k : ActKind) : (s.schedule ft k).time = s.time := rfl
@[simp] theorem State.schedule_hs (s : State) (ft : Nat) (k : ActKind) : (s.schedule ft k).hs = s.hs := rfl
@[simp] theorem State.schedule_mgmt (s : State) (ft : Nat) (k : ActKind) : (s.schedule ft k).mgmt = s.mgmt := rfl
@[simp] theorem State.schedule_flt (s : State) (ft : Nat) (k : ActKind) : (s.schedule ft k).flt = s.flt := rfl
@[simp] theorem State.schedule_launches (s : State) (ft : Nat) (k : ActKind) : (s.schedule ft k).launches = s.launches := rfl
@[simp] theorem State.schedule_aborted (s : State) (ft : Nat) (k : ActKind) : (s.schedule ft k).aborted = s.aborted := rfl
@[simp] theorem State.schedule_mr (s : State) (ft : Nat) (k : ActKind) : (s.schedule ft k).mr = s.mr := rfl
@[simp] theorem State.schedule_sw (s : State) (ft : Nat) (k : ActKind) : (s.schedule ft k).sw = s.sw := rfl
@[simp] theorem State.schedule_qs (s : State) (ft : Nat) (k : ActKind) : (s.schedule ft k).qs = s.qs := rfl
@[simp] theorem State.schedule_ports (s : State) (ft : Nat) (k : ActKind) : (s.schedule ft k).ports = s.ports := rfl
@[simp] theorem State.schedule_refLost (s : State) (ft : Nat) (k : ActKind) : (s.schedule ft k).refLost = s.refLost := rfl
@[simp] theorem State.schedule_groupsOut (s : State) (ft : Nat) (k : ActKind) : (s.schedule ft k).groupsOut = s.groupsOut := rfl
@[simp] theorem State.schedule_macSeen (s : State) (ft : Nat) (k : ActKind) : (s.schedule ft k).macSeen = s.macSeen := rfl
@[simp] theorem State.schedule_macWritten (s : State) (ft : Nat) (k : ActKind) : (s.schedule ft k).macWritten = s.macWritten := rfl
@[simp] theorem State.schedule_macLearnt (s : State) (ft : Nat) (k : ActKind) : (s.schedule ft k).macLearnt = s.macLearnt := rfl
@[simp] theorem State.schedule_ms (s : State) (ft : Nat) (k : ActKind) : (s.schedule ft k).ms = s.ms := rfl
@[simp] theorem State.schedule_pools (s : State) (ft : Nat) (k : ActKind) : (s.schedule ft k).pools = s.pools := rfl
@[simp] theorem State.schedule_copying (s : State) (ft : Nat) (k : ActKind) : (s.schedule ft k).copying = s.copying := rfl
@[simp] theorem State.schedule_attr (s : State) (ft : Nat) (k : ActKind) : (s.schedule ft k).attr = s.attr := rfl
@[simp] theorem State.schedule_mill (s : State) (ft : Nat) (k : ActKind) : (s.schedule ft k).mill = s.mill := rfl
@[simp] theorem State.schedule_coll (s : State) (ft : Nat) (k : ActKind) : (s.schedule ft k).coll = s.coll := rfl
@[simp] theorem State.schedule_epiHeld (s : State) (ft : Nat) (k : ActKind) : (s.schedule ft k).epiHeld = s.epiHeld := rfl
@[simp] theorem State.schedule_weir (s : State) (ft : Nat) (k : ActKind) : (s.schedule ft k).weir = s.weir := rfl
@[simp] theorem State.schedule_lock (s : State) (ft : Nat) (k : ActKind) : (s.schedule ft k).lock = s.lock := rfl
@[simp] theorem State.schedule_arc (s : State) (ft : Nat) (k : ActKind) : (s.schedule ft k).arc = s.arc := rfl
@[simp] theorem State.schedule_snap (s : State) (ft : Nat) (k : ActKind) : (s.schedule ft k).snap = s.snap := rfl
@[simp] theorem State.schedule_spring (s : State) (ft : Nat) (k : ActKind) : (s.schedule ft k).spring = s.spring := rfl
@[simp] theorem State.schedule_rings (s : State) (ft : Nat) (k : ActKind) : (s.schedule ft k).rings = s.rings := rfl
@[simp] theorem State.schedule_pwr (s : State) (ft : Nat) (k : ActKind) : (s.schedule ft k).pwr = s.pwr := rfl
@[simp] theorem State.schedule_st (s : State) (ft : Nat) (k : ActKind) : (s.schedule ft k).st = s.st := rfl
@[simp] theorem State.schedule_boot (s : State) (ft : Nat) (k : ActKind) : (s.schedule ft k).boot = s.boot := rfl
@[simp] theorem State.schedule_therm (s : State) (ft : Nat) (k : ActKind) : (s.schedule ft k).therm = s.therm := rfl

/-! ### unschedule -/

@[simp] theorem State.unschedule_pending (s : State) (k : ActKind) : (s.unschedule k).pending = s.pending := rfl
@[simp] theorem State.unschedule_out (s : State) (k : ActKind) : (s.unschedule k).out = s.out := rfl
@[simp] theorem State.unschedule_todo (s : State) (k : ActKind) : (s.unschedule k).todo = s.todo := rfl
@[simp] theorem State.unschedule_freeCtr (s : State) (k : ActKind) : (s.unschedule k).freeCtr = s.freeCtr := rfl
@[simp] theorem State.unschedule_part (s : State) (k : ActKind) : (s.unschedule k).part = s.part := rfl
@[simp] theorem State.unschedule_cyc (s : State) (k : ActKind) : (s.unschedule k).cyc = s.cyc := rfl
@[simp] theorem State.unschedule_cat (s : State) (k : ActKind) : (s.unschedule k).cat = s.cat := rfl
@[simp] theorem State.unschedule_mem (s : State) (k : ActKind) : (s.unschedule k).mem = s.mem := rfl
@[simp] theorem State.unschedule_schedSeq (s : State) (k : ActKind) : (s.unschedule k).schedSeq = s.schedSeq := rfl
@[simp] theorem State.unschedule_time (s : State) (k : ActKind) : (s.unschedule k).time = s.time := rfl
@[simp] theorem State.unschedule_hs (s : State) (k : ActKind) : (s.unschedule k).hs = s.hs := rfl
@[simp] theorem State.unschedule_mgmt (s : State) (k : ActKind) : (s.unschedule k).mgmt = s.mgmt := rfl
@[simp] theorem State.unschedule_flt (s : State) (k : ActKind) : (s.unschedule k).flt = s.flt := rfl
@[simp] theorem State.unschedule_launches (s : State) (k : ActKind) : (s.unschedule k).launches = s.launches := rfl
@[simp] theorem State.unschedule_aborted (s : State) (k : ActKind) : (s.unschedule k).aborted = s.aborted := rfl
@[simp] theorem State.unschedule_mr (s : State) (k : ActKind) : (s.unschedule k).mr = s.mr := rfl
@[simp] theorem State.unschedule_sw (s : State) (k : ActKind) : (s.unschedule k).sw = s.sw := rfl
@[simp] theorem State.unschedule_qs (s : State) (k : ActKind) : (s.unschedule k).qs = s.qs := rfl
@[simp] theorem State.unschedule_ports (s : State) (k : ActKind) : (s.unschedule k).ports = s.ports := rfl
@[simp] theorem State.unschedule_refLost (s : State) (k : ActKind) : (s.unschedule k).refLost = s.refLost := rfl
@[simp] theorem State.unschedule_groupsOut (s : State) (k : ActKind) : (s.unschedule k).groupsOut = s.groupsOut := rfl
@[simp] theorem State.unschedule_macSeen (s : State) (k : ActKind) : (s.unschedule k).macSeen = s.macSeen := rfl
@[simp] theorem State.unschedule_macWritten (s : State) (k : ActKind) : (s.unschedule k).macWritten = s.macWritten := rfl
@[simp] theorem State.unschedule_macLearnt (s : State) (k : ActKind) : (s.unschedule k).macLearnt = s.macLearnt := rfl
@[simp] theorem State.unschedule_ms (s : State) (k : ActKind) : (s.unschedule k).ms = s.ms := rfl
@[simp] theorem State.unschedule_pools (s : State) (k : ActKind) : (s.unschedule k).pools = s.pools := rfl
@[simp] theorem State.unschedule_copying (s : State) (k : ActKind) : (s.unschedule k).copying = s.copying := rfl
@[simp] theorem State.unschedule_attr (s : State) (k : ActKind) : (s.unschedule k).attr = s.attr := rfl
@[simp] theorem State.unschedule_mill (s : State) (k : ActKind) : (s.unschedule k).mill = s.mill := rfl
@[simp] theorem State.unschedule_coll (s : State) (k : ActKind) : (s.unschedule k).coll = s.coll := rfl
@[simp] theorem State.unschedule_epiHeld (s : State) (k : ActKind) : (s.unschedule k).epiHeld = s.epiHeld := rfl
@[simp] theorem State.unschedule_weir (s : State) (k : ActKind) : (s.unschedule k).weir = s.weir := rfl
@[simp] theorem State.unschedule_lock (s : State) (k : ActKind) : (s.unschedule k).lock = s.lock := rfl
@[simp] theorem State.unschedule_arc (s : State) (k : ActKind) : (s.unschedule k).arc = s.arc := rfl
@[simp] theorem State.unschedule_snap (s : State) (k : ActKind) : (s.unschedule k).snap = s.snap := rfl
@[simp] theorem State.unschedule_spring (s : State) (k : ActKind) : (s.unschedule k).spring = s.spring := rfl
@[simp] theorem State.unschedule_rings (s : State) (k : ActKind) : (s.unschedule k).rings = s.rings := rfl
@[simp] theorem State.unschedule_pwr (s : State) (k : ActKind) : (s.unschedule k).pwr = s.pwr := rfl
@[simp] theorem State.unschedule_st (s : State) (k : ActKind) : (s.unschedule k).st = s.st := rfl
@[simp] theorem State.unschedule_boot (s : State) (k : ActKind) : (s.unschedule k).boot = s.boot := rfl
@[simp] theorem State.unschedule_therm (s : State) (k : ActKind) : (s.unschedule k).therm = s.therm := rfl

/-! ### modMgmt -/

@[simp] theorem State.modMgmt_pending (s : State) (f : MgmtSt → MgmtSt) : (s.modMgmt f).pending = s.pending := rfl
@[simp] theorem State.modMgmt_out (s : State) (f : MgmtSt → MgmtSt) : (s.modMgmt f).out = s.out := rfl
@[simp] theorem State.modMgmt_todo (s : State) (f : MgmtSt → MgmtSt) : (s.modMgmt f).todo = s.todo := rfl
@[simp] theorem State.modMgmt_freeCtr (s : State) (f : MgmtSt → MgmtSt) : (s.modMgmt f).freeCtr = s.freeCtr := rfl
@[simp] theorem State.modMgmt_part (s : State) (f : MgmtSt → MgmtSt) : (s.modMgmt f).part = s.part := rfl
@[simp] theorem State.modMgmt_cyc (s : State) (f : MgmtSt → MgmtSt) : (s.modMgmt f).cyc = s.cyc := rfl
@[simp] theorem State.modMgmt_cat (s : State) (f : MgmtSt → MgmtSt) : (s.modMgmt f).cat = s.cat := rfl
@[simp] theorem State.modMgmt_mem (s : State) (f : MgmtSt → MgmtSt) : (s.modMgmt f).mem = s.mem := rfl
@[simp] theorem State.modMgmt_sched (s : State) (f : MgmtSt → MgmtSt) : (s.modMgmt f).sched = s.sched := rfl
@[simp] theorem State.modMgmt_schedSeq (s : State) (f : MgmtSt → MgmtSt) : (s.modMgmt f).schedSeq = s.schedSeq := rfl
@[simp] theorem State.modMgmt_time (s : State) (f : MgmtSt → MgmtSt) : (s.modMgmt f).time = s.time := rfl
@[simp] theorem State.modMgmt_hs (s : State) (f : MgmtSt → MgmtSt) : (s.modMgmt f).hs = s.hs := rfl
@[simp] theorem State.modMgmt_flt (s : State) (f : MgmtSt → MgmtSt) : (s.modMgmt f).flt = s.flt := rfl
@[simp] theorem State.modMgmt_launches (s : State) (f : MgmtSt → MgmtSt) : (s.modMgmt f).launches = s.launches := rfl
@[simp] theorem State.modMgmt_aborted (s : State) (f : MgmtSt → MgmtSt) : (s.modMgmt f).aborted = s.aborted := rfl
@[simp] theorem State.modMgmt_mr (s : State) (f : MgmtSt → MgmtSt) : (s.modMgmt f).mr = s.mr := rfl
@[simp] theorem State.modMgmt_sw (s : State) (f : MgmtSt → MgmtSt) : (s.modMgmt f).sw = s.sw := rfl
@[simp] theorem State.modMgmt_qs (s : State) (f : MgmtSt → MgmtSt) : (s.modMgmt f).qs = s.qs := rfl
@[simp] theorem State.modMgmt_ports (s : State) (f : MgmtSt → MgmtSt) : (s.modMgmt f).ports = s.ports := rfl
@[simp] theorem State.modMgmt_refLost (s : State) (f : MgmtSt → MgmtSt) : (s.modMgmt f).refLost = s.refLost := rfl
@[simp] theorem State.modMgmt_groupsOut (s : State) (f : MgmtSt → MgmtSt) : (s.modMgmt f).groupsOut = s.groupsOut := rfl
@[simp] theorem State.modMgmt_macSeen (s : State) (f : MgmtSt → MgmtSt) : (s.modMgmt f).macSeen = s.macSeen := rfl
@[simp] theorem State.modMgmt_macWritten (s : State) (f : MgmtSt → MgmtSt) : (s.modMgmt f).macWritten = s.macWritten := rfl
@[simp] theorem State.modMgmt_macLearnt (s : State) (f : MgmtSt → MgmtSt) : (s.modMgmt f).macLearnt = s.macLearnt := rfl
@[simp] theorem State.modMgmt_ms (s : State) (f : MgmtSt → MgmtSt) : (s.modMgmt f).ms = s.ms := rfl
@[simp] theorem State.modMgmt_pools (s : State) (f : MgmtSt → MgmtSt) : (s.modMgmt f).pools = s.pools := rfl
@[simp] theorem State.modMgmt_copying (s : State) (f : MgmtSt → MgmtSt) : (s.modMgmt f).copying = s.copying := rfl
@[simp] theorem State.modMgmt_attr (s : State) (f : MgmtSt → MgmtSt) : (s.modMgmt f).attr = s.attr := rfl
@[simp] theorem State.modMgmt_mill (s : State) (f : MgmtSt → MgmtSt) : (s.modMgmt f).mill = s.mill := rfl
@[simp] theorem State.modMgmt_coll (s : State) (f : MgmtSt → MgmtSt) : (s.modMgmt f).coll = s.coll := rfl
@[simp] theorem State.modMgmt_epiHeld (s : State) (f : MgmtSt → MgmtSt) : (s.modMgmt f).epiHeld = s.epiHeld := rfl
@[simp] theorem State.modMgmt_weir (s : State) (f : MgmtSt → MgmtSt) : (s.modMgmt f).weir = s.weir := rfl
@[simp] theorem State.modMgmt_lock (s : State) (f : MgmtSt → MgmtSt) : (s.modMgmt f).lock = s.lock := rfl
@[simp] theorem State.modMgmt_arc (s : State) (f : MgmtSt → MgmtSt) : (s.modMgmt f).arc = s.arc := rfl
@[simp] theorem State.modMgmt_snap (s : State) (f : MgmtSt → MgmtSt) : (s.modMgmt f).snap = s.snap := rfl
@[simp] theorem State.modMgmt_spring (s : State) (f : MgmtSt → MgmtSt) : (s.modMgmt f).spring = s.spring := rfl
@[simp] theorem State.modMgmt_rings (s : State) (f : MgmtSt → MgmtSt) : (s.modMgmt f).rings = s.rings := rfl
@[simp] theorem State.modMgmt_pwr (s : State) (f : MgmtSt → MgmtSt) : (s.modMgmt f).pwr = s.pwr := rfl
@[simp] theorem State.modMgmt_st (s : State) (f : MgmtSt → MgmtSt) : (s.modMgmt f).st = s.st := rfl
@[simp] theorem State.modMgmt_boot (s : State) (f : MgmtSt → MgmtSt) : (s.modMgmt f).boot = s.boot := rfl
@[simp] theorem State.modMgmt_therm (s : State) (f : MgmtSt → MgmtSt) : (s.modMgmt f).therm = s.therm := rfl

/-! ### modMs -/

@[simp] theorem State.modMs_pending (s : State) (f : MemSt → MemSt) : (s.modMs f).pending = s.pending := rfl
@[simp] theorem State.modMs_out (s : State) (f : MemSt → MemSt) : (s.modMs f).out = s.out := rfl
@[simp] theorem State.modMs_todo (s : State) (f : MemSt → MemSt) : (s.modMs f).todo = s.todo := rfl
@[simp] theorem State.modMs_freeCtr (s : State) (f : MemSt → MemSt) : (s.modMs f).freeCtr = s.freeCtr := rfl
@[simp] theorem State.modMs_part (s : State) (f : MemSt → MemSt) : (s.modMs f).part = s.part := rfl
@[simp] theorem State.modMs_cyc (s : State) (f : MemSt → MemSt) : (s.modMs f).cyc = s.cyc := rfl
@[simp] theorem State.modMs_cat (s : State) (f : MemSt → MemSt) : (s.modMs f).cat = s.cat := rfl
@[simp] theorem State.modMs_mem (s : State) (f : MemSt → MemSt) : (s.modMs f).mem = s.mem := rfl
@[simp] theorem State.modMs_sched (s : State) (f : MemSt → MemSt) : (s.modMs f).sched = s.sched := rfl
@[simp] theorem State.modMs_schedSeq (s : State) (f : MemSt → MemSt) : (s.modMs f).schedSeq = s.schedSeq := rfl
@[simp] theorem State.modMs_time (s : State) (f : MemSt → MemSt) : (s.modMs f).time = s.time := rfl
@[simp] theorem State.modMs_hs (s : State) (f : MemSt → MemSt) : (s.modMs f).hs = s.hs := rfl
@[simp] theorem State.modMs_mgmt (s : State) (f : MemSt → MemSt) : (s.modMs f).mgmt = s.mgmt := rfl
@[simp] theorem State.modMs_flt (s : State) (f : MemSt → MemSt) : (s.modMs f).flt = s.flt := rfl
@[simp] theorem State.modMs_launches (s : State) (f : MemSt → MemSt) : (s.modMs f).launches = s.launches := rfl
@[simp] theorem State.modMs_aborted (s : State) (f : MemSt → MemSt) : (s.modMs f).aborted = s.aborted := rfl
@[simp] theorem State.modMs_mr (s : State) (f : MemSt → MemSt) : (s.modMs f).mr = s.mr := rfl
@[simp] theorem State.modMs_sw (s : State) (f : MemSt → MemSt) : (s.modMs f).sw = s.sw := rfl
@[simp] theorem State.modMs_qs (s : State) (f : MemSt → MemSt) : (s.modMs f).qs = s.qs := rfl
@[simp] theorem State.modMs_ports (s : State) (f : MemSt → MemSt) : (s.modMs f).ports = s.ports := rfl
@[simp] theorem State.modMs_refLost (s : State) (f : MemSt → MemSt) : (s.modMs f).refLost = s.refLost := rfl
@[simp] theorem State.modMs_groupsOut (s : State) (f : MemSt → MemSt) : (s.modMs f).groupsOut = s.groupsOut := rfl
@[simp] theorem State.modMs_macSeen (s : State) (f : MemSt → MemSt) : (s.modMs f).macSeen = s.macSeen := rfl
@[simp] theorem State.modMs_macWritten (s : State) (f : MemSt → MemSt) : (s.modMs f).macWritten = s.macWritten := rfl
@[simp] theorem State.modMs_macLearnt (s : State) (f : MemSt → MemSt) : (s.modMs f).macLearnt = s.macLearnt := rfl
@[simp] theorem State.modMs_pools (s : State) (f : MemSt → MemSt) : (s.modMs f).pools = s.pools := rfl
@[simp] theorem State.modMs_copying (s : State) (f : MemSt → MemSt) : (s.modMs f).copying = s.copying := rfl
@[simp] theorem State.modMs_attr (s : State) (f : MemSt → MemSt) : (s.modMs f).attr = s.attr := rfl
@[simp] theorem State.modMs_mill (s : State) (f : MemSt → MemSt) : (s.modMs f).mill = s.mill := rfl
@[simp] theorem State.modMs_coll (s : State) (f : MemSt → MemSt) : (s.modMs f).coll = s.coll := rfl
@[simp] theorem State.modMs_epiHeld (s : State) (f : MemSt → MemSt) : (s.modMs f).epiHeld = s.epiHeld := rfl
@[simp] theorem State.modMs_weir (s : State) (f : MemSt → MemSt) : (s.modMs f).weir = s.weir := rfl
@[simp] theorem State.modMs_lock (s : State) (f : MemSt → MemSt) : (s.modMs f).lock = s.lock := rfl
@[simp] theorem State.modMs_arc (s : State) (f : MemSt → MemSt) : (s.modMs f).arc = s.arc := rfl
@[simp] theorem State.modMs_snap (s : State) (f : MemSt → MemSt) : (s.modMs f).snap = s.snap := rfl
@[simp] theorem State.modMs_spring (s : State) (f : MemSt → MemSt) : (s.modMs f).spring = s.spring := rfl
@[simp] theorem State.modMs_rings (s : State) (f : MemSt → MemSt) : (s.modMs f).rings = s.rings := rfl
@[simp] theorem State.modMs_pwr (s : State) (f : MemSt → MemSt) : (s.modMs f).pwr = s.pwr := rfl
@[simp] theorem State.modMs_st (s : State) (f : MemSt → MemSt) : (s.modMs f).st = s.st := rfl
@[simp] theorem State.modMs_boot (s : State) (f : MemSt → MemSt) : (s.modMs f).boot = s.boot := rfl
@[simp] theorem State.modMs_therm (s : State) (f : MemSt → MemSt) : (s.modMs f).therm = s.therm := rfl

@[simp] theorem State.modMgmt_get (s : State) (f : MgmtSt → MgmtSt) (l : Loc) : (s.modMgmt f).get l = s.get l := rfl
@[simp] theorem State.modMs_get (s : State) (f : MemSt → MemSt) (l : Loc) : (s.modMs f).get l = s.get l := rfl

/-! ### addTry -/

@[simp] theorem State.addTry_pending (s : State) (k : Nat) (x : TryKind) : (s.addTry k x).pending = s.pending := rfl
@[simp] theorem State.addTry_out (s : State) (k : Nat) (x : TryKind) : (s.addTry k x).out = s.out := rfl
@[simp] theorem State.addTry_todo (s : State) (k : Nat) (x : TryKind) : (s.addTry k x).todo = s.todo := rfl
@[simp] theorem State.addTry_freeCtr (s : State) (k : Nat) (x : TryKind) : (s.addTry k x).freeCtr = s.freeCtr := rfl
@[simp] theorem State.addTry_part (s : State) (k : Nat) (x : TryKind) : (s.addTry k x).part = s.part := rfl
@[simp] theorem State.addTry_cyc (s : State) (k : Nat) (x : TryKind) : (s.addTry k x).cyc = s.cyc := rfl
@[simp] theorem State.addTry_cat (s : State) (k : Nat) (x : TryKind) : (s.addTry k x).cat = s.cat := rfl
@[simp] theorem State.addTry_mem (s : State) (k : Nat) (x : TryKind) : (s.addTry k x).mem = s.mem := rfl
@[simp] theorem State.addTry_sched (s : State) (k : Nat) (x : TryKind) : (s.addTry k x).sched = s.sched := rfl
@[simp] theorem State.addTry_schedSeq (s : State) (k : Nat) (x : TryKind) : (s.addTry k x).schedSeq = s.schedSeq := rfl
@[simp] theorem State.addTry_time (s : State) (k : Nat) (x : TryKind) : (s.addTry k x).time = s.time := rfl
@[simp] theorem State.addTry_hs (s : State) (k : Nat) (x : TryKind) : (s.addTry k x).hs = s.hs := rfl
@[simp] theorem State.addTry_mgmt (s : State) (k : Nat) (x : TryKind) : (s.addTry k x).mgmt = s.mgmt := rfl
@[simp] theorem State.addTry_flt (s : State) (k : Nat) (x : TryKind) : (s.addTry k x).flt = s.flt := rfl
@[simp] theorem State.addTry_launches (s : State) (k : Nat) (x : TryKind) : (s.addTry k x).launches = s.launches := rfl
@[simp] theorem State.addTry_aborted (s : State) (k : Nat) (x : TryKind) : (s.addTry k x).aborted = s.aborted := rfl
@[simp] theorem State.addTry_mr (s : State) (k : Nat) (x : TryKind) : (s.addTry k x).mr = s.mr := rfl
@[simp] theorem State.addTry_qs (s : State) (k : Nat) (x : TryKind) : (s.addTry k x).qs = s.qs := rfl
@[simp] theorem State.addTry_ports (s : State) (k : Nat) (x : TryKind) : (s.addTry k x).ports = s.ports := rfl
@[simp] theorem State.addTry_refLost (s : State) (k : Nat) (x : TryKind) : (s.addTry k x).refLost = s.refLost := rfl
@[simp] theorem State.addTry_groupsOut (s : State) (k : Nat) (x : TryKind) : (s.addTry k x).groupsOut = s.groupsOut := rfl
@[simp] theorem State.addTry_macSeen (s : State) (k : Nat) (x : TryKind) : (s.addTry k x).macSeen = s.macSeen := rfl
@[simp] theorem State.addTry_macWritten (s : State) (k : Nat) (x : TryKind) : (s.addTry k x).macWritten = s.macWritten := rfl
@[simp] theorem State.addTry_macLearnt (s : State) (k : Nat) (x : TryKind) : (s.addTry k x).macLearnt = s.macLearnt := rfl
@[simp] theorem State.addTry_ms (s : State) (k : Nat) (x : TryKind) : (s.addTry k x).ms = s.ms := rfl
@[simp] theorem State.addTry_pools (s : State) (k : Nat) (x : TryKind) : (s.addTry k x).pools = s.pools := rfl
@[simp] theorem State.addTry_copying (s : State) (k : Nat) (x : TryKind) : (s.addTry k x).copying = s.copying := rfl
@[simp] theorem State.addTry_attr (s : State) (k : Nat) (x : TryKind) : (s.addTry k x).attr = s.attr := rfl
@[simp] theorem State.addTry_mill (s : State) (k : Nat) (x : TryKind) : (s.addTry k x).mill = s.mill := rfl
@[simp] theorem State.addTry_coll (s : State) (k : Nat) (x : TryKind) : (s.addTry k x).coll = s.coll := rfl
@[simp] theorem State.addTry_epiHeld (s : State) (k : Nat) (x : TryKind) : (s.addTry k x).epiHeld = s.epiHeld := rfl
@[simp] theorem State.addTry_weir (s : State) (k : Nat) (x : TryKind) : (s.addTry k x).weir = s.weir := rfl
@[simp] theorem State.addTry_lock (s : State) (k : Nat) (x : TryKind) : (s.addTry k x).lock = s.lock := rfl
@[simp] theorem State.addTry_arc (s : State) (k : Nat) (x : TryKind) : (s.addTry k x).arc = s.arc := rfl
@[simp] theorem State.addTry_snap (s : State) (k : Nat) (x : TryKind) : (s.addTry k x).snap = s.snap := rfl
@[simp] theorem State.addTry_spring (s : State) (k : Nat) (x : TryKind) : (s.addTry k x).spring = s.spring := rfl
@[simp] theorem State.addTry_rings (s : State) (k : Nat) (x : TryKind) : (s.addTry k x).rings = s.rings := rfl
@[simp] theorem State.addTry_pwr (s : State) (k : Nat) (x : TryKind) : (s.addTry k x).pwr = s.pwr := rfl
@[simp] theorem State.addTry_st (s : State) (k : Nat) (x : TryKind) : (s.addTry k x).st = s.st := rfl
@[simp] theorem State.addTry_boot (s : State) (k : Nat) (x : TryKind) : (s.addTry k x).boot = s.boot := rfl
@[simp] theorem State.addTry_therm (s : State) (k : Nat) (x : TryKind) : (s.addTry k x).therm = s.therm := rfl

@[simp] theorem State.addTry_get (s : State) (k : Nat) (x : TryKind) (l : Loc) : (s.addTry k x).get l = s.get l := rfl
@[simp] theorem State.addTry_tries (s : State) (k : Nat) (x : TryKind) : (s.addTry k x).sw.tries = s.sw.tries ++ [⟨k, x⟩] := rfl
@[simp] theorem State.addTry_pkts (s : State) (k : Nat) (x : TryKind) : (s.addTry k x).sw.pkts = s.sw.pkts := rfl

/-! ### The settings of a domain -/

@[simp] theorem State.setDoms_get (s : State) (f : Nat → Option DomSet) (ks : List Nat) (l : Loc) : (s.setDoms f ks).get l = s.get l := by
  unfold State.setDoms State.modPwr; rfl
@[simp] theorem State.setDoms_mem (s : State) (f : Nat → Option DomSet) (ks : List Nat) : (s.setDoms f ks).mem = s.mem := by
  unfold State.setDoms State.modPwr; rfl

theorem mul_add_inj {c x y o o' : Nat} (ho : o < c) (ho' : o' < c) (e : x * c + o = y * c + o') : x = y := by
  have h := congrArg (· / c) e
  have hc : 0 < c := by omega
  simpa only [Nat.add_comm (x * c), Nat.add_comm (y * c), Nat.add_mul_div_right _ _ hc, Nat.div_eq_of_lt ho, Nat.div_eq_of_lt ho', Nat.zero_add] using h

theorem catKey_ne {a b a' b' i i' o o' : Nat} (h : a * 256 + b ≠ a' * 256 + b') (hi : i < 2 ^ 20) (hi' : i' < 2 ^ 20) (ho : o < 2 ^ 32)
    (ho' : o' < 2 ^ 32) : catKey a b i o ≠ catKey a' b' i' o' := by
  intro e
  exact h (mul_add_inj hi hi' (mul_add_inj ho ho' e))

theorem h_key_ne {e f : Ent} {i j : Nat} (h : e.idx * 256 + e.sub ≠ f.idx * 256 + f.sub) (hi : i < 2 ^ 20) (hj : j < 2 ^ 20) :
    (e.h i).key ≠ (f.h j).key := by
  show catKey (e.idx + 0) (e.sub + 0 * e.subStep) i 0 ≠ catKey (f.idx + 0) (f.sub + 0 * f.subStep) j 0
  exact catKey_ne (by omega) hi hj (by norm_num) (by norm_num)

theorem foldl_emit_ft {α : Type} (f : α → Output) (l : List α) (s : State) :
    (l.foldl (fun st k => st.emit (f k)) s).ft = s.ft := by
  induction l generalizing s with
  | nil => rfl
  | cons a l ih => rw [List.foldl_cons, ih]; rfl

theorem State.get_domPut_ne (s : State) (e : Ent) (n inst off : Nat) (b : List Byte) (l : Loc) (h : ∀ o < off + b.length, l.key ≠ (e.loc n 0 inst o).key) :
    (s.domPut e n inst off b).get l = s.get l := by
  unfold State.domPut
  induction b generalizing off s with
  | nil => rfl
  | cons x b ih =>
    rw [List.foldl_cons]
    refine (ih _ _ fun o ho => h o (by simp at *; omega)).trans (State.get_set_ne _ _ _ _ (h off (by simp)))

theorem State.domPut_mgmt (s : State) (e : Ent) (n inst off : Nat) (b : List Byte) : (s.domPut e n inst off b).mgmt = s.mgmt := by
  unfold State.domPut
  induction b generalizing off s with
  | nil => rfl
  | cons x b ih =>
    rw [List.foldl_cons]
    exact (ih _ _).trans rfl

theorem get_foldl_hk (s : State) (e : Ent) (i : Nat) (l : Loc) (ks : List Nat) (h : ∀ k ∈ ks, l.key ≠ (e.hk i k).key) :
    (ks.foldl (fun st k => st.set (e.hk i k) 0) s).get l = s.get l := by
  induction ks generalizing s with
  | nil => rfl
  | cons x b ih =>
    rw [List.foldl_cons, ih _ (fun k hk => h k (List.mem_cons_of_mem _ hk))]
    exact State.get_set_ne _ _ _ _ (h x List.mem_cons_self)

end Sys2Proof.Machine
end

