-- ==== Sys2Proof/Tests/Slice0.lean ====
section
/-!
SUPPORT. The model's own tests: an ill-formed term for each check of WellFormed, formulas on the spec's examples, single commands on
small states with results taken from the spec by hand, and for each statement of Certificates/Slice0/Obligations.lean a theorem
wit_<its name> with states and operands that meet the hypotheses of its clauses, in their order.
-/

set_option Elab.async false

namespace Sys2Proof.Tests
open Sys2Proof Sys2Proof.Machine

/-- A session: number, role, partition, on MCTP. -/
def sess (id role part : Nat) : Session := ⟨id, .mctp, 8, role, part, [], [], 0, 0, 0, false, 0, []⟩

/-- s with a list of entries set. -/
def sets (s : State) (l : List (Loc × Nat)) : State := l.foldl (fun s x => s.set x.1 x.2) s

/-- A part in service at FT 20,000,000,000 with an Owner, a Tenant of partition 5 and a Factory session. -/
def live : State := sets { State.reset with
    time := { State.reset.time with ft := 20000000000 }
    mgmt := { State.reset.mgmt with sessions := [sess 1 1 4096, sess 2 3 5, sess 3 0 4096], nextSession := 4 } }
  [(E.boot_stage.s, 0), (E.device_ready.s, 1), (E.weir_clock_locked.s, 1)]

/-- s with the domains of a list on. -/
def on (ks : List Nat) (s : State) : State := sets s (ks.map fun k => (E.pwr_dom_status.n k, 0))

/-- A request of session n, and its requester. -/
def rq (n : Nat) : Req := ⟨.mctp, 8, 1, n, 0⟩
def own : Who := ⟨1, 4096, 1, .mctp, false⟩
def ten : Who := ⟨3, 5, 2, .mctp, false⟩
def fac : Who := ⟨0, 4096, 3, .mctp, false⟩

/-- The conditions of `Serves` as a Bool. -/
def servesB (s : State) (r : Req) (w : Who) : Bool :=
  decide (reachable s r = true ∧ s.get E.boot_stage.s ≠ 1 ∧ s.get E.lc_state.s ≠ 0 ∧ s.getB E.device_ready.s = true ∧
    whoOf s r = some w ∧ w.owner ≠ 0 ∧ r.tx = 0)

theorem serves_of {s : State} {r : Req} {w : Who} (h : servesB s r w = true) : Serves s r w := by
  have := of_decide_eq_true h; exact ⟨this.1, this.2.1, this.2.2.1, this.2.2.2.1, this.2.2.2.2.1, this.2.2.2.2.2.1, this.2.2.2.2.2.2⟩

/-- The conditions of `ServesTx` as a Bool. -/
def servesTxB (s : State) (r : Req) (w : Who) (x : Tx) : Bool :=
  decide (reachable s r = true ∧ s.get E.boot_stage.s ≠ 1 ∧ s.get E.lc_state.s ≠ 0 ∧ s.getB E.device_ready.s = true ∧
    whoOf s r = some w ∧ w.owner ≠ 0 ∧ r.tx ≠ 0 ∧ s.txOf w r.tx = some x)

theorem servesTx_of {s : State} {r : Req} {w : Who} {x : Tx} (h : servesTxB s r w x = true) : ServesTx s r w x := by
  have := of_decide_eq_true h
  exact ⟨this.1, this.2.1, this.2.2.1, this.2.2.2.1, this.2.2.2.2.1, this.2.2.2.2.2.1, this.2.2.2.2.2.2.1, this.2.2.2.2.2.2.2⟩

/-- The conditions of `Accepts` as a Bool. -/
def acceptsB (s : State) (r : Req) (w : Who) (e : Ent) (n k h v : Nat) : Bool :=
  servesB s r w &&
    (match writeGate5 s w (writeIt e n k h v) with | .ok x => decide (x = (e, n, k, hIdx h)) | .error _ => false) &&
    decide (v < 256 ^ e.len ∧ e.rng.ok v = true ∧ holdSrc s w e (hIdx h) v = none ∧
      (stateRequest e && s.cyc.touched.contains (typeOfTemplate e.idx * 2 ^ 20 + hIdx h)) = false)

theorem accepts_of {s : State} {r : Req} {w : Who} {e : Ent} {n k h v : Nat} (a : acceptsB s r w e n k h v = true) :
    Accepts s r w e n k h v := by
  unfold acceptsB at a
  rw [Bool.and_eq_true, Bool.and_eq_true] at a
  obtain ⟨⟨a, b⟩, c⟩ := a
  have := of_decide_eq_true c
  refine ⟨serves_of a, ?_, this.1, this.2.1, this.2.2.1, this.2.2.2⟩
  revert b
  cases writeGate5 s w (writeIt e n k h v) with
  | error x => intro b; exact absurd b Bool.false_ne_true
  | ok x => intro b; rw [of_decide_eq_true b]

/-- FrameHeard as a computation. -/
def heardB (s : State) (p : Nat) (x : MrRx) (f : MrFrame) : Bool :=
  decide ((s.get (E.millrace_state.n p) = 4 ∨ s.get (E.millrace_state.n p) = 5) ∧ s.get (E.millrace_loopback.n p) = 0 ∧
    s.get (E.millrace_prbs.n p) = 0 ∧ (mrOf s p).bubble = false ∧ s.get (E.millrace_rx_state.n p) = 1) &&
  (match mrHear s p x with
    | .frame g _ => decide (g = f)
    | _ => false)

theorem heard_of {s : State} {p : Nat} {x : MrRx} {f : MrFrame} (h : heardB s p x f = true) : FrameHeard s p x f := by
  unfold heardB at h
  rw [Bool.and_eq_true] at h
  obtain ⟨h, g⟩ := h
  have := of_decide_eq_true h
  refine ⟨this.1, this.2.1, this.2.2.1, this.2.2.2.1, this.2.2.2.2, ?_⟩
  revert g
  cases mrHear s p x with
  | frame f' rd => intro g; exact ⟨rd, by rw [of_decide_eq_true g]⟩
  | bad rd => intro g; exact absurd g Bool.false_ne_true
  | bubble => intro g; exact absurd g Bool.false_ne_true

theorem frame_of {s : State} {p : Nat} {x : MrRx} {f : MrFrame}
    (h : (decide (s.get (E.millrace_state.n p) = 5) && heardB s p x f) = true) : FrameTaken s p x f := by
  rw [Bool.and_eq_true] at h
  exact ⟨of_decide_eq_true h.1, heard_of h.2⟩

/-- What a computed option holds. -/
theorem get_of {α : Type} {o : Option α} (h : o.isSome = true) : o = some (o.get h) := (Option.some_get h).symm

theorem eta_of {α β : Type} (p : α × β) : p = (p.1, p.2) := rfl

theorem of_fst {α β : Type} {p : Nat × α × β} (h : p.1 = 0) : p = (0, p.2.1, p.2.2) := Prod.ext h rfl

theorem pair_of {α β : Type} {p : Option α × β} (h : p.1.isSome = true) : p = (some (p.1.get h), p.2) :=
  Prod.ext (get_of h) rfl

theorem triple_of {α β γ : Type} {p : Option (α × β) × γ} (h : p.1.isSome = true) :
    p = (some ((p.1.get h).1, (p.1.get h).2), p.2) := Prod.ext (get_of h) rfl

/-- Frame f as a partner at negative disparity sends it. -/
def rxOf (f : MrFrame) : MrRx := frameSent f (false, false)

/-- No symbols. -/
def rx0 : MrRx := ⟨0, [], 0⟩

/-! ### Well-formedness -/

theorem test_illFormed_1 :
    [.read (⟨.mctp, 8, 65536, 1, 0⟩) [], .read (rq 1) ([⟨65536, 0, 0, 0, 0, []⟩]), .write (⟨.mctp, 8, 65536, 1, 0⟩) [],
    .write (rq 1) ([⟨65536, 0, 0, 0, 0, []⟩]), .readBlock (⟨.mctp, 8, 65536, 1, 0⟩) [],
    .readBlock (rq 1) ([⟨65536, 0, 0, 0, 0, []⟩]), .writeBlock (⟨.mctp, 8, 65536, 1, 0⟩) [],
    .writeBlock (rq 1) ([⟨65536, 0, 0, 0, 0, []⟩]), .create (⟨.mctp, 8, 65536, 1, 0⟩) [],
    .create (rq 1) ([⟨65536, 0, 0, 0, 0, []⟩]), .destroy (⟨.mctp, 8, 65536, 1, 0⟩) [],
    .destroy (rq 1) ([⟨65536, 0, 0, 0, 0, []⟩]), .txOpen (⟨.mctp, 8, 65536, 1, 0⟩), .txCommit (⟨.mctp, 8, 65536, 1, 0⟩) 0,
    .txCommit (rq 1) (2 ^ 64), .txAbort (⟨.mctp, 8, 65536, 1, 0⟩), .txStatus (⟨.mctp, 8, 65536, 1, 0⟩),
    .txInactivityTimeout (2 ^ 32), .sessionOpen (⟨.mctp, 8, 65536, 1, 0⟩) [], .sessionClose (⟨.mctp, 8, 65536, 1, 0⟩),
    .subscribe (⟨.mctp, 8, 65536, 1, 0⟩) [], .subscribe (rq 1) ([⟨65536, 0, 0, 0, 0, []⟩]), .mctpMessage 256 [],
    .mailboxDoorbell ⟨2 ^ 32, 0⟩ [], .mailboxDoorbell ⟨0, 2 ^ 32⟩ [], .mailboxDoorbell ⟨0, 0⟩ (List.replicate 4097 0), .quarantineEnd 0 0, .quarantineEnd 11 0,
    .quarantineEnd 1 (2 ^ 20), .timeMark 8 rx0 0, .timeMark 0 rx0 (2 ^ 64), .missedTimeMarks 8,
    .ftLocalSet (⟨.mctp, 8, 65536, 1, 0⟩) 0, .ftLocalSet (rq 1) (2 ^ 64), .ftLaunchAt (⟨.mctp, 8, 65536, 1, 0⟩) 0,
    .ftLaunchAt (rq 1) (2 ^ 64), .ftLaunchCancel (⟨.mctp, 8, 65536, 1, 0⟩) 0, .ftLaunchCancel (rq 1) (2 ^ 8),
    .arm 8 rx0 0 0, .arm 0 rx0 (2 ^ 32) 0, .arm 0 rx0 0 (2 ^ 64), .confirm 8 rx0 0, .confirm 0 rx0 (2 ^ 32),
    .abort 8 rx0 0, .abort 0 rx0 (2 ^ 32), .confirmDeadline (2 ^ 32), .abortedSequenceExpire (2 ^ 32),
    .missedNoticeRepeat 8, .missedNoticeSleepAgain 8, .millraceRoleWrite (⟨.mctp, 8, 65536, 1, 0⟩) 0 0,
    .millraceRoleWrite (rq 1) 8 0, .millraceRoleWrite (rq 1) 0 (2 ^ 8), .detectProbe 8 true, .trainPhaseAligned 8,
    .symbolLockAchieved 8, .bringupTimeout 8, .capability 8 rx0 (List.replicate 12 0), .capability 0 rx0 [],
    .roleMismatchRetry 8, .delayProbe 8 rx0 0 0, .delayProbe 0 rx0 (2 ^ 16) 0].all
      (fun i : Instr => !i.wf) = true := by decide +kernel

theorem test_illFormed_2 :
    [.delayProbe 0 rx0 0 (2 ^ 16), .delayEcho 8 rx0 0 0 0, .delayEcho 0 rx0 (2 ^ 16) 0 0, .delayEcho 0 rx0 0 (2 ^ 16) 0,
    .codeError 8, .millraceLockLoss 8 true true, .clockLost 8, .millraceLoopbackWrite (⟨.mctp, 8, 65536, 1, 0⟩) 0 0,
    .millraceLoopbackWrite (rq 1) 8 0, .millraceLoopbackWrite (rq 1) 0 (2 ^ 8),
    .millracePrbsWrite (⟨.mctp, 8, 65536, 1, 0⟩) 0 0, .millracePrbsWrite (rq 1) 8 0, .millracePrbsWrite (rq 1) 0 (2 ^ 8),
    .txSleep (⟨.mctp, 8, 65536, 1, 0⟩) 0 0, .txSleep (rq 1) 8 0, .txSleep (rq 1) 0 (2 ^ 8), .sleep 8 rx0,
    .txWakeTimeout 8, .receiveWake 8, .sendWake (⟨.mctp, 8, 65536, 1, 0⟩) 0 0, .sendWake (rq 1) 8 0,
    .sendWake (rq 1) 0 (2 ^ 8), .wake 8, .barrierRelease 8 rx0 0, .barrierRelease 0 rx0 (2 ^ 32),
    .lockStepDigest 8 rx0 (List.replicate 20 0), .lockStepDigest 0 rx0 [], .lockStepDigest 0 rx0 (List.replicate 269 0),
    .laneLost 1024, .laneGood 1024 0, .laneGood 0 (2 ^ 16), .referenceLost 4, .portWidth (⟨.mctp, 8, 65536, 1, 0⟩) 0 0,
    .portWidth (rq 1) 1024 0, .portWidth (rq 1) 0 (2 ^ 8), .portMode (⟨.mctp, 8, 65536, 1, 0⟩) 0 0,
    .portMode (rq 1) 1024 0, .portMode (rq 1) 0 (2 ^ 8), .portFec (⟨.mctp, 8, 65536, 1, 0⟩) 0 0, .portFec (rq 1) 1024 0,
    .portFec (rq 1) 0 (2 ^ 8), .portRole (⟨.mctp, 8, 65536, 1, 0⟩) 0 0, .portRole (rq 1) 1024 0,
    .portRole (rq 1) 0 (2 ^ 8), .portAn (⟨.mctp, 8, 65536, 1, 0⟩) 0 0, .portAn (rq 1) 1024 0, .portAn (rq 1) 0 (2 ^ 8),
    .portControlRole (⟨.mctp, 8, 65536, 1, 0⟩) 0 true 0, .portControlRole (rq 1) 1024 true 0,
    .portControlRole (rq 1) 0 true (2 ^ 16), .trainingDone 1024 0, .trainingDone 0 256, .trainingTimeout 1024 true,
    .partialTrainingDegrade 1024, .fecDegraded 1024 (.errors []), .rillFrameReceive 1024 [] 0 [] true 0 0,
    .rillFrameReceive 0 [] (2 ^ 32) [] true 0 0, .rillFrameReceive 0 [] 0 [] true 0 (2 ^ 64), .laneStatusMarker 1024,
    .laneStatusBlock 1024 (List.replicate 8 0)].all
      (fun i : Instr => !i.wf) = true := by decide +kernel

theorem test_illFormed_3 :
    [.laneStatusBlock 0 [], .ethernetFrameReceive 1024 [] 0 true [] 0 0, .ethernetFrameReceive 0 [] (2 ^ 32) true [] 0 0,
    .ethernetFrameReceive 0 [] 0 true [] 0 (2 ^ 64), .restoreHoldExpire 1024,
    .portRestore (⟨.mctp, 8, 65536, 1, 0⟩) 0 0, .portRestore (rq 1) 1024 0, .portRestore (rq 1) 0 (2 ^ 8),
    .portLoopback (⟨.mctp, 8, 65536, 1, 0⟩) 0 0, .portLoopback (rq 1) 1024 0, .portLoopback (rq 1) 0 (2 ^ 8),
    .portPrbs (⟨.mctp, 8, 65536, 1, 0⟩) 0 0, .portPrbs (rq 1) 1024 0, .portPrbs (rq 1) 0 (2 ^ 8),
    .rillPacketArrival 1024 [] 0 0, .rillPacketArrival 0 [] 0 (2 ^ 64), .bundleAdapt 1024, .schedulerDecision 1024,
    .packetTransmitted 1024, .queueAvgDecay 1024 0, .queueAvgDecay 0 16, .planeEnable (⟨.mctp, 8, 65536, 1, 0⟩) 0,
    .planeEnable (rq 1) (2 ^ 32), .planeSelfCheckFail 2, .rsvRedSeed (⟨.mctp, 8, 65536, 1, 0⟩) 0,
    .rsvRedSeed (rq 1) (2 ^ 32), .rsvWindowRegion (⟨.mctp, 8, 65536, 1, 0⟩) 0, .rsvWindowRegion (rq 1) (2 ^ 8),
    .gateStart (⟨.mctp, 8, 65536, 1, 0⟩) 0 0, .gateStart (rq 1) (2 ^ 32) 0, .gateStart (rq 1) 0 (2 ^ 64),
    .gateBoundary 1024, .gateStop (⟨.mctp, 8, 65536, 1, 0⟩) 0 0, .gateStop (rq 1) (2 ^ 32) 0, .gateStop (rq 1) 0 (2 ^ 8),
    .gateSwitchAt (⟨.mctp, 8, 65536, 1, 0⟩) 0 0, .gateSwitchAt (rq 1) (2 ^ 32) 0, .gateSwitchAt (rq 1) 0 (2 ^ 64),
    .collectiveArm (⟨.mctp, 8, 65536, 1, 0⟩) 0 0, .collectiveArm (rq 1) (2 ^ 32) 0, .collectiveArm (rq 1) 0 (2 ^ 8),
    .collectiveDisarm (⟨.mctp, 8, 65536, 1, 0⟩) 0 0, .collectiveDisarm (rq 1) (2 ^ 32) 0,
    .collectiveDisarm (rq 1) 0 (2 ^ 8), .segmentReductionDone 16384 0, .epilogueResult 16384 0, .epiloguePlaceFree 8,
    .laggardTimeout 16384 0, .millJobStart 0 [272], .millFailure 272 .selfCheck, .windowOpen (⟨.mctp, 8, 65536, 1, 0⟩) 0 0,
    .windowOpen (rq 1) (2 ^ 32) 0, .windowOpen (rq 1) 0 (2 ^ 8), .windowClosingEnd 16384,
    .cxlInvalidate (⟨.mctp, 8, 65536, 1, 0⟩) 0 0, .cxlInvalidate (rq 1) 8 0, .cxlInvalidate (rq 1) 0 (2 ^ 8),
    .cxlPortLost 8, .cxlDeviceAppear 8 0 0 0 true, .cxlDeviceAppear 0 17 0 0 true,
    .cxlResume (⟨.mctp, 8, 65536, 1, 0⟩) 0 0].all
      (fun i : Instr => !i.wf) = true := by decide +kernel

theorem test_illFormed_4 :
    [.cxlResume (rq 1) 8 0, .cxlResume (rq 1) 0 (2 ^ 8), .cxlEnable (⟨.mctp, 8, 65536, 1, 0⟩) 0 0, .cxlEnable (rq 1) 8 0,
    .cxlEnable (rq 1) 0 (2 ^ 8), .hbmStackFail 8, .poolEnable (⟨.mctp, 8, 65536, 1, 0⟩) 0 0, .poolEnable (rq 1) (2 ^ 32) 0,
    .poolEnable (rq 1) 0 (2 ^ 8), .poolFillDone 256, .poolAlloc (⟨.mctp, 8, 65536, 1, 0⟩) 0, .poolAlloc (rq 1) (2 ^ 32),
    .poolFree (⟨.mctp, 8, 65536, 1, 0⟩) 0 0, .poolFree (rq 1) (2 ^ 32) 0, .poolFree (rq 1) 0 (2 ^ 64),
    .poolShare (⟨.mctp, 8, 65536, 1, 0⟩) 0 0, .poolShare (rq 1) (2 ^ 32) 0, .poolShare (rq 1) 0 (2 ^ 64),
    .poolRefillDone 256, .sequenceActivate (⟨.mctp, 8, 65536, 1, 0⟩) 0 0, .sequenceActivate (rq 1) (2 ^ 32) 0,
    .sequenceActivate (rq 1) 0 (2 ^ 8), .prefixCopyDone 65536, .sequenceReserve (⟨.mctp, 8, 65536, 1, 0⟩) 0 0,
    .sequenceReserve (rq 1) (2 ^ 32) 0, .sequenceReserve (rq 1) 0 (2 ^ 32), .sequenceLength (⟨.mctp, 8, 65536, 1, 0⟩) 0 0,
    .sequenceLength (rq 1) (2 ^ 32) 0, .sequenceLength (rq 1) 0 (2 ^ 32), .weirClockMode (⟨.mctp, 8, 65536, 1, 0⟩) 0,
    .weirClockMode (rq 1) (2 ^ 8), .weirStart (⟨.mctp, 8, 65536, 1, 0⟩) 0, .weirStart (rq 1) (2 ^ 64),
    .weirStartOnLaunch (⟨.mctp, 8, 65536, 1, 0⟩) 0, .weirStartOnLaunch (rq 1) (2 ^ 8),
    .weirStop (⟨.mctp, 8, 65536, 1, 0⟩) 0, .weirStop (rq 1) (2 ^ 8), .weirEngines (⟨.mctp, 8, 65536, 1, 0⟩) 0,
    .weirEngines (rq 1) (2 ^ 32), .weirMills (⟨.mctp, 8, 65536, 1, 0⟩) 0, .weirMills (rq 1) (2 ^ 16),
    .lockstepStart (⟨.mctp, 8, 65536, 1, 0⟩) 0, .lockstepStart (rq 1) (2 ^ 64),
    .lockstepStartOnLaunch (⟨.mctp, 8, 65536, 1, 0⟩) 0, .lockstepStartOnLaunch (rq 1) (2 ^ 8),
    .lockstepStop (⟨.mctp, 8, 65536, 1, 0⟩) 0, .lockstepStop (rq 1) (2 ^ 8), .snapAt (⟨.mctp, 8, 65536, 1, 0⟩) 0,
    .snapAt (rq 1) (2 ^ 64), .attrReset (⟨.mctp, 8, 65536, 1, 0⟩) 0, .attrReset (rq 1) (2 ^ 8),
    .traceOpenAt (⟨.mctp, 8, 65536, 1, 0⟩) 0 0, .traceOpenAt (rq 1) (2 ^ 32) 0, .traceOpenAt (rq 1) 0 (2 ^ 64),
    .traceCloseAt (⟨.mctp, 8, 65536, 1, 0⟩) 0 0, .traceCloseAt (rq 1) (2 ^ 32) 0, .traceCloseAt (rq 1) 0 (2 ^ 64),
    .traceNext (⟨.mctp, 8, 65536, 1, 0⟩) 0, .traceNext (rq 1) (2 ^ 32), .springStart (⟨.mctp, 8, 65536, 1, 0⟩) 0 0].all
      (fun i : Instr => !i.wf) = true := by decide +kernel

theorem test_illFormed_5 :
    [.springStart (rq 1) (2 ^ 32) 0, .springStart (rq 1) 0 (2 ^ 64), .springStartOnLaunch (⟨.mctp, 8, 65536, 1, 0⟩) 0 0,
    .springStartOnLaunch (rq 1) (2 ^ 32) 0, .springStartOnLaunch (rq 1) 0 (2 ^ 8),
    .springStop (⟨.mctp, 8, 65536, 1, 0⟩) 0 0, .springStop (rq 1) (2 ^ 32) 0, .springStop (rq 1) 0 (2 ^ 8),
    .gaugeEnable (⟨.mctp, 8, 65536, 1, 0⟩) 0 0, .gaugeEnable (rq 1) (2 ^ 32) 0, .gaugeEnable (rq 1) 0 (2 ^ 8),
    .fwVerify (⟨.mctp, 8, 65536, 1, 0⟩) 0, .fwVerify (rq 1) (2 ^ 8), .fwActivate (⟨.mctp, 8, 65536, 1, 0⟩) 0,
    .fwActivate (rq 1) (2 ^ 64), .fwCommit (⟨.mctp, 8, 65536, 1, 0⟩) 0, .fwCommit (rq 1) (2 ^ 8),
    .lcAdvance (⟨.mctp, 8, 65536, 1, 0⟩) 0, .lcAdvance (rq 1) (2 ^ 8), .spdmRequest 256 [], .setEndpointId 256,
    .mctpRestart (⟨.mctp, 8, 65536, 1, 0⟩) 0, .mctpRestart (rq 1) (2 ^ 8), .ringTail 4 ⟨0, 0⟩ [], .ringTail 0 ⟨2 ^ 32, 0⟩ [], .ringTail 0 ⟨0, 2 ^ 32⟩ [],
    .hringEnable (⟨.mctp, 8, 65536, 1, 0⟩) 0 0, .hringEnable (rq 1) 4 0, .hringEnable (rq 1) 0 (2 ^ 8),
    .ringRecordDeliver 4, .ringIrqHoldoff 4, .txDescriptor [], .faultSetting [1024],
    .faultPinRearm (⟨.mctp, 8, 65536, 1, 0⟩) 0, .faultPinRearm (rq 1) (2 ^ 8), .faultInject (⟨.mctp, 8, 65536, 1, 0⟩) 0,
    .faultInject (rq 1) (2 ^ 16), .pwrTarget (⟨.mctp, 8, 65536, 1, 0⟩) 0, .pwrTarget (rq 1) (2 ^ 8),
    .pwrEnterAt (⟨.mctp, 8, 65536, 1, 0⟩) 0 0, .pwrEnterAt (rq 1) (2 ^ 64) 0, .pwrEnterAt (rq 1) 0 256,
    .pwrDomRequest (⟨.mctp, 8, 65536, 1, 0⟩) 0 0, .pwrDomRequest (rq 1) 64 0, .pwrDomRequest (rq 1) 0 (2 ^ 8),
    .wakeEvent 16, .laneSignalWake 1024, .rampWindowEnd 64 true, .domainUsable 64,
    .pwrDomRetry (⟨.mctp, 8, 65536, 1, 0⟩) 0 0, .pwrDomRetry (rq 1) 64 0, .pwrDomRetry (rq 1) 0 (2 ^ 8),
    .stShutdown (⟨.mctp, 8, 65536, 1, 0⟩) 0, .stShutdown (rq 1) (2 ^ 64), .shutdownTest true (2 ^ 16),
    .laneRuntimeRepair 8 0, .laneRuntimeRepair 0 64, .recableOpenAt (⟨.mctp, 8, 65536, 1, 0⟩) 0,
    .recableOpenAt (rq 1) (2 ^ 64), .recableClose (⟨.mctp, 8, 65536, 1, 0⟩) 0, .recableClose (rq 1) (2 ^ 8)].all
      (fun i : Instr => !i.wf) = true := by decide +kernel

theorem test_illFormed_6 :
    [.rackResetAt (⟨.mctp, 8, 65536, 1, 0⟩) 0, .rackResetAt (rq 1) (2 ^ 64), .bubbleEnd 8 0,
    .missedNotice 8 rx0 (List.replicate 20 0), .missedNotice 0 rx0 [], .barrierArrive 8 rx0 0,
    .barrierArrive 0 rx0 (2 ^ 32), .transmitWakeDone 8, .blockResetDone 64, .selftestRailOutOfWindow (2 ^ 16),
    .read ⟨.mctp, 8, 0, 2 ^ 32, 0⟩ [], .read ⟨.mctp, 8, 0, 0, 2 ^ 32⟩ [], .read ⟨.control 1024, 8, 0, 0, 0⟩ [],
    .read (rq 1) [⟨0, 256, 0, 0, 0, []⟩], .read (rq 1) [⟨0, 0, 256, 0, 0, []⟩], .read (rq 1) [⟨0, 0, 0, 2 ^ 32, 0, []⟩],
    .read (rq 1) [⟨0, 0, 0, 0, 65536, []⟩]].all
      (fun i : Instr => !i.wf) = true := by decide +kernel

theorem test_wellFormed_1 :
    [.read (rq 1) [], .write (rq 1) [], .readBlock (rq 1) [], .writeBlock (rq 1) [], .create (rq 1) [], .destroy (rq 1) [],
    .txOpen (rq 1), .txCommit (rq 1) 0, .txCommitFire, .txAbort (rq 1), .txStatus (rq 1), .txInactivityTimeout 0,
    .sessionOpen (rq 1) [], .sessionClose (rq 1), .subscribe (rq 1) [], .pduReceive .mctp 0 [], .mctpMessage 0 [],
    .udpDatagram 0 [], .mailboxDoorbell ⟨0, 0⟩ [], .mailboxResponseDone, .quarantineEnd 1 0, .creationQuietEnd, .ftTick,
    .timeMark 0 rx0 0, .missedTimeMarks 0, .holdoverExpire, .ftLocalSet (rq 1) 0, .ftLaunchAt (rq 1) 0,
    .ftLaunchCancel (rq 1) 0, .launchFire, .arm 0 rx0 0 0, .confirm 0 rx0 0, .abort 0 rx0 0, .confirmDeadline 0,
    .abortedSequenceExpire 0, .missedNoticeRepeat 0, .missedNoticeSleepAgain 0, .millraceRoleWrite (rq 1) 0 0,
    .detectProbe 0 true, .trainPhaseAligned 0, .symbolLockAchieved 0, .bringupTimeout 0,
    .capability 0 rx0 (List.replicate 12 0), .roleMismatchRetry 0, .delayProbe 0 rx0 0 0, .delayEcho 0 rx0 0 0 0,
    .codeError 0, .millraceLockLoss 0 true true, .clockLost 0, .millraceLoopbackWrite (rq 1) 0 0,
    .millracePrbsWrite (rq 1) 0 0, .txSleep (rq 1) 0 0, .sleep 0 rx0, .txWakeTimeout 0, .receiveWake 0,
    .sendWake (rq 1) 0 0, .wake 0, .barrierRelease 0 rx0 0, .lockStepDigest 0 rx0 (List.replicate 20 0), .digestMissing,
    .laneLost 0, .laneGood 0 0, .referenceLost 0, .portWidth (rq 1) 0 0, .portMode (rq 1) 0 0, .portFec (rq 1) 0 0,
    .portRole (rq 1) 0 0, .portAn (rq 1) 0 0, .portControlRole (rq 1) 0 true 0, .trainingDone 0 0, .trainingTimeout 0 true,
    .partialTrainingDegrade 0, .fecDegraded 0 (.errors []), .rillFrameReceive 0 [] 0 [] true 0 0, .laneStatusMarker 0,
    .laneStatusBlock 0 (List.replicate 8 0), .ethernetFrameReceive 0 [] 0 true [] 0 0, .macAgeing,
    .restoreHoldExpire 0, .portRestore (rq 1) 0 0].all
      (fun i : Instr => i.wf) = true := by decide +kernel

theorem test_wellFormed_2 :
    [.portLoopback (rq 1) 0 0, .portPrbs (rq 1) 0 0, .rillPacketArrival 0 [] 0 0, .eddyReentry 0, .arrivalFaultWindow,
    .bundleAdapt 0, .cellTimeMatch, .schedulerDecision 0, .packetTransmitted 0, .queueAvgDecay 0 0, .planeEnable (rq 1) 0,
    .planeSelfCheckFail 0, .rsvRedSeed (rq 1) 0, .rsvWindowRegion (rq 1) 0, .reservoirUncorrectable (.packet 0) 0 0, .queueSample,
    .gateStart (rq 1) 0 0, .gateStartFire, .gateBoundary 0, .gateStop (rq 1) 0 0, .gateSwitchAt (rq 1) 0 0,
    .gateSwitchLand, .collectiveArm (rq 1) 0 0, .collectiveDisarm (rq 1) 0 0, .segmentReductionDone 0 0,
    .epilogueResult 0 0, .epiloguePlaceFree 0, .laggardTimeout 0 0, .millJobStart 0 [], .millJobComplete 0 [] 0,
    .millJobTimeout 0, .millFailure 0 .selfCheck, .memoryAccessComplete 0 .clean, .windowOpen (rq 1) 0 0, .windowClosingEnd 0,
    .t2FillReturn 0 0 true, .cxlInvalidate (rq 1) 0 0, .cxlTimeout 0, .cxlPortLost 0, .cxlDeviceAppear 0 0 0 0 true,
    .cxlResume (rq 1) 0 0, .cxlEnable (rq 1) 0 0, .hbmStackFail 0, .poolEnable (rq 1) 0 0, .poolFillDone 0,
    .poolAlloc (rq 1) 0, .poolFree (rq 1) 0 0, .poolShare (rq 1) 0 0, .poolRefillDone 0, .sequenceActivate (rq 1) 0 0,
    .prefixCopyDone 0, .sequenceReserve (rq 1) 0 0, .sequenceLength (rq 1) 0 0, .weirClockMode (rq 1) 0,
    .weirStart (rq 1) 0, .weirStartOnLaunch (rq 1) 0, .weirStartFire, .weirCycleBoundary, .weirStop (rq 1) 0,
    .weirEngines (rq 1) 0, .weirMills (rq 1) 0, .lockstepStart (rq 1) 0, .lockstepStartOnLaunch (rq 1) 0,
    .lockstepWindowClose, .lockstepStop (rq 1) 0, .snapAt (rq 1) 0, .snapshotFire, .snapshotShadowReady,
    .attrReset (rq 1) 0, .traceOpenAt (rq 1) 0 0, .traceOpenFire, .traceCloseAt (rq 1) 0 0, .traceCloseFire,
    .traceNext (rq 1) 0, .springStart (rq 1) 0 0, .springStartOnLaunch (rq 1) 0 0, .springStartFire, .springPacketCreate,
    .springStop (rq 1) 0 0, .gaugeEnable (rq 1) 0 0].all
      (fun i : Instr => i.wf) = true := by decide +kernel

theorem test_wellFormed_3 :
    [.curatorSafetyMismatch, .curatorWatchdogRestart, .curatorReady, .fwVerify (rq 1) 0, .fwActivate (rq 1) 0,
    .fwActivateFire, .fwFallback, .fwCommit (rq 1) 0, .lcAdvance (rq 1) 0, .spdmRequest 0 [], .setEndpointId 0,
    .sidebandStuck, .sidebandRecoveryRound true, .sidebandFailed true, .mctpRestart (rq 1) 0, .mgmtFrameReceive [],
    .apertureAccess true 0 0 [], .ringTail 0 ⟨0, 0⟩ [], .hringEnable (rq 1) 0 0, .ringRecordDeliver 0, .ringIrqHoldoff 0,
    .txDescriptor (List.replicate 16 0), .faultSetting [], .chipResetReaction, .faultNExternal true, .faultNStuck,
    .faultPinRearm (rq 1) 0, .faultInject (rq 1) 0, .pwrTarget (rq 1) 0, .pwrEnterAt (rq 1) 0 0, .pwrEnterFire,
    .pwrDomRequest (rq 1) 0 0, .drainDone, .drainLimit, .wakeEvent 0, .laneSignalWake 0, .domainAdmit,
    .rampWindowEnd 0 true, .domainUsable 0, .pwrDomRetry (rq 1) 0 0, .pwrWarnAssert, .pwrWarnDeassert, .holdWindowExpire,
    .stShutdown (rq 1) 0, .shutdownTest true 0, .laneRuntimeRepair 0 0, .recableOpenAt (rq 1) 0, .recableOpenFire,
    .recableClose (rq 1) 0, .recableLimit, .rackResetAt (rq 1) 0, .rackResetFire, .powerOn, .chipReset, .bootStageEnd [],
    .stageLimitOverrun [], .vinIvrLow, .vddAonLow, .thermalSample [] [], .throttleStepDown, .throttleStepUp,
    .bubbleEnd 0 0, .missedNotice 0 rx0 (List.replicate 20 0), .barrierArrive 0 rx0 0, .transmitWakeDone 0,
    .coreClockLocked, .sessionLockoutEnd, .blockResetDone 0, .vddSdWaitTimeout, .vinIvrRecovered,
    .selftestRailOutOfWindow 0].all
      (fun i : Instr => i.wf) = true := by decide +kernel

theorem test_illFormed_longItem (b : List Byte) (h : b.length = 65536) : (⟨0, 0, 0, 0, 0, b⟩ : Item).wf = false := by
  simp [Item.wf, h]

theorem test_illFormed_longOpen (b : List Byte) (h : b.length = 65536) : (Instr.sessionOpen (rq 1) b).wf = false := by
  simp [Instr.wf, h]

/-! ### States -/

/-- live with an action pending. -/
def acting (ft : Nat) (k : ActKind) : State := live.schedule ft k

/-- live with Millrace port 0 Active upstream and Locked to it, and port 4 Active downstream. -/
def mr0 : State := sets live [(E.millrace_state.n 0, 5), (E.millrace_rx_state.n 0, 1), (E.millrace_tx_state.n 0, 1),
  (E.ft_source_port.s, 0), (E.ft_sync_state.s, 2), (E.millrace_role.n 4, 2), (E.millrace_state.n 4, 5),
  (E.millrace_rx_state.n 4, 1), (E.millrace_tx_state.n 4, 1), (E.millrace_role.n 7, 3), (E.millrace_state.n 7, 5),
  (E.millrace_rx_state.n 7, 1)]

/-- live with Millrace port 0 in Capability. -/
def mr4 : State := sets live [(E.millrace_state.n 0, 4), (E.millrace_rx_state.n 0, 1), (E.millrace_tx_state.n 0, 1)]

/-- live with an x8 Rill port at lane 0 in state st. -/
def port (st : Nat) : State := sets live [(E.port_width.n 0, 8), (E.port_role.n 0, 1), (E.port_state.n 0, st),
  (E.port_active_width.n 0, 8)]

/-- Its link record with a change. -/
def portWith (st : Nat) (f : PortRt → PortRt) : State := (port st).modPort 0 f

/-- live with an x8 Ethernet port at lane 0 in service. -/
def ethPort : State := sets live [(E.port_width.n 0, 8), (E.port_role.n 0, 3), (E.port_mode.n 0, 1), (E.port_state.n 0, 2)]

def laneBytes : List Byte := [0, 0xFF, 0xFF, 0, 0, 0, 0]

def frame60 : List Byte := [1, 0x80, 0xC2, 0, 0, 0] ++ List.replicate 6 2 ++ [0x88, 0x09] ++ List.replicate 46 0

/-- A frame of 60 bytes to a station. -/
def frame61 : List Byte := [2, 0, 0, 0, 0, 1] ++ List.replicate 6 2 ++ [0x88, 0x09] ++ List.replicate 46 0

def hdr : Rill := ⟨1, 1, 0, 0, 0, 0, 5, 1000, 64, false, [0, 0, 0, 0], [0, 0, 0, 0], 0, 0, 0, 0, 0, 0, 0, 0, 0, true⟩

/-- A packet of one cell for queue 0 of port 0. -/
def pkt : Pkt := ⟨1, .rill hdr [], 0, 0, 8, 0, 0, 1, 1, 0, 0, 19999999800, 19999999800, 0, 0, 0, 0, 0, false, false, 0, 0, 0, 0⟩

/-- A packet whose cell has crossed, in queue 0 of port 0, and the scheduler's choice. -/
def sendable : State := { port 2 with sw := { live.sw with pkts := [{ pkt with crossed := 1, granted := 1 }] } }

def picked : Nat × State := ((sendable.gateWaits 0 20000000000).schedPick 0 20000000000).get (by decide +kernel)

/-- live with gate schedules 0 and 1 of partition 5 on port 0, the first in state st. -/
def gated (st : Nat) : State := sets (((port 2).makeLive 9 0 5).makeLive 9 1 5)
  [(E.gate_port.h 0, 0), (E.gate_port.h 1, 0), (E.gate_state.h 0, st), (E.gate_alternate.h 0, 0x90100001),
   (E.gate_entries.h 0, 1), (E.sched_gate_schedule.n 0, if st = 2 then 0x90100000 else 0)]

/-- port 2 with a collective of partition 5 whose only member is port 0, in state st. -/
def coll (st : Nat) : State := sets ((port 2).makeLive 1 0 5)
  [(E.collective_members.loc 0 0 0 0, 0), (E.collective_members.loc 0 0 0 1, 0), (E.collective_length.h 0, 256),
   (E.collective_state.h 0, st)]

def segAt (stage : Nat) : Seg := ⟨0, 19999000000, 1000000, [], [], [], [], [], [], 0, 0, 0, 0, stage, none, []⟩

/-- coll with a begun segment. -/
def segRun (x : Seg) : State := { coll 2 with coll := [(0, { collBlank with segs := [x] })] }

/-- A job of partition 5, queued (0) or running (1) on Mill 0. -/
def job (st : Nat) : Job :=
  ⟨1, hdr, none, [], none, [], [], 5, 0, 0, 0, 19999000000, st, [], none, (0, 0), if st = 0 then [] else [0], false, 0⟩

def jobs (st : Nat) : State := { live with mill := ⟨2, [job st], []⟩ }

/-- An access of kind k through window 0 at an address. -/
def access (k a : Nat) (fills : List Fill) : MemAcc :=
  ⟨1, 0, { hdr with kind := k, w8 := a % 2 ^ 32, w9 := a / 2 ^ 32, w10 := 64 }, [], 0, 19999000000, fills, 0, false, false, none⟩

def accessing (x : MemAcc) : State := { sets live [(E.hbm_state.n 0, 2)] with ms := { live.ms with accs := [x] } }

/-- live with a window of partition 5 over 64 KiB at the start of Tier 1, in state st. -/
def win (st : Nat) : State := sets (live.makeLive 8 0 5) [(E.window_base.h 0, baseT1), (E.window_size.h 0, 65536),
  (E.window_rights.h 0, 3), (E.hbm_state.n 0, 2), (E.window_tier.h 0, 2), (E.window_state.h 0, st)]

/-- win 1 with pool 0 of partition 5, two buffers of 256 bytes, in state st, and what its caches hold. -/
def pool (st : Nat) (r : PoolRt) : State := { sets ((win 1).makeLive 3 0 5) [(E.pool_buffer_size.h 0, 256), (E.pool_count.h 0, 2),
  (E.pool_buffer_base.h 0, baseT1), (E.pool_ring_base.h 0, baseT1 + 4096), (E.pool_buffer_window.h 0, 0x80100000),
  (E.pool_ring_window.h 0, 0x80100000), (E.pool_state.h 0, st)] with pools := [(0, r)] }

def none2 : PoolRt := ⟨[], [], 0, 0, false, true⟩

/-- Its buffer 1 handed out with n references. -/
def shared (n : Nat) : State := (pool 2 none2).setWord 0 1 (2 ^ 31 + n)

/-- A pool of partition 5 at a Tier 1 address, Active, with three free buffers of 4,096 bytes. -/
def pageSet (i a : Nat) : List (Loc × Nat) := [(E.pool_buffer_size.h i, 4096), (E.pool_count.h i, 3), (E.pool_buffer_base.h i, a),
  (E.pool_ring_base.h i, a + 65536), (E.pool_state.h i, 2)]

/-- Sequence 0 of partition 5 in state st, on template 0 with a page pool and a table pool. -/
def seq (st : Nat) : State := { sets (((live.makeLive 3 0 5).makeLive 3 1 5).makeLive 2 0 5)
  (pageSet 0 baseT1 ++ pageSet 1 (baseT1 + 131072) ++ [(E.seqtemplate_page_pool.nk 0 0, 0x30100000),
   (E.seqtemplate_table_pool.n 0, 0x30100001), (E.sequence_state.h 0, st), (E.sequence_capacity.h 0, if st = 1 then 128 else 0),
   (E.sequence_root.h 0, baseT1 + 131072 + 8192), (E.seqtemplate_layers.n 0, 1), (E.seqtemplate_kv_heads.n 0, 1),
   (E.seqtemplate_head_dim.n 0, 16)]) with
  pools := [(0, { none2 with head := [0, 1, 2] }), (1, { none2 with head := [0, 1] })] }

/-- live with the Weir schedule running, at the end of a cycle of 128 slots. -/
def weirRun (stop : Bool) : State := { sets live [(E.weir_state.s, 3), (E.weir_slots.s, 128)] with
  weir := { live.weir with s := 128, stopping := stop }, cyc := { live.cyc with n := 128 } }

/-- mr0 with the schedule running and port 7 as the peer of lock-step, in state st, at Weir cycle 16. -/
def lock (st : Nat) : State := { sets mr0 [(E.lockstep_peer_port.s, 7), (E.weir_state.s, 3), (E.lockstep_state.s, st),
  (E.weir_cycle.s, 16), (E.lockstep_window_cycles.s, 16)] with lock := { live.lock with w0 := if st = 3 then some 0 else none } }

/-- seq 0 with a trace session of partition 5 in state st. -/
def tracing (st : Nat) : State := sets ((seq 0).makeLive 7 0 5) [(E.trace_pool.h 0, 0x30100000), (E.trace_state.h 0, st)]

/-- port 2 as a test port in bundle 0, with stream 0 and check 0 of partition 5, the stream in state st. -/
def spring (st : Nat) : State := { sets (((port 2).makeLive 5 0 5).makeLive 6 0 5) [(E.port_role.n 0, 4),
  (E.bundle_members.n 0, 2 ^ 512 - 2 ^ 16), (E.spring_header.h 0, 0x2000), (E.spring_length.h 0, 64), (E.spring_corrupt.h 0, 1),
  (E.spring_state.h 0, st)] with spring := { live.spring with rt := [(0, ⟨20000000000, 0, false⟩)] } }

def stuck : State := { live with mgmt := { live.mgmt with stuckAt := some 19999000000 } }

/-- win 1 as the window of the host aperture. -/
def aper : State := sets (on [4] (win 1)) [(E.host_aperture_window.s, 0x80100000), (E.host_aperture_partition.s, 5),
  (E.host_aperture_base.s, baseT1)]

def rec0 : RingRec := ⟨0, 0, 1, 0, 0, 0, []⟩

/-- live with ring k enabled. -/
def ringed (k : Nat) (x : RingRt) : State := { sets (on [4] live) [(E.hring_enable.n k, 1), (E.hring_size.n k, 64)] with rings := [(k, x)] }

def posting : List Byte := List.replicate 12 0 ++ [2, 0, 0, 0]

/-- live with changes of the power manager, and with a domain k in a status. -/
def pwrWith (f : PwrSt → PwrSt) : State := { live with pwr := f live.pwr }
def domAt (k st : Nat) (f : PwrSt → PwrSt) : State := sets (pwrWith f) [(E.pwr_dom_status.n k, st)]

/-- live in P3 with the shut-down test running. -/
def testing : State := sets live [(E.st_state.s, 2), (E.pwr_state.s, 3)]

/-- A port of role 2 named in `recable.ports`, the window in state st. -/
def recab (st : Nat) : State := sets (port 2) [(E.port_role.n 0, 2), (E.recable_ports.loc 0 0 0 0, 1), (E.recable_state.s, st)]

/-- A transaction 7 of the Owner's session in a state. -/
def tx7 (st : Nat) : Tx := ⟨7, 1, 1, 4096, st, 0, [], 0, 0, 0⟩

def txs (st : Nat) : State := { live with mgmt := { live.mgmt with txs := [tx7 st] } }

def rqTx : Req := ⟨.mctp, 8, 1, 1, 7⟩

theorem ran_of {α β γ : Type} {p : List α × β × γ} (h : p.1 = []) : p = ([], p.2.1, p.2.2) := Prod.ext h rfl

theorem all_of {done : List RItem} (h : (done.all fun x => decide (x.status = 0)) = true) : ∀ x ∈ done, x.status = 0 := by
  intro x hx; have := List.all_eq_true.mp h x hx; exact of_decide_eq_true this

/-- The items of requests that are served in full. -/
def newWin : Item := ⟨0x7100, 0, 2, 0x80000005, 0, [5, 0]⟩

/-- SESSION_OPEN of the Owner with counter 1 and a nonce of zeros, and its proof under the unset key (R484). -/
def openHead : List Byte := [1, 0, 0, 0] ++ leBytes 8 1 ++ List.replicate 16 0
def openProof : List Byte := hmac (List.replicate 32 0) (strOpen ++ leBytes 16 Config.serial ++ openHead.take 12 ++ List.replicate 16 0)

theorem slice_head (b : List Byte) (lo len : Nat) (h : lo + len ≤ openHead.length) :
    slice (openHead ++ b) lo len = slice openHead lo len := by
  unfold slice
  rw [List.drop_append_of_le_length (by omega), List.take_append_of_le_length (by rw [List.length_drop]; omega)]

theorem open_ok : (sessionOpen live (rq 0) (openHead ++ openProof)).1 = 0 := by
  have hp : openProof.length = 32 := hmac_length _ _
  have hh : openHead.length = 28 := by decide
  have h0 : leAt (openHead ++ openProof) 0 1 = 1 := by unfold leAt; rw [slice_head _ _ _ (by decide)]; decide
  have h1 : leAt (openHead ++ openProof) 1 1 = 0 := by unfold leAt; rw [slice_head _ _ _ (by decide)]; decide
  have h2 : leAt (openHead ++ openProof) 2 2 = 0 := by unfold leAt; rw [slice_head _ _ _ (by decide)]; decide
  have h4 : leAt (openHead ++ openProof) 4 8 = 1 := by unfold leAt; rw [slice_head _ _ _ (by decide)]; decide
  have hn : slice (openHead ++ openProof) 12 16 = List.replicate 16 0 := by rw [slice_head _ _ _ (by decide)]; decide
  have ht : (openHead ++ openProof).take 12 = openHead.take 12 := List.take_append_of_le_length (by decide)
  have hs : slice (openHead ++ openProof) 28 32 = openProof := by
    unfold slice; rw [← hh, List.drop_left, ← hp, List.take_length]
  have hl : (openHead ++ openProof).length = 60 := by rw [List.length_append, hh, hp]
  have k : live.roleKey 1 0 = some (List.replicate 32 0) := by decide +kernel
  have f : live.mgmt.lockAt.isSome = false := rfl
  have g : roleReachable live .mctp 1 = true := by decide +kernel
  have c : live.domLe E.sec_open_counter 0 0 (counterOff 1 0) 8 = 0 := by decide +kernel
  have m : live.mgmt.sessions.length = 3 := rfl
  unfold sessionOpen
  simp only [h0, h1, h2, h4, hn, ht, hs, hl, k, f, c, m]
  rw [if_neg (by decide), if_neg (by decide), if_neg (by decide), show roleReachable live (rq 0).via 1 = true from g]
  rw [if_neg (by decide), if_neg (by rw [not_or]; exact ⟨fun h => h rfl, by decide⟩), if_neg (by decide)]

/-- A READ of ft.now in a PDU of the Owner's session. -/
def pdu : List Byte := [1, 1] ++ leBytes 2 1 ++ leBytes 4 1 ++ leBytes 4 0 ++ leBytes 2 1 ++ [0, 0] ++ itemBytes ⟨0x8000, 1, 0, 0, 0, []⟩

def maxHeader : Rill := ⟨15, 15, 7, 3, 7, 7, 4095, 65535, 8191, true, [1023, 1023, 1023, 1023], [1023, 1023, 1023, 1023],
  2 ^ 32 - 1, 2 ^ 32 - 1, 65535, 65535, 2 ^ 32 - 1, 2 ^ 32 - 1, 2 ^ 32 - 1, 65535, 0, true⟩

/-- What holds of the one value of an option. -/
theorem only_of {α : Type} {o : Option α} {a : α} {P : α → Prop} (h : o = some a) (p : P a) : ∀ x, o = some x → P x := by
  intro x hx; rw [h] at hx; cases hx; exact p

/-- What holds of every value of an option that has none. -/
theorem never_of {α : Type} {o : Option α} {P : α → Prop} (h : o.isNone = true) : ∀ x, o = some x → P x := by
  intro x hx; rw [hx] at h; exact absurd h Bool.false_ne_true

theorem none_of {α : Type} {o : Option α} (h : o.isNone = true) : o = none := Option.isNone_iff_eq_none.mp h

theorem err_of {α : Type} {x : Except Nat α} {n : Nat}
    (h : (match x with | .error m => decide (m = n) | .ok _ => false) = true) : x = .error n := by
  revert h
  cases x with
  | error m => intro h; rw [of_decide_eq_true h]
  | ok a => intro h; exact absurd h Bool.false_ne_true

/-- live with policer 16,384 of partition 5: CIR 2, PIR 5, CBS 100, PBS 200, its buckets full at FT 0. -/
def policed : State := { sets (live.makeLive 4 16384 5) [(E.policer_cir.h 16384, 2), (E.policer_pir.h 16384, 5),
  (E.policer_cbs.h 16384, 100), (E.policer_pbs.h 16384, 200)] with
  qs := { live.qs with pol := [(16384, ⟨6553600, 13107200, 0, 0, 0⟩)] } }

theorem ok_of {α β : Type} [DecidableEq β] {x : Except α β} {b : β}
    (h : (match x with | .ok c => decide (c = b) | .error _ => false) = true) : x = .ok b := by
  revert h
  cases x with
  | error m => intro h; exact absurd h Bool.false_ne_true
  | ok a => intro h; rw [of_decide_eq_true h]

/-! ### Single commands -/

/-- What one command leaves of a state, in one view. -/
def ran {α : Type} (s : State) (c : Instr) (f : State → α) : Option α :=
  match step { s with pending := [c] } with
  | .next t => some (f t)
  | _ => none

/-- The last output. -/
def last (t : State) : Option Output := t.out.getLast?

/-- A response to the Owner with one item. -/
def resp (op st : Nat) (x : RItem) : Option (Option Output) := some (some (.response (rq 1) op st 0 [x]))

/-! Formulas and layouts on the spec's own examples, and on check values of the standards that it names. -/

theorem test_handle_layout : (hType 0x12C00A3F, hGen 0x12C00A3F, hIdx 0x12C00A3F) = (1, 0x2C, 0x00A3F) := by decide +kernel
theorem test_interleaved_address : live.phys 0x20000005010 = 0x15000000010 := by decide +kernel
theorem test_interleaved_address_fn44 : ({ live with part := .fn44 } : State).phys 0x20000005010 = 0x12000001010 := by decide +kernel
theorem test_lse_group : lseGroup 128 1 = 8448 := by decide +kernel
theorem test_row_bytes : (rowBytes 3 4096, rowBytes 8 4096, rowBytes 9 4096) = (16 * 256, 10 * 256, 5 * 256) := by decide +kernel
theorem test_crc16_check : crc16 [0x31, 0x32, 0x33, 0x34, 0x35, 0x36, 0x37, 0x38, 0x39] = 0x29B1 := by decide +kernel
theorem test_crc32_check : crc32 [0x31, 0x32, 0x33, 0x34, 0x35, 0x36, 0x37, 0x38, 0x39] = 0xCBF43926 := by decide +kernel
theorem test_crc8_check : crc8 [0x31, 0x32, 0x33, 0x34, 0x35, 0x36, 0x37, 0x38, 0x39] = 0xF4 := by decide +kernel
theorem test_code10_K28_5 : (enc10 false (.k 5), enc10 true (.k 5)) = ((0b0011111010, true), (0b1100000101, false)) := by decide +kernel
theorem test_phase_error_ties : (err32 4, err32 12, err32 (-4), err32 5) = (0, 2, 0, 1) := by decide +kernel
theorem test_sha256_abc : ofBe (sha256 [0x61, 0x62, 0x63]) =
    0xBA7816BF8F01CFEA414140DE5DAE2223B00361A396177A9CB410FF61F20015AD := by decide +kernel

/-! One command on a small state. -/

theorem test_ftTick : ran live .ftTick (·.ft) = some 20000000001 := by decide +kernel
theorem test_write_then_value : ran live (.write (rq 1) [writeIt E.ft_holdover_limit 0 0 0 2000000])
    (fun t => t.get E.ft_holdover_limit.s) = some 2000000 := by decide +kernel
theorem test_write_readOnly : ran live (.write (rq 1) [writeIt E.ft_now 0 0 0 0]) last =
    resp 0x82 0 ⟨0x8000, 1, 0x08, 0, []⟩ := by decide +kernel
theorem test_read : ran live (.read (rq 1) [⟨0x8000, 0x12, 0, 0, 0, []⟩]) last =
    resp 0x81 0 ⟨0x8000, 0x12, 0, 0, [0x00, 0x04]⟩ := by decide +kernel
theorem test_create : ran live (.create (rq 1) [⟨0x7100, 0, 0, 0x80000000, 0, [5, 0]⟩]) last =
    resp 0x90 0 ⟨0x7100, 0, 0, 0x80100000, []⟩ := by decide +kernel
theorem test_destroy_quarantine : ran (win 0) (.destroy (rq 1) [⟨0x7100, 0, 0, 0x80100000, 0, []⟩])
    (fun t => (t.quarFt 8 0, t.genOf 8 0)) = some (some 20004195240, 2) := by decide +kernel
theorem test_gateStart_passed : ran (gated 0) (.gateStart (rq 1) 0x90100000 20000000000) last =
    resp 0x82 0 ⟨0x4800, E.gate_start.sub, 0x0A, 0x90100000, []⟩ := by decide +kernel
theorem test_gateStart_near : ran (gated 0) (.gateStart (rq 1) 0x90100000 20000009999) last =
    resp 0x82 0 ⟨0x4800, E.gate_start.sub, 0x06, 0x90100000, []⟩ := by decide +kernel
theorem test_arm : ran mr0 (.arm 0 (rxOf (.arm 7 20000005001)) 7 20000005001) (·.launches) = some [⟨7, 20000005001, false⟩] := by decide +kernel
theorem test_arm_late : ran mr0 (.arm 0 rx0 7 20000005000) (·.launches) = some [] := by decide +kernel
theorem test_detectProbe : ran live (.detectProbe 0 true) (fun t => t.get (E.millrace_state.n 0)) = some 2 := by decide +kernel
theorem test_sleep : ran mr0 (.sleep 0 (rxOf .sleep)) (fun t => t.get (E.millrace_rx_state.n 0)) = some 2 := by decide +kernel
theorem test_windowOpen : ran (win 0) (.windowOpen (rq 1) 0x80100000 1) (fun t => t.get (E.window_state.h 0)) = some 1 := by
  decide +kernel
theorem test_faultSetting : ran live (.faultSetting [64]) (fun t => (t.get (E.fault_sticky.n 1), t.get (E.fault_sets.n 64))) =
    some (1, 1) := by decide +kernel
theorem test_poolFree_shared : ran (shared 2) (.poolFree (rq 1) 0x30100000 (baseT1 + 256)) (fun t => (poolTurns t).bufWord 0 1) =
    some (2 ^ 31 + 1) := by decide +kernel
theorem test_weirStop : ran (weirRun false) (.weirStop (rq 1) 1) (fun t => (t.get E.weir_state.s, t.weir.stopping)) =
    some (3, true) := by decide +kernel
theorem test_weirStop_cycleEnd : ran (weirRun true) .weirCycleBoundary (fun t => t.get E.weir_state.s) = some 0 := by decide +kernel
theorem test_idle : step live = .next live := rfl

/-! ### Witnesses -/

theorem wit_StepRunsFront :
  (∃ (s : State) (c : Instr) (cs : List Instr), s.pending = c :: cs) ∧
  (∃ (s : State), s.pending = []) :=
  ⟨⟨{ live with pending := [.ftTick, .creationQuietEnd] }, .ftTick, [.creationQuietEnd], rfl⟩,
   ⟨live, rfl⟩⟩

theorem wit_StepKeepsIdle :
  ∃ (s : State) (t : State), Idle s ∧ step s = .next t :=
  ⟨{ live with pending := [.ftTick, .creationQuietEnd] }, _, rfl, rfl⟩

theorem wit_QueueRunsInOrder :
  ∃ (s : State) (cs : List Instr) (ds : List Instr), s.pending = cs ++ ds :=
  ⟨{ live with pending := [.ftTick, .creationQuietEnd] }, [.ftTick], [.creationQuietEnd], rfl⟩

theorem wit_HandleLayout :
  ∃ (t : Nat) (g : Nat) (i : Nat) (h : Nat), t < 16 ∧ g < 256 ∧ i < 2 ^ 20 ∧ h < 2 ^ 32 :=
  ⟨15, 255, 1048575, 4294967295, by decide +kernel⟩

theorem wit_RillHeaderRoundTrip :
  ∃ (h : Rill), RillFields h :=
  ⟨maxHeader, by constructor <;> decide⟩

theorem wit_RequestItemsRoundTrip :
  ∃ (items : List Item) (b : List Byte), (∀ it ∈ items, ItemFields it) ∧ b ≠ [] :=
  ⟨[⟨65535, 255, 255, 2 ^ 32 - 1, 65535, [7]⟩], [0], fun it h => by rw [List.mem_singleton.mp h]; exact ⟨by decide,
    by decide, by decide, by decide, by decide, by decide⟩, by decide +kernel⟩

theorem wit_PlainWrite :
  (∃ (s : State) (r : Req) (w : Who) (e : Ent) (n : Nat) (k : Nat) (h : Nat) (v : Nat), Accepts s r w e n k h v ∧
    e.ty ≠ .domain ∧ e.acc = .rw ∧ e.cls ≠ .counter ∧ noPort s e n = false ∧
    (e.tmpl = true → cfgState s (typeOfTemplate e.idx) (hIdx h) e = true) ∧ writeHook s w e n k (hIdx h) v = none) ∧
  (∃ (s : State) (r : Req) (w : Who) (e : Ent) (n : Nat) (k : Nat) (h : Nat) (v : Nat), Accepts s r w e n k h v ∧
    e.ty ≠ .domain ∧ e.acc = .rw ∧ e.cls ≠ .counter ∧ noPort s e n = false ∧
    (e.tmpl = true → cfgState s (typeOfTemplate e.idx) (hIdx h) e = true) ∧ writeHook s w e n k (hIdx h) v = none) :=
  ⟨⟨live, rq 1, own, E.ft_holdover_limit, 0, 0, 0, 2000000, accepts_of (by decide +kernel), by decide +kernel,
    by decide +kernel, by decide +kernel, by decide +kernel, by decide +kernel, none_of (by decide +kernel)⟩,
   ⟨spring 0, rq 1, own, E.gauge_tests, 0, 0, 0x60100000, 1, accepts_of (by decide +kernel), by decide +kernel,
     by decide +kernel, by decide +kernel, by decide +kernel, by decide +kernel, none_of (by decide +kernel)⟩⟩

theorem wit_LockedFieldRefused :
  ∃ (s : State) (r : Req) (w : Who) (e : Ent) (n : Nat) (k : Nat) (h : Nat) (v : Nat), Accepts s r w e n k h v ∧
    (∀ x, writeHook s w e n k (hIdx h) v = some x → x.1 ≠ 0x06) ∧ e.ty ≠ .domain ∧ e.tmpl = true ∧ e.acc = .rw ∧ e.cls = .config ∧
    e ∉ [E.collective_laggard_timeout, E.pool_low_water, E.sequence_reserve, E.sequence_length] ∧
    (typeOfTemplate e.idx = 1 → s.get (E.collective_state.h (hIdx h)) ≠ 0) ∧
    (typeOfTemplate e.idx = 2 → s.get (E.sequence_state.h (hIdx h)) ≠ 0) ∧
    (typeOfTemplate e.idx = 3 → s.get (E.pool_state.h (hIdx h)) ≠ 0) ∧
    typeOfTemplate e.idx ≠ 0 ∧ typeOfTemplate e.idx ≠ 4 ∧
    (typeOfTemplate e.idx = 5 → s.get (E.spring_state.h (hIdx h)) ≠ 0) ∧
    (typeOfTemplate e.idx = 6 → s.get (E.gauge_state.h (hIdx h)) ≠ 0) ∧
    (typeOfTemplate e.idx = 7 → s.get (E.trace_state.h (hIdx h)) ≠ 0 ∧ s.get (E.trace_state.h (hIdx h)) ≠ 3) ∧
    (typeOfTemplate e.idx = 8 → s.get (E.window_state.h (hIdx h)) ≠ 0) ∧
    (typeOfTemplate e.idx = 9 → s.get (E.gate_state.h (hIdx h)) ≠ 0) ∧
    (typeOfTemplate e.idx = 10 → s.get (E.template_state.h (hIdx h)) ≠ 0) :=
  ⟨win 1, rq 1, own, E.window_size, 0, 0, 0x80100000, 4096, accepts_of (by decide +kernel), never_of (by decide +kernel),
    by decide +kernel⟩

theorem wit_RefusedWriteChangesNothing :
  (∃ (s : State) (r : Req) (w : Who) (it : Item) (st : Nat), Serves s r w ∧ writeGate5 s w it = .error st) ∧
  (∃ (s : State) (r : Req) (w : Who) (it : Item) (e : Ent), Serves s r w ∧ entOf it.index it.sub = some e ∧ it.sub ≠ 0 ∧
    existsOk s it true = true ∧ typeOfTemplate it.index = 0 ∧ rightOf s w.role it.index it.sub = 0) ∧
  (∃ (s : State) (r : Req) (w : Who) (it : Item) (e : Ent), Serves s r w ∧ entOf it.index it.sub = some e ∧ it.sub ≠ 0 ∧
    existsOk s it true = true ∧ typeOfTemplate it.index = 0 ∧ e.readOnly = true ∧ 1 ≤ rightOf s w.role it.index it.sub) ∧
  (∃ (s : State) (r : Req) (w : Who) (it : Item) (e : Ent), Serves s r w ∧ entOf it.index it.sub = some e ∧ it.sub ≠ 0 ∧
    existsOk s it true = true ∧ typeOfTemplate it.index = 0 ∧ e.readOnly = false ∧ rightOf s w.role it.index it.sub < 2) :=
  ⟨⟨live, rq 1, own, writeIt E.ft_now 0 0 0 0, 8, serves_of (by decide +kernel), err_of (by decide +kernel)⟩,
   ⟨live, rq 2, ten, writeIt E.attr_reset 0 0 0 1, E.attr_reset, serves_of (by decide +kernel), by decide +kernel⟩,
   ⟨live, rq 1, own, writeIt E.ft_now 0 0 0 0, E.ft_now, serves_of (by decide +kernel), by decide +kernel⟩,
   ⟨live, rq 2, ten, writeIt E.ft_holdover_limit 0 0 0 1, E.ft_holdover_limit, serves_of (by decide +kernel),
     by decide +kernel⟩⟩

theorem wit_ReadAnswersValue :
  (∃ (s : State) (r : Req) (w : Who) (it : Item) (e : Ent) (n : Nat) (k : Nat), Serves s r w ∧ itemGate s w it false 1 = 0 ∧
    it.sub ≠ 0 ∧ entOf it.index it.sub = some e ∧ e.place it.index it.sub = (n, k) ∧ e.ty ≠ .domain ∧ it.data = [] ∧
      viewing s w = false ∧ e ≠ E.snap_view ∧ e ≠ E.pool_alloc ∧ e ≠ E.trace_next ∧ e ≠ E.pool_low_free ∧ (e.acc = .ro ∨
        e.acc = .rw ∨ e.acc = .w1c)) ∧
  (∃ (s : State) (r : Req) (w : Who) (it : Item) (e : Ent) (n : Nat) (k : Nat) (c : Nat), Serves s r w ∧
    itemGate s w it false 1 = 0 ∧ it.sub ≠ 0 ∧ entOf it.index it.sub = some e ∧ e.place it.index it.sub = (n, k) ∧
      e.ty ≠ .domain ∧ it.data = [] ∧ viewing s w = false ∧ e ≠ E.snap_view ∧ e ≠ E.pool_alloc ∧ e ≠ E.trace_next ∧
        e ≠ E.pool_low_free ∧ e.acc = .rc ∧ s.get (e.loc n k (hIdx it.handle) 0) = c + mgetD s.cyc.incs (e.loc n k (hIdx
          it.handle) 0).key 0 ∧ c < 2 ^ 64) :=
  ⟨⟨live, rq 1, own, ⟨0x8000, 0x0C, 0, 0, 0, []⟩, E.ft_holdover_limit, 0, 0, serves_of (by decide +kernel),
    by decide +kernel⟩,
   ⟨live.inc E.ft_corrections.s 3, rq 1, own, ⟨0x8000, 0x0F, 0, 0, 0, []⟩, E.ft_corrections, 0, 0, 0,
     serves_of (by decide +kernel), by decide +kernel⟩⟩

theorem wit_NotReadyAnswered :
  (∃ (s : State) (r : Req), reachable s r = true ∧ s.get E.boot_stage.s ≠ 1 ∧ s.get E.lc_state.s ≠ 0 ∧
    s.getB E.device_ready.s = false ∧ r.session ≠ 0) ∧
  (∃ (s : State) (r : Req), reachable s r = true ∧ s.get E.boot_stage.s ≠ 1 ∧ s.get E.lc_state.s ≠ 0 ∧
    s.getB E.device_ready.s = false ∧ r.via ≠ .udp) :=
  ⟨⟨sets live [(E.device_ready.s, 0)], rq 1, by decide +kernel⟩,
   ⟨sets live [(E.device_ready.s, 0)], rq 0, by decide +kernel⟩⟩

theorem wit_PassedTimeRefused :
  (∃ (s : State) (r : Req) (w : Who) (_ : Nat) (v : Nat) (st : Nat), v < s.ft + 10000 ∧
    st = (if v ≤ s.ft then 0x0A else 0x06) ∧ Accepts s r w E.ft_launch_at 0 0 0 v) ∧
  (∃ (s : State) (r : Req) (w : Who) (_ : Nat) (v : Nat) (st : Nat), v < s.ft + 10000 ∧
    st = (if v ≤ s.ft then 0x0A else 0x06) ∧ Accepts s r w E.weir_start 0 0 0 v) ∧
  (∃ (s : State) (r : Req) (w : Who) (h : Nat) (v : Nat) (st : Nat), v < s.ft + 10000 ∧
    st = (if v ≤ s.ft then 0x0A else 0x06) ∧ Accepts s r w E.gate_start 0 0 h v) ∧
  (∃ (s : State) (r : Req) (w : Who) (_ : Nat) (v : Nat) (st : Nat), v < s.ft + 10000 ∧
    st = (if v ≤ s.ft then 0x0A else 0x06) ∧ Accepts s r w E.fw_activate 0 0 0 v) ∧
  (∃ (s : State) (r : Req) (w : Who) (_ : Nat) (v : Nat) (st : Nat), v < s.ft + 10000 ∧
    st = (if v ≤ s.ft then 0x0A else 0x06) ∧ Accepts s r w E.rack_reset_at 0 0 0 v) :=
  ⟨⟨live, rq 1, own, 0x90100000, 20000000000, _, by decide +kernel, rfl, accepts_of (by decide +kernel)⟩,
   ⟨live, rq 1, own, 0x90100000, 20000009999, _, by decide +kernel, rfl, accepts_of (by decide +kernel)⟩,
   ⟨gated 0, rq 1, own, 0x90100000, 20000000000, _, by decide +kernel, rfl, accepts_of (by decide +kernel)⟩,
   ⟨live, rq 1, own, 0x90100000, 20000009999, _, by decide +kernel, rfl, accepts_of (by decide +kernel)⟩,
   ⟨live, rq 1, own, 0x90100000, 0, _, by decide +kernel, rfl, accepts_of (by decide +kernel)⟩⟩

theorem wit_ScheduleKeepsOrder :
  ∃ (s : State), Ordered s.sched ∧ (∀ a ∈ s.sched, a.seq < s.schedSeq) :=
  ⟨(live.schedule 20000020000 .snap).schedule 20000010000 .rackReset, by unfold Ordered; decide +kernel, by decide +kernel⟩

theorem wit_SourceSetsOnce :
  (∃ (s : State) (src : Nat), sourceKnown src = true ∧ s.srcSet src = false ∧ s.get (E.fault_sets.n src) < 2 ^ 64) ∧
  (∃ (s : State) (src : Nat), sourceKnown src = true ∧ s.srcSet src = true) :=
  ⟨⟨live, 1023, by decide +kernel⟩,
   ⟨live.raise 1023, 1023, by decide +kernel⟩⟩

theorem wit_TicksFollowClock :
  (∃ (sync : Nat) (t : TimeSt), (sync = 1 ∨ sync = 2) ∧ t.acc < 8 ∧ t.slew = 0) ∧
  (∃ (s : State) (t : State), Idle s ∧ s.time.loadAt = none ∧ (ftTick s).isDue .lockstep = false ∧ exec .ftTick s = .next t) :=
  ⟨⟨2, { live.time with acc := 7 }, by decide +kernel⟩,
   ⟨live, _, rfl, rfl, by decide +kernel, rfl⟩⟩

theorem wit_DestroyQuarantines :
  ∃ (t : Nat) (i : Nat) (g : Nat) (j : Nat), 1 ≤ t ∧ t ≤ 10 ∧ i < 2 ^ 20 ∧ (t = 4 → 16384 ≤ i) ∧ g < 255 ∧ j < 2 ^ 20 ∧
    j ≠ i :=
  ⟨4, 16384, 254, 1048575, by decide +kernel⟩

theorem wit_OtherPartitionHidden :
  (∃ (s : State) (r : Req) (w : Who) (it : Item) (t : Nat) (x : HRec), Serves s r w ∧ w.role = 3 ∧
    t = typeOfTemplate it.index ∧ t ≠ 0 ∧ s.liveAt t (hIdx it.handle) = some x ∧ x.part ≠ w.part ∧
      existsOk s it false = true) ∧
  (∃ (s : State) (r : Req) (w : Who) (it : Item) (t : Nat) (x : HRec), Serves s r w ∧ w.role = 3 ∧
    t = typeOfTemplate it.index ∧ t ≠ 0 ∧ s.liveAt t (hIdx it.handle) = some x ∧ x.part ≠ w.part ∧
      existsOk s it true = true) :=
  ⟨⟨live.makeLive 8 0 6, rq 2, ten, ⟨0x7100, 1, 0, 0x80100000, 0, []⟩, 8, ⟨1, 6⟩, serves_of (by decide +kernel),
    by decide +kernel⟩,
   ⟨live.makeLive 8 0 6, rq 2, ten, writeIt E.window_open 0 0 0x80100000 1, 8, ⟨1, 6⟩, serves_of (by decide +kernel),
     by decide +kernel⟩⟩

theorem wit_TwoRateMarker :
  (∃ (s : State) (r : Req) (w : Who) (h : Nat) (v : Nat), Accepts s r w E.policer_cir 0 0 h v ∧
    s.get (E.policer_pir.h (hIdx h)) < v) ∧
  (∃ (s : State) (r : Req) (w : Who) (h : Nat) (v : Nat), Accepts s r w E.policer_pir 0 0 h v ∧
    v < s.get (E.policer_cir.h (hIdx h))) ∧
  (∃ (rem : Nat), rem < 15625) ∧
  (∃ (s : State) (i : Nat) (len : Nat) (t : Nat) (arriving : Nat) (tc : Nat) (tp : Nat) (cbs : Nat) (pbs : Nat) (b : Nat)
    (inc : Nat), (s.pol i).last ≤ t ∧ cbs = 65536 * s.get (E.policer_cbs.h i) ∧ pbs = 65536 * s.get (E.policer_pbs.h i) ∧
      b = 65536 * len ∧ tc = min cbs ((s.pol i).tc + (refill (s.get (E.policer_cir.h i)) (s.pol i).rc (t - (s.pol
        i).last)).1) ∧ tp = min pbs ((s.pol i).tp + (refill (s.get (E.policer_pir.h i)) (s.pol i).rp (t - (s.pol
          i).last)).1) ∧ inc = (if s.getB (E.policer_aware.h i) then arriving else 0) ∧ (inc = 2 ∨ tp < b) ∧
            s.get (E.policer_pbs.h i) < len) ∧
  (∃ (s : State) (i : Nat) (len : Nat) (t : Nat) (arriving : Nat) (tc : Nat) (tp : Nat) (cbs : Nat) (pbs : Nat) (b : Nat)
    (inc : Nat), (s.pol i).last ≤ t ∧ cbs = 65536 * s.get (E.policer_cbs.h i) ∧ pbs = 65536 * s.get (E.policer_pbs.h i) ∧
      b = 65536 * len ∧ tc = min cbs ((s.pol i).tc + (refill (s.get (E.policer_cir.h i)) (s.pol i).rc (t - (s.pol
        i).last)).1) ∧ tp = min pbs ((s.pol i).tp + (refill (s.get (E.policer_pir.h i)) (s.pol i).rp (t - (s.pol
          i).last)).1) ∧ inc = (if s.getB (E.policer_aware.h i) then arriving else 0) ∧ (¬ (inc = 2 ∨ tp < b)) ∧ (inc = 1 ∨
            tc < b) ∧ s.get (E.policer_cbs.h i) < len) ∧
  (∃ (s : State) (i : Nat) (len : Nat) (t : Nat) (arriving : Nat) (tc : Nat) (tp : Nat) (cbs : Nat) (pbs : Nat) (b : Nat)
    (inc : Nat), (s.pol i).last ≤ t ∧ cbs = 65536 * s.get (E.policer_cbs.h i) ∧ pbs = 65536 * s.get (E.policer_pbs.h i) ∧
      b = 65536 * len ∧ tc = min cbs ((s.pol i).tc + (refill (s.get (E.policer_cir.h i)) (s.pol i).rc (t - (s.pol
        i).last)).1) ∧ tp = min pbs ((s.pol i).tp + (refill (s.get (E.policer_pir.h i)) (s.pol i).rp (t - (s.pol
          i).last)).1) ∧ inc = (if s.getB (E.policer_aware.h i) then arriving else 0) ∧ (¬ (inc = 2 ∨ tp < b)) ∧
            (¬ (inc = 1 ∨ tc < b))) :=
  ⟨⟨policed, rq 1, own, 0x40104000, 6, accepts_of (by decide +kernel), by decide +kernel⟩,
   ⟨policed, rq 1, own, 0x40104000, 1, accepts_of (by decide +kernel), by decide +kernel⟩,
   ⟨15624, by decide +kernel⟩,
   ⟨policed, 16384, 201, 0, 0, _, _, _, _, _, _, by decide +kernel, rfl, rfl, rfl, rfl, rfl, rfl, by decide +kernel⟩,
   ⟨policed, 16384, 101, 0, 0, _, _, _, _, _, _, by decide +kernel, rfl, rfl, rfl, rfl, rfl, rfl, by decide +kernel⟩,
   ⟨policed, 16384, 100, 0, 0, _, _, _, _, _, _, by decide +kernel, rfl, rfl, rfl, rfl, rfl, rfl, by decide +kernel⟩⟩

theorem wit_AccountReleasesSharedFirst :
  (∃ (s : State) (n : Nat) (q : Nat) (cells : Nat) (_ : Nat) (f : Nat), f = qSlot n q ∧ n < 1024 ∧ q < 16 ∧
    cells ≤ s.get (E.queue_shared_used.h f) + s.get (E.queue_min_used.h f) ∧ cells ≤ s.get (E.queue_shared_used.h f)) ∧
  (∃ (s : State) (n : Nat) (q : Nat) (cells : Nat) (_ : Nat) (f : Nat), f = qSlot n q ∧ n < 1024 ∧ q < 16 ∧
    cells ≤ s.get (E.queue_shared_used.h f) + s.get (E.queue_min_used.h f) ∧ s.get (E.queue_shared_used.h f) ≤ cells) ∧
  (∃ (s : State) (o : Nat) (cells : Nat) (mu : Nat) (su : Nat), mgetD s.sw.intUsed o (0, 0) = (mu, su) ∧ cells ≤ mu + su ∧
    cells ≤ su) ∧
  (∃ (s : State) (o : Nat) (cells : Nat) (mu : Nat) (su : Nat), mgetD s.sw.intUsed o (0, 0) = (mu, su) ∧ cells ≤ mu + su ∧
    su ≤ cells) :=
  ⟨⟨sets live [(E.queue_shared_used.h 16383, 4), (E.queue_min_used.h 16383, 3)], 1023, 15, 4, 2, _, rfl, by decide +kernel⟩,
   ⟨sets live [(E.queue_shared_used.h 16383, 4), (E.queue_min_used.h 16383, 3)], 1023, 15, 7, 2, _, rfl, by decide +kernel⟩,
   ⟨{ live with sw := { live.sw with intUsed := [(72, (3, 4))] } }, 72, 4, 3, 4, by decide +kernel⟩,
   ⟨{ live with sw := { live.sw with intUsed := [(72, (3, 4))] } }, 72, 7, 3, 4, by decide +kernel⟩⟩

theorem wit_WeirStopsAtCycleEnd :
  (∃ (s : State) (r : Req) (w : Who), Accepts s r w E.weir_stop 0 0 0 1 ∧ s.get E.weir_state.s = 3) ∧
  (∃ (s : State) (a : State), a = s.lockDue ∧ a.weirRunning = true ∧ a.weir.stopping = true ∧ a.weir.realign = none ∧
    a.weir.base + a.weir.s ≤ a.cyc.n) ∧
  (∃ (s : State) (p : Pkt) (q : Pkt), s.get E.weir_hold_drops.s < 2 ^ 64 ∧ p ∈ s.weirWaiting ∧ p.started = true ∧
    q ∈ s.sw.pkts ∧ (∀ x ∈ s.weirWaiting, x.id ≠ q.id)) :=
  ⟨⟨weirRun false, rq 1, own, accepts_of (by decide +kernel), by decide +kernel⟩,
   ⟨weirRun true, _, rfl, by decide +kernel⟩,
   ⟨{ weirRun true with sw := { live.sw with pkts := [{ pkt with weir := 1, started := true }, { pkt with id := 2 }] } },
     { pkt with weir := 1, started := true }, { pkt with id := 2 }, by decide +kernel⟩⟩

theorem wit_AttributionReset :
  (∃ (s : State) (u : State) (r : Req) (w : Who), Accepts s r w E.attr_reset 0 0 0 1 ∧
    u = s.cyc.attrs.foldl State.attrCount ({ s with attr := [] }.set E.attr_used.s 1) ∧ s.cyc.attrs = []) ∧
  (∃ (s : State) (w : Who), w.inTx = true ∧ writeGate5 s w (writeIt E.attr_reset 0 0 0 1) = .ok (E.attr_reset, 0, 0, 0)) :=
  ⟨⟨live, _, rq 1, own, accepts_of (by decide +kernel), rfl, rfl⟩,
   ⟨live, { own with inTx := true }, by decide +kernel, ok_of (by decide +kernel)⟩⟩

theorem wit_SleepFrame :
  (∃ (s : State) (t : State) (p : Nat) (rx : MrRx), Idle s ∧ exec (.sleep p rx) s = .next t) ∧
  (∃ (s : State) (t : State) (p : Nat), Idle s ∧ exec (.receiveWake p) s = .next t) ∧
  (∃ (s : State) (t : State) (p : Nat), Idle s ∧ exec (.transmitWakeDone p) s = .next t) :=
  ⟨⟨mr0, _, 0, rx0, rfl, rfl⟩,
   ⟨sets mr0 [(E.millrace_rx_state.n 0, 2)], _, 0, rfl, rfl⟩,
   ⟨sets mr0 [(E.millrace_tx_state.n 4, 3)], _, 4, rfl, rfl⟩⟩

theorem wit_MemoryReadBack :
  ∃ (a : Nat) (x : Nat) (i : Nat) (bs : List Byte), i < bs.length ∧ (x < a ∨ a + bs.length ≤ x) :=
  ⟨5, 7, 1, [1, 2], by decide +kernel⟩

theorem wit_TimeCompletes :
  (∃ (s : State), (ftTick s).isDue .lockstep = false) ∧
  (∃ (s : State), (ftTick s).isDue .lockstep = true) ∧
  (∃ (s : State) (p : Nat) (v : Nat) (x : MrRx), FrameTaken s p x (.mark v) ∧ s.get (E.millrace_role.n p) = 1) ∧
  (∃ (s : State) (p : Nat), s.get E.ft_source_port.s = p ∧ p < 2 ∧ s.get E.ft_sync_state.s ≠ 0) ∧
  (∃ (s : State), s.get E.ft_sync_state.s = 3 ∧ s.time.holdStart + s.get E.ft_holdover_limit.s ≤ s.ft) ∧
  (∃ (s : State) (r : Req) (w : Who) (v : Nat), Accepts s r w E.ft_local_set 0 0 0 v ∧ s.get E.ft_sync_state.s = 0) ∧
  (∃ (s : State) (v : Nat), s.time.loadAt = some v ∧ s.get E.ft_sync_state.s = 0 ∧ v < 2 ^ 64) ∧
  (∃ (s : State) (r : Req) (w : Who) (v : Nat), Accepts s r w E.ft_launch_at 0 0 0 v ∧ s.dropLaunch.ftTest v = 0 ∧
    s.launches.any (fun x => x.target = v) = false) ∧
  (∃ (s : State) (r : Req) (w : Who) (v : Nat) (t : Nat), Accepts s r w E.ft_launch_cancel 0 0 0 v ∧ v = 1 ∧
    s.nextLaunch = some t) ∧
  (∃ (s : State) (x : LaunchRec), s.isDue .launch = true ∧ s.launches.find? (fun r => r.armed && decide (some
    r.target = s.dueAct.map (·.ft))) = some x) :=
  ⟨⟨live, by decide +kernel⟩,
   ⟨acting 20000000001 .lockstep, by decide +kernel⟩,
   ⟨mr0, 0, 20000000000, rxOf (.mark 20000000000), frame_of (by decide +kernel), by decide +kernel⟩,
   ⟨mr0, 0, by decide +kernel⟩,
   ⟨sets mr0 [(E.ft_sync_state.s, 3)], by decide +kernel⟩,
   ⟨live, rq 1, own, 0, accepts_of (by decide +kernel), by decide +kernel⟩,
   ⟨{ live with time := { live.time with loadAt := some 5 } }, 5, by decide +kernel⟩,
   ⟨live, rq 1, own, 20000010000, accepts_of (by decide +kernel), by decide +kernel⟩,
   ⟨acting 20000000001 .launch, rq 1, own, 1, 20000000001, accepts_of (by decide +kernel), by decide +kernel⟩,
   ⟨{ acting 20000000000 .launch with launches := [⟨7, 20000000000, true⟩] }, ⟨7, 20000000000, true⟩, by decide +kernel⟩⟩

theorem wit_LaunchFramesComplete :
  (∃ (s : State) (p : Nat) (seq : Nat) (target : Nat) (x : MrRx), FrameTaken s p x (.arm seq target) ∧ s.get
    (E.millrace_role.n p) = 1 ∧ s.get E.ft_source_port.s = p ∧ s.get E.ft_sync_state.s = 2 ∧ s.ft + 5000 < target ∧
    target ≤ s.ft + 1000000000 ∧ s.launches.find? (fun r => r.seq = seq) = none ∧ abortedRecently s seq = false ∧
    s.launches.any (fun r => r.target = target) = false ∧ s.nextLaunch ≠ some target ∧ s.launches.length < 8) ∧
  (∃ (s : State) (p : Nat) (seq : Nat) (y : MrRx) (x : LaunchRec), FrameTaken s p y (.confirm seq) ∧ s.get
    (E.millrace_role.n p) = 1 ∧ s.get E.ft_source_port.s = p ∧ s.launches.find? (fun r => r.seq = seq) = some x ∧
    x.armed = false ∧ s.ft < x.target - 5000) ∧
  (∃ (s : State) (p : Nat) (seq : Nat) (y : MrRx) (x : LaunchRec), FrameTaken s p y (.abort seq) ∧ s.get
    (E.millrace_role.n p) = 1 ∧ s.get E.ft_source_port.s = p ∧ s.launches.find? (fun r => r.seq = seq) = some x ∧
    s.ft < x.target) ∧
  (∃ (s : State) (seq : Nat) (x : LaunchRec), s.launches.find? (fun r => r.seq = seq) = some x ∧ x.armed = false ∧
    x.target - 5000 ≤ s.ft) ∧
  (∃ (s : State) (p : Nat) (due : List MissedNote), (due = ((mrOf s p).notes.filter (fun n => n.sent = 1 ∧ n.at_ +
    1000 ≤ s.ft))) ∧ due ≠ [] ∧ s.get (E.millrace_tx_state.n p) = 1) ∧
  (∃ (s : State) (p : Nat) (t : Nat), (mrOf s p).sleepAt = some t ∧ t ≤ s.ft ∧ (mrOf s p).notes = [] ∧ s.getB
    (E.millrace_tx_sleep.n p) = true ∧ s.get (E.millrace_tx_state.n p) = 1) ∧
  (∃ (s : State) (p : Nat) (payload : List Byte) (x : MrRx), FrameTaken s p x (.missed payload) ∧ s.get
    (E.millrace_role.n p) = 2) ∧
  (∃ (s : State) (p : Nat) (h : Nat) (x : MrRx), FrameTaken s p x (.arrive h) ∧ s.get (E.millrace_role.n p) = 2) ∧
  (∃ (s : State) (p : Nat) (h : Nat) (y : MrRx) (x : HRec), FrameTaken s p y (.release h) ∧ s.get (E.millrace_role.n
    p) = 1 ∧ s.get E.ft_source_port.s = p ∧ s.liveH 1 h = some x) ∧
  (∃ (s : State) (p : Nat) (payload : List Byte) (x : MrRx), FrameTaken s p x (.digest payload) ∧ s.get
    (E.millrace_role.n p) = 3) ∧
  (∃ (s : State) (cur : Nat), s.get E.lockstep_state.s = 3 ∧ s.lockWindow = some cur ∧ s.lock.compared + 3 ≤ cur ∧
    s.lockComplete s.lock.compared = false) :=
  ⟨⟨mr0, 0, 7, 20000005001, rxOf (.arm 7 20000005001), frame_of (by decide +kernel), by decide +kernel⟩,
   ⟨{ mr0 with launches := [⟨7, 20000006000, false⟩] }, 0, 7, rxOf (.confirm 7), ⟨7, 20000006000, false⟩,
     frame_of (by decide +kernel), by decide +kernel⟩,
   ⟨{ mr0 with launches := [⟨7, 20000006000, false⟩] }, 0, 7, rxOf (.abort 7), ⟨7, 20000006000, false⟩,
     frame_of (by decide +kernel), by decide +kernel⟩,
   ⟨{ mr0 with launches := [⟨7, 20000005000, false⟩] }, 7, ⟨7, 20000005000, false⟩, by decide +kernel⟩,
   ⟨mrMod mr0 4 fun m => { m with notes := [⟨[], 1, 19999999000⟩] }, 4, _, rfl, by decide +kernel⟩,
   ⟨mrMod (sets mr0 [(E.millrace_tx_sleep.n 4, 1)]) 4 fun m => { m with sleepAt := some 20000000000 }, 4, 20000000000,
     by decide +kernel⟩,
   ⟨mr0, 4, List.replicate 20 3, rxOf (.missed (List.replicate 20 3)), frame_of (by decide +kernel), by decide +kernel⟩,
   ⟨mr0, 4, 0x10100003, rxOf (.arrive 0x10100003), frame_of (by decide +kernel), by decide +kernel⟩,
   ⟨mr0.makeLive 1 3 0, 0, 0x10100003, rxOf (.release 0x10100003), ⟨1, 0⟩, frame_of (by decide +kernel), by decide +kernel⟩,
   ⟨mr0, 7, List.replicate 10 0 ++ [1] ++ List.replicate 9 0,
     rxOf (.digest (List.replicate 10 0 ++ [1] ++ List.replicate 9 0)), frame_of (by decide +kernel), by decide +kernel⟩,
   ⟨{ sets live [(E.lockstep_state.s, 3), (E.weir_cycle.s, 48), (E.lockstep_window_cycles.s, 16), (E.lockstep_ports.s, 1)] with lock := { live.lock with w0 := some 0 } }, 3, by decide +kernel⟩⟩

theorem wit_MillraceBringUpCompletes :
  (∃ (s : State) (p : Nat), s.get (E.millrace_state.n p) = 1 ∧ ((mrOf s p).lastProbe = 0 ∨ (mrOf s p).lastProbe +
    1000000 ≤ s.ft + 1)) ∧
  (∃ (s : State) (p : Nat), s.get (E.millrace_state.n p) = 1 ∧ ((mrOf s p).lastProbe = 0 ∨ (mrOf s p).lastProbe +
    1000000 ≤ s.ft + 1)) ∧
  (∃ (s : State) (p : Nat), s.get (E.millrace_state.n p) = 2) ∧
  (∃ (s : State) (p : Nat) (a : State), s.get (E.millrace_state.n p) = 3 ∧ a = mrStage (s.emit (.mrLine p (.training
    true))) p 4) ∧
  (∃ (s : State) (p : Nat) (lim : Nat), mrStageLimit (s.get (E.millrace_state.n p)) = some lim ∧ (mrOf s p).stageAt
    + lim ≤ s.ft ∧ (mrOf s p).mismatch = false) ∧
  (∃ (s : State) (p : Nat) (payload : List Byte) (x : MrRx), s.get (E.millrace_state.n p) = 4 ∧ FrameHeard s p x
    (.capability payload) ∧ leAt payload 1 1 = partnerRole (s.get (E.millrace_role.n p))) ∧
  (∃ (s : State) (p : Nat), s.get (E.millrace_state.n p) = 4 ∧ (mrOf s p).mismatch = true ∧ (mrOf s p).stageAt +
    1000000 ≤ s.ft) ∧
  (∃ (s : State) (p : Nat) (n : Nat) (_ : Nat) (x : MrRx), FrameHeard s p x (.probe n)) ∧
  (∃ (s : State) (p : Nat) (n : Nat) (turn : Nat) (_ : Nat) (x : MrRx) (q : Nat × Nat), s.get (E.millrace_state.n p)
    = 4 ∧ FrameHeard s p x (.echo n turn) ∧ (mrOf s p).probes.find? (fun q => q.1 = n) = some q) ∧
  (∃ (s : State) (p : Nat), s.get (E.millrace_prbs.n p) ≠ 1 ∧ 3 ≤ s.get (E.millrace_state.n p) ∧ (mrOf s p).bubble =
    false) ∧
  (∃ (s : State) (p : Nat) (pairs : Nat), (mrOf s p).bubble = true ∧ pairs < 1024) ∧
  (∃ (s : State) (p : Nat), (mrOf s p).bubble = true) ∧
  (∃ (s : State) (p : Nat), 2 ≤ s.get (E.millrace_state.n p) ∧ s.get (E.millrace_rx_state.n p) ≠ 2) :=
  ⟨⟨live, 0, by decide +kernel⟩,
   ⟨live, 0, by decide +kernel⟩,
   ⟨sets live [(E.millrace_state.n 0, 2)], 0, by decide +kernel⟩,
   ⟨sets live [(E.millrace_state.n 0, 3)], 0, _, by decide +kernel, rfl⟩,
   ⟨mrMod (sets live [(E.millrace_state.n 0, 4)]) 0 fun m => { m with stageAt := 19999000000 }, 0, 1000000,
     by decide +kernel⟩,
   ⟨mr4, 0, [1, 2, 0, 0, 0, 0, 0, 0, 0, 0, 0, 0], rxOf (.capability [1, 2, 0, 0, 0, 0, 0, 0, 0, 0, 0, 0]), by decide +kernel,
     heard_of (by decide +kernel), by decide +kernel⟩,
   ⟨mrMod (sets live [(E.millrace_state.n 0, 4)]) 0 fun m => { m with mismatch := true, stageAt := 19999000000 }, 0,
     by decide +kernel⟩,
   ⟨mr4, 0, 3, 20, rxOf (.probe 3), heard_of (by decide +kernel)⟩,
   ⟨mrMod mr4 0 fun m => { m with probes := [(3, 0)] }, 0, 3, 100, 5, rxOf (.echo 3 100), (3, 0), by decide +kernel,
     heard_of (by decide +kernel), by decide +kernel⟩,
   ⟨sets live [(E.millrace_state.n 0, 3)], 0, by decide +kernel⟩,
   ⟨mrMod mr0 0 fun m => { m with bubble := true }, 0, 1023, by decide +kernel⟩,
   ⟨mrMod mr0 0 fun m => { m with bubble := true }, 0, by decide +kernel⟩,
   ⟨sets live [(E.millrace_state.n 0, 2)], 0, by decide +kernel⟩⟩

theorem wit_MillraceLinksComplete :
  (∃ (s : State) (p : Nat) (x : MrRx), FrameTaken s p x .sleep) ∧
  (∃ (s : State) (p : Nat), s.get (E.millrace_rx_state.n p) = 2) ∧
  (∃ (s : State) (p : Nat) (a : State), mrCarries s p = true ∧ (mrOf s p).bubble = false ∧ s.get
    (E.millrace_rx_state.n p) = 1 ∧ a = (s.inc (E.millrace_wakes.n p) 1).mrFlag p 8) ∧
  (∃ (s : State) (p : Nat), s.get (E.millrace_tx_state.n p) = 3 ∧ (mrOf s p).wakeAt + 200000 ≤ s.ft) ∧
  (∃ (s : State) (p : Nat) (a : State), s.get (E.millrace_tx_state.n p) = 3 ∧ a = sendNotes (mrSetLine (s.set
    (E.millrace_tx_state.n p) 1) p .idle) p) ∧
  (∃ (s : State) (r : Req) (w : Who) (p : Nat) (v : Nat), Accepts s r w E.millrace_role p 0 0 v ∧ (v ≠ 1 ∨ p < 2) ∧
    s.get E.ft_source_port.s ≠ p) ∧
  (∃ (s : State) (r : Req) (w : Who) (p : Nat) (v : Nat), Accepts s r w E.millrace_loopback p 0 0 v ∧ (v = 1 ∨ v =
    2) ∧ s.get E.ft_source_port.s ≠ p ∧ lockstepOn s p = false) ∧
  (∃ (s : State) (r : Req) (w : Who) (p : Nat) (v : Nat), Accepts s r w E.millrace_prbs p 0 0 v ∧ (v = 0 ∨ (s.get
    E.ft_source_port.s ≠ p ∧ lockstepOn s p = false)) ∧ s.get (E.millrace_prbs.n p) ≠ v) ∧
  (∃ (s : State) (r : Req) (w : Who) (p : Nat) (v : Nat), Accepts s r w E.millrace_tx_sleep p 0 0 v ∧ v = 1 ∧ s.get
    (E.millrace_tx_state.n p) = 1) ∧
  (∃ (s : State) (r : Req) (w : Who) (p : Nat) (v : Nat), Accepts s r w E.millrace_send_wake p 0 0 v ∧ v = 1 ∧ s.get
    (E.millrace_tx_state.n p) = 1) :=
  ⟨⟨mr0, 0, rxOf .sleep, frame_of (by decide +kernel)⟩,
   ⟨sets mr0 [(E.millrace_rx_state.n 0, 2)], 0, by decide +kernel⟩,
   ⟨mr0, 0, _, by decide +kernel, by decide +kernel, by decide +kernel, rfl⟩,
   ⟨mrMod (sets mr0 [(E.millrace_tx_state.n 4, 3)]) 4 fun m => { m with wakeAt := 19999800000 }, 4, by decide +kernel⟩,
   ⟨sets mr0 [(E.millrace_tx_state.n 4, 3)], 4, _, by decide +kernel, rfl⟩,
   ⟨live, rq 1, own, 1, 1, accepts_of (by decide +kernel), by decide +kernel⟩,
   ⟨live, rq 1, own, 0, 2, accepts_of (by decide +kernel), by decide +kernel⟩,
   ⟨live, rq 1, own, 0, 1, accepts_of (by decide +kernel), by decide +kernel⟩,
   ⟨mr0, rq 1, own, 4, 1, accepts_of (by decide +kernel), by decide +kernel⟩,
   ⟨mr0, rq 1, own, 4, 1, accepts_of (by decide +kernel), by decide +kernel⟩⟩

theorem wit_PortConfigurationCompletes :
  (∃ (s : State) (r : Req) (w : Who) (n : Nat) (v : Nat), Accepts s r w E.port_width n 0 0 v ∧ 1 ≤ v ∧ portFits s n
    v = true ∧ 65536 ≤ (s.set (E.port_width.n n) v).sharedCells) ∧
  (∃ (s : State) (r : Req) (w : Who) (n : Nat) (v : Nat), Accepts s r w E.port_mode n 0 0 v ∧ s.isPort n = true ∧
    roleMode (s.get (E.port_role.n n)) v = true ∧ (v ≠ 1 ∨ s.get (E.port_fec.n n) ≠ 1)) ∧
  (∃ (s : State) (r : Req) (w : Who) (n : Nat) (v : Nat), Accepts s r w E.port_fec n 0 0 v ∧ s.isPort n = true ∧ (v
    ≠ 1 ∨ s.get (E.port_mode.n n) ≠ 1)) ∧
  (∃ (s : State) (r : Req) (w : Who) (n : Nat) (v : Nat), Accepts s r w E.port_role n 0 0 v ∧ s.isPort n = true ∧
    roleMode v (s.get (E.port_mode.n n)) = true ∧ (v ≠ 3 ∨ 4214 ≤ s.get (E.port_mtu.n n))) ∧
  (∃ (s : State) (r : Req) (w : Who) (n : Nat) (v : Nat), Accepts s r w E.port_an n 0 0 v ∧ s.isPort n = true) ∧
  (∃ (s : State) (r : Req) (w : Who) (n : Nat) (v : Nat), Accepts s r w E.port_control_role n 0 0 v ∧ s.isPort n =
    true) ∧
  (∃ (s : State) (r : Req) (w : Who) (n : Nat) (v : Nat), Accepts s r w E.port_control_partition n 0 0 v ∧ s.isPort
    n = true) ∧
  (∃ (s : State) (r : Req) (w : Who) (n : Nat) (v : Nat), Accepts s r w E.port_restore n 0 0 v ∧ s.isPort n = true ∧
    v = 1 ∧ (s.prt n).good = fullMap (s.get (E.port_width.n n)) ∧ s.get (E.port_state.n n) = 3 ∧ s.get
    (E.port_mode.n n) = 0) ∧
  (∃ (s : State) (r : Req) (w : Who) (n : Nat) (v : Nat), Accepts s r w E.port_loopback n 0 0 v ∧ s.isPort n = true
    ∧ s.get (E.port_state.n n) ≠ 0) ∧
  (∃ (s : State) (r : Req) (w : Who) (n : Nat) (v : Nat), Accepts s r w E.port_prbs n 0 0 v ∧ s.isPort n = true ∧
    s.get (E.port_state.n n) ≠ 0) :=
  ⟨⟨live, rq 1, own, 8, 8, accepts_of (by decide +kernel), by decide +kernel⟩,
   ⟨sets (port 0) [(E.port_role.n 0, 0)], rq 1, own, 0, 1, accepts_of (by decide +kernel), by decide +kernel⟩,
   ⟨port 2, rq 1, own, 0, 1, accepts_of (by decide +kernel), by decide +kernel⟩,
   ⟨ethPort, rq 1, own, 0, 3, accepts_of (by decide +kernel), by decide +kernel⟩,
   ⟨port 2, rq 1, own, 0, 1, accepts_of (by decide +kernel), by decide +kernel⟩,
   ⟨port 2, rq 1, own, 0, 255, accepts_of (by decide +kernel), by decide +kernel⟩,
   ⟨port 2, rq 1, own, 0, 4095, accepts_of (by decide +kernel), by decide +kernel⟩,
   ⟨portWith 3 fun x => { x with good := 255 }, rq 1, own, 0, 1, accepts_of (by decide +kernel), by decide +kernel⟩,
   ⟨port 2, rq 1, own, 0, 1, accepts_of (by decide +kernel), by decide +kernel⟩,
   ⟨port 2, rq 1, own, 0, 1, accepts_of (by decide +kernel), by decide +kernel⟩⟩

theorem wit_PortTrainingCompletes :
  (∃ (s : State) (n : Nat) (map : Nat), s.get (E.port_width.n n) ≠ 0 ∧ s.refLost.contains (n / 256) = false ∧
    s.groupsOut.contains (n / 16) = false ∧ (s.get (E.port_state.n n) = 1 ∨ s.get (E.port_state.n n) = 4) ∧ s.get
    (E.port_loopback.n n) = 0 ∧ s.get (E.port_prbs.n n) = 0 ∧ map % 2 ^ s.get (E.port_width.n n) = fullMap (s.get
    (E.port_width.n n))) ∧
  (∃ (s : State) (n : Nat) (_ : Bool) (a : State), s.mgmt.restarting = false ∧ (s.get (E.port_state.n n) = 1 ∨ s.get
    (E.port_state.n n) = 4) ∧ (s.prt n).trainAt + 500000000 ≤ s.ft ∧ a = ((s.modPort n fun x => { x with
    trainAt := s.ft, partialAt := none, good := 0 }).set (E.port_state.n n) 1)) ∧
  (∃ (s : State) (n : Nat) (t : Nat) (x : Nat × Nat), (s.prt n).partialAt = some t ∧ (s.get (E.port_state.n n) = 1 ∨
    s.get (E.port_state.n n) = 4) ∧ t + 100000000 ≤ s.ft ∧ s.get (E.port_mode.n n) = 0 ∧ s.setS n = some x) ∧
  (∃ (s : State) (n : Nat) (rates : List Nat) (a : State), s.get (E.port_width.n n) ≠ 0 ∧ a = (List.range (s.get
    (E.port_width.n n))).foldl (fun (x : State) k => x.set (E.lane_pre_fec_ber.n (n + k)) (rates.getD k 0)) s) ∧
  (∃ (s : State) (n : Nat) (_ : List (List Bool)), s.get (E.port_state.n n) = 6) ∧
  (∃ (s : State) (n : Nat) (t : Nat), (s.prt n).holdAt = some t ∧ s.get (E.port_state.n n) = 3 ∧ s.get
    (E.port_mode.n n) = 0 ∧ t + s.get (E.port_restore_hold.n n) ≤ s.ft ∧ s.getB (E.port_auto_restore.n n) = true ∧
    (s.prt n).good = fullMap (s.get (E.port_width.n n))) ∧
  (∃ (s : State) (l : Nat), laneFitted s.part l = true ∧ s.get (E.lane_state.n l) ≠ 3 ∧ s.get (E.lane_state.n l) ≠
    0) ∧
  (∃ (s : State) (l : Nat) (snr : Nat) (a : State), laneFitted s.part l = true ∧ a = ({ s with
    refLost := s.refLost.filter (fun d => d ≠ l / 256) }.set (E.lane_snr.n l) snr) ∧ a.portOf l = none) ∧
  (∃ (s : State) (l : Nat) (snr : Nat) (n : Nat) (a : State) (b : State), laneFitted s.part l = true ∧ a = ({ s with
    refLost := s.refLost.filter (fun d => d ≠ l / 256) }.set (E.lane_snr.n l) snr) ∧ a.portOf l = some n ∧ b =
    (((a.set (E.lane_state.n l) 2).modPort n fun x => { x with good := setBitAt x.good (l - n) }).rxGood n)) ∧
  (∃ (s : State) (die : Nat) (a : State), s.refLost.contains die = false ∧ a = { s with
    refLost := die :: s.refLost } ∧ (a.portList.filter (fun n => n / 256 = die ∧ a.get (E.port_state.n n) ≠ 0) =
    [])) ∧
  (∃ (s : State) (die : Nat) (n : Nat) (w : Nat) (a : State) (b : State), s.refLost.contains die = false ∧ a =
    { s with
    refLost := die :: s.refLost } ∧ a.portList.filter (fun n => n / 256 = die ∧ a.get (E.port_state.n n) ≠ 0) = [n]
    ∧ w = a.get (E.port_width.n n) ∧ b = (((List.range w).foldl (fun (x : State) k => x.inc (E.lane_losses.n (n +
    k)) 1) (a.lanesTo n w 3) |>.modPort n fun x => { x with good := 0 }).rxGood n)) :=
  ⟨⟨port 1, 0, 255, by decide +kernel⟩,
   ⟨portWith 1 fun x => { x with trainAt := 19500000000 }, 0, true, _, by decide +kernel, by decide +kernel, by decide +kernel, rfl⟩,
   ⟨portWith 1 fun x => { x with partialAt := some 19900000000, good := 15 }, 0, 19900000000, (4, 0), by decide +kernel⟩,
   ⟨port 2, 0, [6], _, by decide +kernel, rfl⟩,
   ⟨port 6, 0, [[true]], by decide +kernel⟩,
   ⟨portWith 3 fun x => { x with good := 255, holdAt := some 1000 }, 0, 1000, by decide +kernel⟩,
   ⟨sets live [(E.lane_state.n 1023, 2)], 1023, by decide +kernel⟩,
   ⟨live, 1023, 20, _, by decide +kernel, rfl, by decide +kernel⟩,
   ⟨port 2, 3, 20, 0, _, _, by decide +kernel, rfl, by decide +kernel, rfl⟩,
   ⟨live, 3, _, by decide +kernel, rfl, by decide +kernel⟩,
   ⟨port 2, 0, 0, 8, _, _, by decide +kernel, rfl, by decide +kernel, by decide +kernel, rfl⟩⟩

theorem wit_PortFramesComplete :
  (∃ (s : State) (n : Nat), (s.get (E.port_state.n n) = 2 ∨ s.get (E.port_state.n n) = 3) ∧ s.get (E.port_mode.n n)
    = 0 ∧ (s.prt n).markAt ≤ s.ft * 10 + 9 ∧ (∀ x, s.setS n = some x → setMap x = (s.prt n).txMap)) ∧
  (∃ (s : State) (n : Nat) (x : Nat × Nat) (a : State), (s.get (E.port_state.n n) = 2 ∨ s.get (E.port_state.n n) =
    3) ∧ s.get (E.port_mode.n n) = 0 ∧ (s.prt n).markAt ≤ s.ft * 10 + 9 ∧ s.setS n = some x ∧ setMap x ≠ (s.prt
    n).txMap ∧ x.1 ≤ popCount 8 (s.prt n).txMap ∧ a = (bitList 8 (s.prt n).txMap).foldl (fun (y : State) k => y.emit
    (.laneStatus n (laneBlock (setMap x) (s.prt n).good k (s.prt n).markSeq (if (s.prt n).ready then 1 else 0)))) s) ∧
  (∃ (s : State) (n : Nat) (b : List Byte) (a : State) (x : Nat × Nat), crc8 (slice b 1 6) = leAt b 7 1 ∧ (s.get
    (E.port_state.n n) = 2 ∨ s.get (E.port_state.n n) = 3) ∧ a = ((s.modPort n fun r => { r with
    rxMap := leAt b 1 1, partner := leAt b 2 1, partnerFlag := leAt b 5 1 % 2 == 1 }).rxGood n) ∧ a.setS n = some x) ∧
  (∃ (s : State) (n : Nat) (b : List Byte) (crc : Nat) (words : List (Nat × List Nat)) (_ : Bool) (idle : Nat)
    (startFt : Nat) (fixed : Nat) (a : State), s.isPort n = true ∧ s.get (E.port_mode.n n) = 0 ∧ s.inService n =
    true ∧ (s.get (E.port_state.n n) ≠ 5 ∨ s.get (E.port_loopback.n n) ≠ 3) ∧ fecCount (s.get (E.port_fec.n n))
    words = (fixed, 0) ∧ endingOf b crc = 0 ∧ 64 ≤ b.length ∧ b.length ≤ 4144 ∧ a = gaugeReceive ((s.inc
    (E.port_fec_corrected.n n) fixed).inc (E.port_fec_uncorrectable.n n) 0) n b 0 idle startFt ∧ landingFull a n 0 =
    false) ∧
  (∃ (s : State) (n : Nat) (b : List Byte) (fcs : Nat) (_ : Bool) (words : List (Nat × List Nat)) (used : Nat) (_ :
    Nat) (fixed : Nat) (a : State), s.inService n = true ∧ s.get (E.port_mode.n n) = 1 ∧ landingFull s n used =
    false ∧ (s.get (E.port_state.n n) ≠ 5 ∨ s.get (E.port_loopback.n n) ≠ 3) ∧ fecCount 0 words = (fixed, 0) ∧
    endingOf b fcs = 0 ∧ 60 ≤ b.length ∧ a = (s.inc (E.port_fec_corrected.n n) fixed).inc
    (E.port_fec_uncorrectable.n n) 0 ∧ b.length + 4 ≤ a.get (E.port_mtu.n n) ∧ 0x0180C2000000 ≤ beAt b 0 6 ∧ beAt b
    0 6 ≤ 0x0180C200000F ∧ (if (frameTag b).isSome then beAt b 16 2 else beAt b 12 2) ≠ 0x8808) ∧
  (∃ (s : State) (n : Nat) (b : List Byte) (fcs : Nat) (_ : Bool) (words : List (Nat × List Nat)) (used : Nat) (_ :
    Nat) (fixed : Nat) (a : State), s.inService n = true ∧ s.get (E.port_mode.n n) = 1 ∧ landingFull s n used =
    false ∧ (s.get (E.port_state.n n) ≠ 5 ∨ s.get (E.port_loopback.n n) ≠ 3) ∧ fecCount 0 words = (fixed, 0) ∧
    endingOf b fcs = 0 ∧ 60 ≤ b.length ∧ a = (s.inc (E.port_fec_corrected.n n) fixed).inc
    (E.port_fec_uncorrectable.n n) 0 ∧ b.length + 4 ≤ a.get (E.port_mtu.n n) ∧ (¬ (0x0180C2000000 ≤ beAt b 0 6 ∧
    beAt b 0 6 ≤ 0x0180C200000F)) ∧ a.get (E.port_role.n n) ≠ 3) ∧
  (∃ (s : State) (old : List MacRec) (a : State), s.get E.bridge_ageing_time.s ≠ 0 ∧ old = (s.macTable.filter (fun x
    => !x.static_ && decide (s.macAge x.slot + s.get E.bridge_ageing_time.s * 1000000000 ≤ s.ft))) ∧ a = (old.foldl
    (fun (st : State) x => st.macDel x.slot) s)) :=
  ⟨⟨portWith 2 fun x => { x with good := 255, partner := 255, txMap := 255 }, 0, by decide +kernel, by decide +kernel,
     by decide +kernel, only_of (a := (8, 0)) (by decide +kernel) (by decide)⟩,
   ⟨portWith 3 fun x => { x with good := 15, partner := 255, txMap := 255 }, 0, (4, 0), _, by decide +kernel, by decide +kernel,
     by decide +kernel, by decide +kernel, by decide +kernel, by decide +kernel, rfl⟩,
   ⟨portWith 3 fun x => { x with good := 15 }, 0, (laneBytes ++ leBytes 1 (crc8 (laneBytes.drop 1))), _, (4, 0),
     by decide +kernel, by decide +kernel, rfl, by decide +kernel⟩,
   ⟨port 2, 0, List.replicate 64 0, crc32 (List.replicate 64 0), [], true, 0, 20000000000, 0, _, by decide +kernel,
     by decide +kernel, by decide +kernel, by decide +kernel, by decide +kernel, by decide +kernel, by decide +kernel,
     by decide +kernel, rfl, by decide +kernel⟩,
   ⟨ethPort, 0, frame60, crc32 frame60, true, [], 0, 20000000000, 0, _, by decide +kernel, by decide +kernel,
     by decide +kernel, by decide +kernel, by decide +kernel, by decide +kernel, by decide +kernel, rfl, by decide +kernel⟩,
   ⟨sets ethPort [(E.port_role.n 0, 1)], 0, frame61, crc32 frame61, true, [], 0, 20000000000, 0, _, by decide +kernel,
     by decide +kernel, by decide +kernel, by decide +kernel, by decide +kernel, by decide +kernel, by decide +kernel, rfl,
     by decide +kernel⟩,
   ⟨live, _, _, by decide +kernel, rfl, rfl⟩⟩

theorem wit_SwitchArrivalCompletes :
  (∃ (s : State) (n : Nat) (_ : List Byte) (used : Nat) (_ : Nat), s.isPort n = true ∧ s.get (E.port_mode.n n) = 0 ∧
    (s.inService n = true ∨ s.recabled n = true) ∧ landingFull s n used = false) ∧
  (∃ (s : State) (id : Nat) (e : EddyPkt) (h : Rill) (payload : List Byte), s.sw.eddy.find? (fun e => e.pkt.id = id)
    = some e ∧ e.enterFt + 160 ≤ s.ft ∧ e.pkt.body = .rill h payload ∧ s.get (E.bundle_link_allowance.n
    e.pkt.bundle) = (s.sub E.rill_eddy_used.s e.bytes).get (E.bundle_link_allowance.n e.pkt.bundle) ∧ residenceUnits
    e.pkt.arrFt s.ft + s.get (E.bundle_link_allowance.n e.pkt.bundle) < h.lifetime) ∧
  (∃ (s : State), mgetD s.sw.faultWin 0 0 + s.get E.rill_fault_window.s ≤ s.ft ∧ s.sw.faultCnt.filter (fun x =>
    decide (s.get E.rill_fault_rate.s < x.2)) = []) ∧
  (∃ (s : State) (x : Nat × Nat), mgetD s.sw.faultWin 0 0 + s.get E.rill_fault_window.s ≤ s.ft ∧
    s.sw.faultCnt.filter (fun x => decide (s.get E.rill_fault_rate.s < x.2)) = [x] ∧ x.1 < 20000) ∧
  (∃ (s : State) (b : Nat) (factor : NMap Nat), mgetD s.sw.adaptAt b 0 + s.get (E.bundle_adapt_interval.n b) ≤ s.ft
    ∧ (s.getB (E.bundle_adaptive.n b) = false → factor = s.sw.factor) ∧ (s.getB (E.bundle_adaptive.n b) = true →
    factor = (s.members b).foldl (fun (m : NMap Nat) (c : Nat × Nat) => if s.inService c.2 = false then m else mput
    m c.2 (if s.get (E.bundle_delay_target.n b) * (mgetD s.sw.delaySum c.2 (0, 0)).2 < (mgetD s.sw.delaySum c.2 (0,
    0)).1 ∨ (s.get (E.port_role.n c.2) = 3 ∧ 0 < mgetD s.sw.ceSeen b 0) then max (s.health c.2 - 1) 1 else min
    (s.health c.2 + 1) 16)) s.sw.factor)) ∧
  (∃ (s : State) (_ : Nat) (id : Nat) (_ : Nat) (x : Pkt) (a : State), a = s.inc E.rsv_ecc_uncorrectable.s 1 ∧
    a.sw.pkts.find? (fun x => x.id = id) = some x) :=
  ⟨⟨port 2, 0, List.replicate 64 0, 0, 20000000000, by decide +kernel⟩,
   ⟨{ port 2 with sw := { live.sw with eddy := [⟨pkt, 86, 19999999840, 1, 256⟩] } }, 1, ⟨pkt, 86, 19999999840, 1, 256⟩, hdr, [],
     by decide +kernel⟩,
   ⟨live, by decide +kernel⟩,
   ⟨{ live with sw := { live.sw with faultCnt := [(19999, 1000000)] } }, (19999, 1000000), by decide +kernel⟩,
   ⟨sets live [(E.bundle_adaptive.n 1023, 1)], 1023, _, by decide +kernel, fun h => absurd h (by decide +kernel), fun _ => rfl⟩,
   ⟨{ port 2 with sw := { live.sw with pkts := [pkt] } }, 7, 1, 0, pkt, _, rfl, by decide +kernel⟩⟩

theorem wit_SwitchSendingCompletes :
  (∃ (s : State) (a : State) (b : State) (c : State), a = s.lockDue ∧ b = (a.weirPairs 0).foldl (fun (st : State) x
    => weirSend st x.1 x.2) a ∧ c = planeMatch ((b.weirPairs 3).map (·.1)) ((b.weirPairs 3).map (·.2)) (planeMatch
    ((b.weirPairs 3).map (·.1)) ((b.weirPairs 3).map (·.2)) b 0) 1) ∧
  (∃ (s : State) (n : Nat) (q : Nat) (a : State) (b : State), s.inService n = true ∧ (s.ptx n).named = none ∧
    ((s.ptx n).txPkt = none ∨ (s.ptx n).endAt ≤ s.ft * 1000 + 64000) ∧ a = s.gateWaits n (max s.ft (ceilDiv (s.ptx
    n).endAt 1000)) ∧ a.schedPick n (max s.ft (ceilDiv (s.ptx n).endAt 1000)) = some (q, b)) ∧
  (∃ (s : State) (n : Nat) (id : Nat) (x : Pkt), (s.ptx n).txPkt = some id ∧ (s.ptx n).endAt ≤ s.ft * 1000 + 999 ∧
    s.sw.pkts.find? (fun x => x.id = id) = some x ∧ x.cells ≤ x.crossed) ∧
  (∃ (s : State) (n : Nat), (s.ptx n).txPkt = none) ∧
  (∃ (s : State) (n : Nat) (q : Nat), s.depth n q = 0 ∧ mgetD s.sw.avgAt (qSlot n q) 0 + 1024 ≤ s.ft) ∧
  (∃ (s : State) (p : Nat) (a : State) (b : State), bitAt (s.get E.xbar_plane_state.s) p = true ∧ a = s.set
    E.xbar_plane_state.s (clearBitAt (s.get E.xbar_plane_state.s) p) ∧ b = a.set E.xbar_plane_enable.s (clearBitAt
    (a.get E.xbar_plane_enable.s) p)) ∧
  (∃ (s : State) (t : Nat), s.get E.sched_sample_interval.s ≠ 0 ∧ t = s.ft - s.ft % s.get E.sched_sample_interval.s
    ∧ t ≠ 0 ∧ s.qs.sampleAt < t) ∧
  (∃ (s : State) (r : Req) (w : Who) (v : Nat), Accepts s r w E.xbar_plane_enable 0 0 0 v) ∧
  (∃ (s : State) (r : Req) (w : Who) (v : Nat), Accepts s r w E.rsv_red_seed 0 0 0 v) ∧
  (∃ (s : State) (r : Req) (w : Who) (v : Nat), Accepts s r w E.rsv_window_region 0 0 0 v ∧ s.portList.any (fun n =>
    s.get (E.port_state.n n) != 0) = false ∧ 65536 ≤ (s.set E.rsv_window_region.s v).sharedCells) :=
  ⟨⟨{ sets live [(E.weir_state.s, 3)] with weir := { live.weir with s := 128 }, cyc := { live.cyc with n := 30 } }, _, _, _, rfl,
     rfl, rfl⟩,
   ⟨sendable, 0, (picked.1), _, (picked.2), by decide +kernel, by decide +kernel, by decide +kernel, rfl,
     get_of (by decide +kernel)⟩,
   ⟨{ sendable with qs := { live.qs with tx := [(0, ⟨none, some 1, 0, 20000000000999, 0, 0, 0, 0, 0, [], 0, []⟩)] } }, 0, 1,
     { pkt with crossed := 1, granted := 1 }, by decide +kernel⟩,
   ⟨live, 1023, by decide +kernel⟩,
   ⟨live, 1023, 15, by decide +kernel⟩,
   ⟨live, 1, _, _, by decide +kernel, rfl, rfl⟩,
   ⟨sets live [(E.sched_sample_interval.s, 1000)], _, by decide +kernel, rfl, by decide +kernel⟩,
   ⟨live, rq 1, own, 3, accepts_of (by decide +kernel)⟩,
   ⟨live, rq 1, own, 1, accepts_of (by decide +kernel)⟩,
   ⟨live, rq 1, own, 0, accepts_of (by decide +kernel), by decide +kernel⟩⟩

theorem wit_GatesComplete :
  (∃ (s : State) (r : Req) (w : Who) (h : Nat) (v : Nat), Accepts s r w E.gate_start 0 0 h v ∧ s.get (E.gate_state.h
    (hIdx h)) = 0 ∧ s.isPort (s.get (E.gate_port.h (hIdx h))) = true ∧ ((s.liveIdx 9).any (fun i => i ≠ hIdx h ∧
    s.get (E.gate_port.h i) = s.get (E.gate_port.h (hIdx h)) ∧ (s.get (E.gate_state.h i) = 1 ∨ s.get (E.gate_state.h
    i) = 2)) = false) ∧ s.ftTest v = 0) ∧
  (∃ (s : State) (r : Req) (w : Who) (h : Nat) (v : Nat), Accepts s r w E.gate_stop 0 0 h v ∧ v = 1 ∧ (gateCatch s
    (hIdx h)).get (E.gate_state.h (hIdx h)) = 1) ∧
  (∃ (s : State) (r : Req) (w : Who) (h : Nat) (v : Nat), Accepts s r w E.gate_stop 0 0 h v ∧ v = 1 ∧ (gateCatch s
    (hIdx h)).get (E.gate_state.h (hIdx h)) = 2 ∧ ((gateCatch s (hIdx h)).gateRt (hIdx h)).pend = none) ∧
  (∃ (s : State) (r : Req) (w : Who) (h : Nat) (v : Nat), Accepts s r w E.gate_switch_at 0 0 h v ∧ s.get
    (E.gate_state.h (hIdx h)) = 2 ∧ (s.gateRt (hIdx h)).pend = none ∧ s.schedFt (.gateSwitch (hIdx h)) = none ∧ v ≠
    0 ∧ s.ftTest v = 0) ∧
  (∃ (s : State) (r : Req) (w : Who) (h : Nat) (v : Nat) (a : State), Accepts s r w E.gate_switch_at 0 0 h v ∧ s.get
    (E.gate_state.h (hIdx h)) = 2 ∧ (s.gateRt (hIdx h)).pend = none ∧ s.schedFt (.gateSwitch (hIdx h)) = none ∧ v =
    0 ∧ gateLand s (hIdx h) = some a) ∧
  (∃ (s : State) (ft : Nat) (seq : Nat) (slot : Nat), s.dueAct = some ⟨ft, seq, .gateStart slot⟩) ∧
  (∃ (s : State) (ft : Nat) (seq : Nat) (slot : Nat) (a : State), s.dueAct = some ⟨ft, seq, .gateSwitch slot⟩ ∧
    gateLand (s.unschedule (.gateSwitch slot)) slot = some a) ∧
  (∃ (s : State) (n : Nat) (slot : Nat) (k : Nat) (a : State), s.portGate n = some slot ∧ (s.gateRt slot).boundary ≤
    s.ft ∧ (s.gateRt slot).pend = none ∧ k = s.gateAfter slot (s.get (E.gate_entry.h slot)) ∧ a = (s.touchPort
    n).set (E.gate_entry.h slot) k) ∧
  (∃ (s : State) (n : Nat) (slot : Nat) (alt : Nat) (a : State), s.portGate n = some slot ∧ (s.gateRt slot).boundary
    ≤ s.ft ∧ (s.gateRt slot).pend = some alt ∧ s.get (E.gate_entry.h slot) = (s.gateRt slot).last ∧ a = gateHalt
    (s.inc (E.gate_switches.h slot) 1) slot) :=
  ⟨⟨gated 0, rq 1, own, 0x90100000, 20000010000, accepts_of (by decide +kernel), by decide +kernel⟩,
   ⟨gated 1, rq 1, own, 0x90100000, 1, accepts_of (by decide +kernel), by decide +kernel⟩,
   ⟨gated 2, rq 1, own, 0x90100000, 1, accepts_of (by decide +kernel), by decide +kernel⟩,
   ⟨gated 2, rq 1, own, 0x90100000, 20000010000, accepts_of (by decide +kernel), by decide +kernel⟩,
   ⟨gated 2, rq 1, own, 0x90100000, 0, ((gateLand (gated 2) 0).get (by decide +kernel)), accepts_of (by decide +kernel),
     by decide +kernel, by decide +kernel, by decide +kernel, by decide +kernel, get_of (by decide +kernel)⟩,
   ⟨(gated 1).schedule 20000000000 (.gateStart 0), 20000000000, 0, 0, by decide +kernel⟩,
   ⟨(gated 2).schedule 20000000000 (.gateSwitch 0), 20000000000, 0, 0,
     ((gateLand (((gated 2).schedule 20000000000 (.gateSwitch 0)).unschedule (.gateSwitch 0)) 0).get (by decide +kernel)),
       by decide +kernel, get_of (by decide +kernel)⟩,
   ⟨gated 2, 0, 0, _, _, by decide +kernel, by decide +kernel, by decide +kernel, rfl, rfl⟩,
   ⟨{ gated 2 with qs := { live.qs with gate := [(0, ⟨some 1, 0, 0, none⟩)] } }, 0, 0, 1, _, by decide +kernel, by decide +kernel,
     by decide +kernel, by decide +kernel, rfl⟩⟩

theorem wit_CollectivesComplete :
  (∃ (s : State) (r : Req) (w : Who) (h : Nat) (x : Nat) (bufs : List (Nat × Nat)) (b : State), Accepts s r w
    E.collective_arm 0 0 h 1 ∧ recableBlocks s (hIdx h) = false ∧ s.get (E.collective_state.h (hIdx h)) = 0 ∧
    s.armCheck (hIdx h) = 0 ∧ allocBasin s (hIdx h) = (some (x, bufs), b)) ∧
  (∃ (s : State) (r : Req) (w : Who) (h : Nat) (v : Nat), Accepts s r w E.collective_disarm 0 0 h v ∧ v = 1 ∧ s.get
    (E.collective_state.h (hIdx h)) = 1) ∧
  (∃ (s : State) (i : Nat) (seg : Nat) (g : Seg), (s.weirRunning && s.weirPart (s.partOf 1 i)) = false ∧ s.seg? i
    seg = some g ∧ g.stage = 0 ∧ (s.liveAt 1 i).isSome = true ∧ s.segReady i g = true ∧ s.collTy i ∉ [2, 3, 5, 6, 7]
    ∧ s.ownsSeg i seg = true) ∧
  (∃ (s : State) (i : Nat) (seg : Nat) (g : Seg), (s.weirRunning && s.weirPart (s.partOf 1 i)) = false ∧ s.seg? i
    seg = some g ∧ g.stage = 0 ∧ (s.liveAt 1 i).isSome = true ∧ s.segReady i g = true ∧ (s.collTy i = 2 ∨ s.collTy i
    = 3)) ∧
  (∃ (s : State) (i : Nat) (seg : Nat) (g : Seg), (s.weirRunning && s.weirPart (s.partOf 1 i)) = false ∧ s.seg? i
    seg = some g ∧ g.stage = 0 ∧ (s.liveAt 1 i).isSome = true ∧ s.segReady i g = true ∧ s.collTy i = 6) ∧
  (∃ (s : State) (i : Nat) (seg : Nat) (st : Nat) (x : Seg) (o : EpiOut), s.seg? i seg = some x ∧ x.stage = 4 ∧
    x.ret = some (st, o)) ∧
  (∃ (s : State) (e : Nat) (x : Nat × Nat × List Nat), s.epiJobs e < 64 ∧ s.epiHeld.find? (fun y => s.get
    (E.collective_engine.h y.1) == e) = some x) ∧
  (∃ (s : State) (i : Nat) (seg : Nat) (pos : Nat) (x : Seg), s.seg? i seg = some x ∧ x.timeout ≠ 0 ∧ x.first +
    x.timeout ≤ s.ft ∧ (x.stage = 0 ∨ x.stage = 3) ∧ pos =
    (match (s.needs i seg).find? (fun y => decide (mgetD x.n y.1 0 < y.2)) with | some p => if p.1 < 1024 then p.1 else 0xFFFF | none => 0xFFFF)) :=
  ⟨⟨on [9] (coll 0), rq 1, own, 0x10100000, _, _, _, accepts_of (by decide +kernel), by decide +kernel, by decide +kernel,
    by decide +kernel, triple_of (by decide +kernel)⟩,
   ⟨coll 1, rq 1, own, 0x10100000, 1, accepts_of (by decide +kernel), by decide +kernel⟩,
   ⟨segRun { segAt 0 with n := [(0, 4096)] }, 0, 0, { segAt 0 with n := [(0, 4096)] }, by decide +kernel⟩,
   ⟨sets (segRun { segAt 0 with n := [(0, 4096)] }) [(E.collective_type.h 0, 2)], 0, 0, { segAt 0 with n := [(0, 4096)] },
     by decide +kernel⟩,
   ⟨sets (segRun { segAt 0 with n := [(0, 4096)] }) [(E.collective_type.h 0, 6)], 0, 0, { segAt 0 with n := [(0, 4096)] },
     by decide +kernel⟩,
   ⟨segRun { segAt 4 with ret := some (0, ⟨[], 0, 0, 0⟩) }, 0, 0, 0, { segAt 4 with ret := some (0, ⟨[], 0, 0, 0⟩) }, ⟨[],
     0, 0, 0⟩, by decide +kernel⟩,
   ⟨{ coll 2 with epiHeld := [(0, 0, [])] }, (coll 2).get (E.collective_engine.h 0), (0, 0, []), by decide +kernel⟩,
   ⟨segRun { segAt 3 with n := [(0, 1)] }, 0, 0, _, { segAt 3 with n := [(0, 1)] }, by decide +kernel, by decide +kernel,
     by decide +kernel, by decide +kernel, rfl⟩⟩

theorem wit_MillJobsComplete :
  (∃ (s : State) (id : Nat) (mills : List Nat) (j : Job) (want : List Nat) (idle : Nat), s.mill.jobs.find? (fun j =>
    j.id = id ∧ j.state = 0) = some j ∧ want = (if j.pinned then (s.pinSet (max 1 (dPins j.desc))).getD [] else
    dedup mills) ∧ want ≠ [] ∧ want.all (fun x => s.millFree x && (s.weirPart j.part || !s.millReserved x)) = true ∧
    s.weirPart j.part = false ∧ (s.mill.jobs.filter fun x => x.state == 0 && x.id != id && s.weirPart x.part ==
    false && (decide (j.cls < x.cls) || (x.cls == j.cls && decide (x.id < id)))) = [] ∧ idle = ((List.range
    272).filter fun x => s.millFree x).length) ∧
  (∃ (s : State) (id : Nat) (shares : List Share) (cycles : Nat) (j : Job) (a : State) (o : OpOut),
    s.mill.jobs.find? (fun j => j.id = id ∧ j.state = 1) = some j ∧ s.hauling id = false ∧ (∀ r ∈ s.rangesOf j,
    s.retained r.1 r.2.1 = false ∧ s.diesDown r.1 r.2.1 = false ∧ s.cxlDown r.1 r.2.1 = false) ∧ a = (j.mills.foldl
    (fun (st : State) x => st.inc (E.mill_busy_cycles.n x) cycles) s) ∧ o = runOp a j shares) ∧
  (∃ (s : State) (id : Nat) (j : Job), s.mill.jobs.find? (fun j => j.id = id) = some j ∧ s.get E.mill_job_timeout.s
    ≠ 0 ∧ j.at_ + s.get E.mill_job_timeout.s ≤ s.ft) ∧
  (∃ (s : State) (x : Nat) (a : State) (b : State), s.get (E.mill_state.n x) ≠ 3 ∧ s.get (E.mill_logical.n x) ≠
    0xFFFF ∧ a = (s.set (E.mill_state.n x) 3).repairNote ∧ b = (a.abortJobs (fun j => j.mills.contains x) 0x0B)) ∧
  (∃ (s : State) (x : Nat) (_ : Nat) (a : State) (b : State), s.get (E.mill_state.n x) ≠ 3 ∧ s.get (E.mill_logical.n
    x) ≠ 0xFFFF ∧ a = ((s.inc (E.mill_ecc_uncorrectable.n x) 1).set (E.mill_state.n x) 3).repairNote ∧ b =
    (a.abortJobs (fun j => j.mills.contains x) 0x0B)) ∧
  (∃ (s : State) (x : Nat) (_ : Nat), s.get (E.mill_logical.n x) ≠ 0xFFFF) :=
  ⟨⟨on [36, 40] (jobs 0), 1, [271 - 4], job 0, _, _, by decide +kernel, rfl, by decide +kernel, by decide +kernel, by decide +kernel, by decide +kernel, rfl⟩,
   ⟨jobs 1, 1, [⟨0, 0, 10⟩], 10, job 1, _, _, by decide +kernel, by decide +kernel, by decide +kernel, rfl, rfl⟩,
   ⟨sets (jobs 0) [(E.mill_job_timeout.s, 10000)], 1, job 0, by decide +kernel⟩,
   ⟨jobs 1, 0, _, _, by decide +kernel, by decide +kernel, rfl, rfl⟩,
   ⟨jobs 1, 0, 5, _, _, by decide +kernel, by decide +kernel, rfl, rfl⟩,
   ⟨jobs 1, 0, 5, by decide +kernel⟩⟩

theorem wit_MemoryCompletes :
  (∃ (s : State) (id : Nat) (chk : EccCheck) (x : MemAcc) (y : MemAcc) (a : State), s.ms.accs.find? (fun a => a.id =
    id ∧ a.reach.isNone) = some x ∧ x.fills.any (fun f => !f.done) = false ∧ x.due ≤ s.ft ∧ s.retained (rillAddr
    x.h) (accLen x.h) = false ∧ x.fail = false ∧ s.diesDown (rillAddr x.h) (accLen x.h) = false ∧ a = ((s.cxlsOf
    (rillAddr x.h) (accLen x.h)).foldl (fun (st : State) c => st.modMs fun m => { m with toRow := mdel m.toRow c })
    (s.modMs fun m => { m with accs := m.accs.map fun z => if z.id = id then { z with reach := some chk } else z }))
    ∧ a.ms.accs.filterMap (fun z => z.reach.map fun c => (z, c)) = [(y, chk)]) ∧
  (∃ (s : State) (r : Req) (w : Who) (h : Nat) (v : Nat) (tier : Nat) (lo : Nat) (hi : Nat), Accepts s r w
    E.window_open 0 0 h v ∧ v = 1 ∧ s.get (E.window_state.h (hIdx h)) = 0 ∧ s.regionOf (s.get (E.window_base.h (hIdx
    h))) = some (tier, lo, hi) ∧ s.get (E.window_rights.h (hIdx h)) ≠ 0 ∧ s.get (E.window_base.h (hIdx h)) % 4096 =
    0 ∧ s.get (E.window_size.h (hIdx h)) % 4096 = 0 ∧ s.get (E.window_size.h (hIdx h)) ≠ 0 ∧ s.get (E.window_base.h
    (hIdx h)) + s.get (E.window_size.h (hIdx h)) ≤ hi ∧ s.backed (s.get (E.window_base.h (hIdx h))) (s.get
    (E.window_size.h (hIdx h))) = true ∧ s.rangeDown (s.get (E.window_base.h (hIdx h))) (s.get (E.window_size.h
    (hIdx h))) = false ∧ (tier ≠ 4 ∨ s.weirPart (s.partOf 8 (hIdx h)) = false)) ∧
  (∃ (s : State) (r : Req) (w : Who) (h : Nat) (v : Nat), Accepts s r w E.window_open 0 0 h v ∧ v = 0 ∧ s.get
    (E.window_state.h (hIdx h)) = 1 ∧ s.poolHolds (hIdx h) = false) ∧
  (∃ (s : State) (i : Nat) (x : HRec), s.liveAt 8 i = some x ∧ s.get (E.window_state.h i) = 2 ∧ s.winQuiet i = true
    ∧ s.ms.dying.contains i = false) ∧
  (∃ (s : State) (id : Nat) (line : Nat) (x : MemAcc) (f : Fill) (a : State), s.ms.accs.find? (fun a => a.id = id) =
    some x ∧ x.fills.find? (fun f => f.line = line ∧ !f.done) = some f ∧ f.drop = false ∧ a = (s.modMs fun m =>
    { m with
    toRow := mdel m.toRow (lineCxl line), accs := m.accs.map fun (y : MemAcc) => if y.id = id then { y with
    bad := y.bad || false, fills := y.fills.map fun (z : Fill) => if z.line = line then { z with done := true } else
    z } else y }).inc (E.cxl_read_bytes.n (lineCxl line)) 256) ∧
  (∃ (s : State) (k : Nat), hbmFitted s.part k = true ∧ s.get (E.hbm_state.n k) ≠ 3) :=
  ⟨⟨accessing (access 2 baseT1 []), 1, .clean, access 2 baseT1 [], { access 2 baseT1 [] with reach := some .clean }, _,
     by decide +kernel, by decide +kernel, by decide +kernel, by decide +kernel, by decide +kernel, by decide +kernel, rfl,
     by decide +kernel⟩,
   ⟨win 0, rq 1, own, 0x80100000, 1, 2, baseT1, (baseT1 + 8 * stackBytes), accepts_of (by decide +kernel),
     by decide +kernel⟩,
   ⟨win 1, rq 1, own, 0x80100000, 0, accepts_of (by decide +kernel), by decide +kernel⟩,
   ⟨win 2, 0, ⟨1, 5⟩, by decide +kernel⟩,
   ⟨accessing (access 1 baseT2 [⟨baseT2 / 256, [], false, false⟩]), 1, (baseT2 / 256),
     access 1 baseT2 [⟨baseT2 / 256, [], false, false⟩], ⟨baseT2 / 256, [], false, false⟩, _, by decide +kernel, by decide +kernel,
     by decide +kernel, rfl⟩,
   ⟨live, 7, by decide +kernel⟩⟩

theorem wit_ExpandersComplete :
  (∃ (s : State) (r : Req) (w : Who) (c : Nat) (v : Nat), Accepts s r w E.cxl_invalidate c 0 0 v ∧ v = 1) ∧
  (∃ (s : State) (r : Req) (w : Who) (c : Nat) (v : Nat), Accepts s r w E.cxl_resume c 0 0 v ∧ v = 1 ∧ s.get
    (E.cxl_state.n c) = 4) ∧
  (∃ (s : State) (r : Req) (w : Who) (c : Nat) (v : Nat), Accepts s r w E.cxl_enable c 0 0 v ∧ v = 1 ∧ s.get
    (E.cxl_state.n c) = 5 ∧ s.ms.disabling = []) ∧
  (∃ (s : State) (r : Req) (w : Who) (c : Nat) (v : Nat), Accepts s r w E.cxl_enable c 0 0 v ∧ v = 0 ∧
    s.ms.disabling.contains c = false) ∧
  (∃ (s : State) (id : Nat) (c : Nat) (cs : List Nat) (x : MemAcc) (a : State), s.ms.accs.find? (fun a => a.id = id)
    = some x ∧ s.cxlsOf (rillAddr x.h) (accLen x.h) = c :: cs ∧ x.at_ + s.get (E.cxl_timeout.n c) ≤ s.ft ∧ a =
    (s.inc (E.cxl_timeouts.n c) 1).cxlFlag c 2 ∧ mgetD a.ms.toRow c 0 + 1 < 4) ∧
  (∃ (s : State) (c : Nat) (a : State) (b : State), s.get (E.cxl_state.n c) = 2 ∧ a = ((s.set (E.cxl_state.n c)
    3).inc (E.cxl_losses.n c) 1).cxlFlag c 0 ∧ b = ((a.dropLines c).modMs fun m => { m with
    toRow := mdel m.toRow c })) ∧
  (∃ (s : State) (c : Nat) (width : Nat) (size : Nat) (ident : Nat) (slow : Bool) (a : State), s.mgmt.restarting =
    false ∧ s.get (E.cxl_enable.n c) ≠ 0 ∧ (s.get (E.cxl_state.n c) = 0 ∨ s.get (E.cxl_state.n c) = 1 ∨ s.get
    (E.cxl_state.n c) = 3) ∧ s.domOn (49 + c) = true ∧ a = (cxlMap { s with
    mem := memDrop s.mem (baseT2 + c * cxlBytes) (baseT2 + (c + 1) * cxlBytes) } c ⟨width, size, ident,
    slow⟩).dropLines c ∧ a.get E.device_ready.s ≠ 0 ∧ a.pwr.fresh.contains c = false) :=
  ⟨⟨live, rq 1, own, 7, 1, accepts_of (by decide +kernel), by decide +kernel⟩,
   ⟨sets live [(E.cxl_state.n 7, 4)], rq 1, own, 7, 1, accepts_of (by decide +kernel), by decide +kernel⟩,
   ⟨sets live [(E.cxl_state.n 0, 5)], rq 1, own, 0, 1, accepts_of (by decide +kernel), by decide +kernel⟩,
   ⟨sets live [(E.cxl_state.n 0, 2)], rq 1, own, 0, 0, accepts_of (by decide +kernel), by decide +kernel⟩,
   ⟨accessing (access 2 baseT2 []), 1, 0, [], access 2 baseT2 [], _, by decide +kernel, by decide +kernel,
     by decide +kernel, rfl, by decide +kernel⟩,
   ⟨sets live [(E.cxl_state.n 7, 2)], 7, _, _, by decide +kernel, rfl, rfl⟩,
   ⟨on [56] live, 7, 16, 0x10000000, 1, false, _, by decide +kernel, by decide +kernel, by decide +kernel,
     by decide +kernel, rfl, by decide +kernel⟩⟩

theorem wit_PoolsComplete :
  (∃ (s : State) (r : Req) (w : Who) (h : Nat) (v : Nat) (size : Nat) (bw : Nat) (rw : Nat), Accepts s r w
    E.pool_enable 0 0 h v ∧ v = 1 ∧ s.get (E.pool_state.h (hIdx h)) = 0 ∧ size = s.get (E.pool_buffer_size.h (hIdx
    h)) ∧ 256 ≤ size ∧ size ≤ 2097152 ∧ 2 ^ Nat.log2 size = size ∧ s.get (E.pool_count.h (hIdx h)) ≠ 0 ∧ s.get
    (E.pool_count.h (hIdx h)) ≤ 16777216 ∧ (s.bufArea (hIdx h)).1 % 4096 = 0 ∧ (s.ringArea (hIdx h)).1 % 4096 = 0 ∧
    s.poolWin (hIdx h) (s.get (E.pool_buffer_window.h (hIdx h))) = some bw ∧ s.poolWin (hIdx h) (s.get
    (E.pool_ring_window.h (hIdx h))) = some rw ∧ s.get (E.window_state.h bw) = 1 ∧ s.get (E.window_state.h rw) = 1 ∧
    s.inWin bw (s.bufArea (hIdx h)) = true ∧ s.inWin rw (s.ringArea (hIdx h)) = true ∧ 2 ≤ s.get (E.window_tier.h
    rw) ∧ overlap (s.bufArea (hIdx h)) (s.ringArea (hIdx h)) = false ∧ (s.liveIdx 3).filter (fun j => j ≠ hIdx h &&
    s.poolUp j) = [] ∧ s.rangeDown (s.bufArea (hIdx h)).1 (s.bufArea (hIdx h)).2 = false ∧ s.rangeDown (s.ringArea
    (hIdx h)).1 (s.ringArea (hIdx h)).2 = false) ∧
  (∃ (s : State) (i : Nat) (n : Nat) (x : HRec) (a : State), s.liveAt 3 i = some x ∧ s.get (E.pool_state.h i) = 1 ∧
    n = s.get (E.pool_count.h i) ∧ a = ((s.store (s.get (E.pool_ring_base.h i)) ((List.range n).flatMap (fun j =>
    leBytes 4 j) ++ List.replicate (4 * n) 0)).modPool i fun _ => ⟨[], [], 0, 0, false, true⟩)) ∧
  (∃ (s : State) (r : Req) (w : Who) (h : Nat) (j : Nat) (js : List Nat) (a : State), Idle s ∧ s.mgmt.parked = [] ∧
    Serves s r w ∧ itemGate s w ⟨0x7300, 9, 0, h, 0, []⟩ false 1 = 0 ∧ notCaptured s w ⟨0x7300, 9, 0, h, 0, []⟩ =
    false ∧ s.poolRetained (hIdx h) = false ∧ s.get (E.pool_state.h (hIdx h)) = 2 ∧ (s.pool (hIdx h)).head = j :: js
    ∧ a = ((s.modPool (hIdx h) fun x => { x with head := js }).handOut (hIdx h) j).2) ∧
  (∃ (s : State) (r : Req) (w : Who) (h : Nat) (v : Nat) (j : Nat) (c : Nat), Idle s ∧ s.mgmt.parked = [] ∧ Accepts
    s r w E.pool_free 0 0 h v ∧ s.poolCheck (hIdx h) v = (.ok j, s) ∧ c = s.bufWord (hIdx h) j % 65536 ∧ 1 < c) ∧
  (∃ (s : State) (r : Req) (w : Who) (h : Nat) (v : Nat) (j : Nat), Idle s ∧ s.mgmt.parked = [] ∧ Accepts s r w
    E.pool_free 0 0 h v ∧ s.poolCheck (hIdx h) v = (.ok j, s) ∧ s.bufWord (hIdx h) j % 65536 ≤ 1) ∧
  (∃ (s : State) (r : Req) (w : Who) (h : Nat) (v : Nat) (j : Nat) (c : Nat), Idle s ∧ s.mgmt.parked = [] ∧ Accepts
    s r w E.pool_share 0 0 h v ∧ s.poolCheck (hIdx h) v = (.ok j, s) ∧ c = s.bufWord (hIdx h) j % 65536 ∧ c < 65535) ∧
  (∃ (s : State) (i : Nat) (x : HRec), s.liveAt 3 i = some x ∧ s.get (E.pool_state.h i) = 2 ∧ (s.pool i).refill =
    true) :=
  ⟨⟨pool 0 none2, rq 1, own, 0x30100000, 1, 256, 0, 0, accepts_of (by decide +kernel), by decide +kernel⟩,
   ⟨pool 1 none2, 0, 2, ⟨1, 5⟩, _, by decide +kernel, by decide +kernel, by decide +kernel, rfl⟩,
   ⟨pool 2 { none2 with head := [0, 1] }, rq 1, own, 0x30100000, 0, [1], _, rfl, rfl, serves_of (by decide +kernel), by decide +kernel,
     by decide +kernel, by decide +kernel, by decide +kernel, by decide +kernel, rfl⟩,
   ⟨shared 2, rq 1, own, 0x30100000, (baseT1 + 256), 1, 2, rfl, rfl, accepts_of (by decide +kernel),
     Prod.ext (by decide +kernel) rfl, by decide +kernel⟩,
   ⟨shared 1, rq 1, own, 0x30100000, (baseT1 + 256), 1, rfl, rfl, accepts_of (by decide +kernel), Prod.ext (by decide +kernel) rfl,
     by decide +kernel⟩,
   ⟨shared 65534, rq 1, own, 0x30100000, (baseT1 + 256), 1, 65534, rfl, rfl, accepts_of (by decide +kernel),
     Prod.ext (by decide +kernel) rfl, by decide +kernel⟩,
   ⟨pool 2 { none2 with refill := true }, 0, ⟨1, 5⟩, by decide +kernel⟩⟩

theorem wit_SequencesComplete :
  (∃ (s : State) (r : Req) (w : Who) (h : Nat) (v : Nat) (root : Nat) (a : State), Idle s ∧ s.mgmt.parked = [] ∧
    Accepts s r w E.sequence_activate 0 0 h v ∧ v = 1 ∧ s.get (E.sequence_state.h (hIdx h)) = 0 ∧ mget? s.copying
    (hIdx h) = none ∧ s.seqPoolsCheck (hIdx h) (s.seqTmpl (hIdx h)) = 0 ∧ s.prefixCheck (hIdx h) (s.seqTmpl (hIdx
    h)) = 0 ∧ s.prefixFree (hIdx h) = true ∧ takeTable s (s.seqTmpl (hIdx h)) = (some root, a) ∧ a.prefixTokens
    (hIdx h) = 0) ∧
  (∃ (s : State) (i : Nat) (x : Nat) (y : Nat) (a : State), mget? s.copying i = some (x, y) ∧ a = copyPage s i x y) ∧
  (∃ (s : State) (r : Req) (w : Who) (h : Nat) (v : Nat), Idle s ∧ s.mgmt.parked = [] ∧ Accepts s r w
    E.sequence_reserve 0 0 h v ∧ s.get (E.sequence_state.h (hIdx h)) = 1 ∧ v ≤ 16777216 ∧ s.get (E.sequence_length.h
    (hIdx h)) ≤ v ∧ roundUp v 64 < s.get (E.sequence_capacity.h (hIdx h)) ∧ s.get (E.sequence_holders.h (hIdx h)) =
    0) ∧
  (∃ (s : State) (r : Req) (w : Who) (h : Nat) (v : Nat) (x : Grown) (a : State), Idle s ∧ s.mgmt.parked = [] ∧
    Accepts s r w E.sequence_reserve 0 0 h v ∧ s.get (E.sequence_state.h (hIdx h)) = 1 ∧ v ≤ 16777216 ∧ s.get
    (E.sequence_length.h (hIdx h)) ≤ v ∧ s.get (E.sequence_capacity.h (hIdx h)) ≤ roundUp v 64 ∧ ((List.range
    (roundUp v 64 / 64)).filter (fun p => decide (s.get (E.sequence_capacity.h (hIdx h)) / 64 ≤ p))).foldl (fun acc
    p => addPage (s.seqTmpl (hIdx h)) (s.get (E.sequence_root.h (hIdx h))) p none acc) ((⟨true, [], []⟩ : Grown), s)
    = (x, a) ∧ x.ok = true) ∧
  (∃ (s : State) (r : Req) (w : Who) (h : Nat) (v : Nat), Accepts s r w E.sequence_length 0 0 h v ∧ s.get
    (E.sequence_state.h (hIdx h)) = 1 ∧ v ≤ s.get (E.sequence_capacity.h (hIdx h))) :=
  ⟨⟨seq 0, rq 1, own, 0x20100000, 1, _, _, rfl, rfl, accepts_of (by decide +kernel), by decide +kernel, by decide +kernel,
     by decide +kernel, by decide +kernel, by decide +kernel, by decide +kernel, pair_of (by decide +kernel), by decide +kernel⟩,
   ⟨{ seq 0 with copying := [(0, (baseT1, baseT1 + 4096))] }, 0, baseT1, (baseT1 + 4096), _, by decide +kernel, rfl⟩,
   ⟨seq 1, rq 1, own, 0x20100000, 64, rfl, rfl, accepts_of (by decide +kernel), by decide +kernel⟩,
   ⟨seq 1, rq 1, own, 0x20100000, 129, _, _, rfl, rfl, accepts_of (by decide +kernel), by decide +kernel, by decide +kernel,
     by decide +kernel, by decide +kernel, eta_of _, by decide +kernel⟩,
   ⟨seq 1, rq 1, own, 0x20100000, 128, accepts_of (by decide +kernel), by decide +kernel⟩⟩

theorem wit_WeirCompletes :
  (∃ (s : State) (r : Req) (w : Who) (v : Nat), Accepts s r w E.weir_clock_mode 0 0 0 v ∧ v ≠ s.get
    E.weir_clock_mode.s) ∧
  (∃ (s : State) (r : Req) (w : Who) (v : Nat), Accepts s r w E.weir_start 0 0 0 v ∧ s.get E.weir_state.s = 0 ∧
    s.get E.weir_clock_locked.s ≠ 0 ∧ s.ftTest v = 0) ∧
  (∃ (s : State) (r : Req) (w : Who) (v : Nat), Accepts s r w E.weir_start_on_launch 0 0 0 v ∧ v = 1 ∧ s.get
    E.weir_state.s = 0 ∧ s.get E.weir_clock_locked.s ≠ 0) ∧
  (∃ (s : State), s.isDue .weirStart = true) ∧
  (∃ (s : State) (a : State), a = s.lockDue ∧ a.weirRunning = true ∧ a.weir.realign = none ∧ a.weir.base + a.weir.s
    ≤ a.cyc.n ∧ a.weir.stopping = false) ∧
  (∃ (s : State) (a : State), a = s.lockDue ∧ a.weirRunning = true ∧ a.weir.realign = none ∧ a.weir.base + a.weir.s
    ≤ a.cyc.n ∧ a.weir.stopping = true) ∧
  (∃ (s : State) (r : Req) (w : Who) (v : Nat), Accepts s r w E.weir_stop 0 0 0 v ∧ v = 1 ∧ s.get E.weir_state.s =
    1) ∧
  (∃ (s : State) (r : Req) (w : Who) (v : Nat), Accepts s r w E.weir_stop 0 0 0 v ∧ v = 1 ∧ s.get E.weir_state.s =
    3) ∧
  (∃ (s : State) (r : Req) (w : Who) (v : Nat), Accepts s r w E.weir_engines 0 0 0 v ∧ (s.liveIdx 1).any (fun i =>
    bitAt (s.get E.weir_engines.s) (s.get (E.collective_engine.h i)) != bitAt v (s.get (E.collective_engine.h i))) =
    false) ∧
  (∃ (s : State) (r : Req) (w : Who) (v : Nat), Accepts s r w E.weir_mills 0 0 0 v ∧ s.weirRunning = false) ∧
  (∃ (s : State), s.get E.weir_clock_mode.s = 1) :=
  ⟨⟨live, rq 1, own, 1, accepts_of (by decide +kernel), by decide +kernel⟩,
   ⟨live, rq 1, own, 20000010000, accepts_of (by decide +kernel), by decide +kernel⟩,
   ⟨live, rq 1, own, 1, accepts_of (by decide +kernel), by decide +kernel⟩,
   ⟨acting 20000000000 .weirStart, by decide +kernel⟩,
   ⟨weirRun false, _, rfl, by decide +kernel⟩,
   ⟨weirRun true, _, rfl, by decide +kernel⟩,
   ⟨sets live [(E.weir_state.s, 1)], rq 1, own, 1, accepts_of (by decide +kernel), by decide +kernel⟩,
   ⟨weirRun false, rq 1, own, 1, accepts_of (by decide +kernel), by decide +kernel⟩,
   ⟨live, rq 1, own, 255, accepts_of (by decide +kernel), by decide +kernel⟩,
   ⟨live, rq 1, own, 256, accepts_of (by decide +kernel), by decide +kernel⟩,
   ⟨sets live [(E.weir_clock_mode.s, 1)], by decide +kernel⟩⟩

theorem wit_LockStepCompletes :
  (∃ (s : State) (r : Req) (w : Who) (v : Nat), Accepts s r w E.lockstep_start 0 0 0 v ∧ s.lockReady false = true ∧
    s.lockShort = false ∧ s.ftTest v = 0) ∧
  (∃ (s : State) (r : Req) (w : Who) (v : Nat), Accepts s r w E.lockstep_start_on_launch 0 0 0 v ∧ v = 1 ∧
    s.lockReady true = true ∧ s.lockShort = false) ∧
  (∃ (s : State) (x : Nat) (a : State) (b : State), s.get E.lockstep_state.s = 3 ∧ s.lockWindow = some x ∧
    s.lock.closed < x ∧ a = ((s.digestFrames s.lock.closed).foldl (fun st f => mrSend st (s.get
    E.lockstep_peer_port.s) 0 (.digest f)) s) ∧ b = ({ a with
    lock := { a.lock with closed := s.lock.closed + 1 } }).lockScan ∧ b.lock.stopAfter = none) ∧
  (∃ (s : State) (r : Req) (w : Who) (v : Nat) (x : Nat), Accepts s r w E.lockstep_stop 0 0 0 v ∧ v = 1 ∧ s.get
    E.lockstep_state.s = 3 ∧ s.lockWindow = some x) ∧
  (∃ (s : State) (r : Req) (w : Who) (v : Nat), Accepts s r w E.lockstep_stop 0 0 0 v ∧ v = 1 ∧ s.get
    E.lockstep_state.s = 1) :=
  ⟨⟨lock 0, rq 1, own, 20000010000, accepts_of (by decide +kernel), by decide +kernel⟩,
   ⟨lock 0, rq 1, own, 1, accepts_of (by decide +kernel), by decide +kernel⟩,
   ⟨lock 3, 1, _, _, by decide +kernel, by decide +kernel, by decide +kernel, rfl, rfl, by decide +kernel⟩,
   ⟨lock 3, rq 1, own, 1, 1, accepts_of (by decide +kernel), by decide +kernel⟩,
   ⟨lock 1, rq 1, own, 1, accepts_of (by decide +kernel), by decide +kernel⟩⟩

theorem wit_ArchiveCompletes :
  (∃ (s : State) (r : Req) (w : Who) (v : Nat), Accepts s r w E.snap_at 0 0 0 v ∧ v ≠ 0 ∧ s.ftTest v = 0 ∧
    s.snaps.any (fun x => near4000 x.ft v) = false ∧
    (match s.snap.lastFt with | some l => near4000 l v | none => false) = false) ∧
  (∃ (s : State) (a : State), s.isDue .snap = true ∧ s.getB E.snap_clear.s = false ∧ a = ({ s with
    sched := (match s.sched.find? (fun x => x.kind == .snap) with | some x => s.sched.erase x | none => s.sched) })) ∧
  (∃ (s : State) (m : NMap Nat), s.snap.cap = some m) ∧
  (∃ (s : State) (r : Req) (w : Who) (v : Nat), Accepts s r w E.attr_reset 0 0 0 v ∧ v = 1) ∧
  (∃ (s : State) (r : Req) (w : Who) (h : Nat) (v : Nat), Accepts s r w E.trace_open_at 0 0 h v ∧ (s.get
    (E.trace_state.h (hIdx h)) = 0 ∨ s.get (E.trace_state.h (hIdx h)) = 3) ∧ v ≠ 0 ∧ s.ftTest v = 0 ∧ s.traceCheck
    (hIdx h) = 0) ∧
  (∃ (s : State) (ft : Nat) (seq : Nat) (i : Nat) (a : State), s.dueAct = some ⟨ft, seq, .traceOpen i⟩ ∧
    (s.unschedule (.traceOpen i)).traceCheck i = 0 ∧ a = (((s.unschedule (.traceOpen i)).traceFinish i).hset
    (E.trace_state.h i) 7 i 2).add E.archive_sessions_open.s 1) ∧
  (∃ (s : State) (r : Req) (w : Who) (h : Nat) (v : Nat), Accepts s r w E.trace_close_at 0 0 h v ∧ (s.get
    (E.trace_state.h (hIdx h)) = 1 ∨ s.get (E.trace_state.h (hIdx h)) = 2) ∧ v ≠ 0 ∧ s.ftTest v = 0) ∧
  (∃ (s : State) (r : Req) (w : Who) (h : Nat) (v : Nat), Accepts s r w E.trace_close_at 0 0 h v ∧ (s.get
    (E.trace_state.h (hIdx h)) = 1 ∨ s.get (E.trace_state.h (hIdx h)) = 2) ∧ v = 0) ∧
  (∃ (s : State) (ft : Nat) (seq : Nat) (i : Nat), s.dueAct = some ⟨ft, seq, .traceClose i⟩) ∧
  (∃ (s : State) (r : Req) (w : Who) (h : Nat) (x : Nat) (xs : List Nat), Serves s r w ∧ itemGate s w ⟨0xC800,
    E.trace_next.sub, 0, h, 0, []⟩ false 1 = 0 ∧ notCaptured s w ⟨0xC800, E.trace_next.sub, 0, h, 0, []⟩ = false ∧
    (s.trace (hIdx h)).queue = x :: xs) :=
  ⟨⟨live, rq 1, own, 20000010000, accepts_of (by decide +kernel), by decide +kernel⟩,
   ⟨acting 20000000000 .snap, _, by decide +kernel, by decide +kernel, rfl⟩,
   ⟨{ live with snap := { live.snap with cap := some [] } }, [], by decide +kernel⟩,
   ⟨live, rq 1, own, 1, accepts_of (by decide +kernel), by decide +kernel⟩,
   ⟨tracing 0, rq 1, own, 0x70100000, 20000010000, accepts_of (by decide +kernel), by decide +kernel⟩,
   ⟨(tracing 1).schedule 20000000000 (.traceOpen 0), 20000000000, 0, 0, _, by decide +kernel, by decide +kernel, rfl⟩,
   ⟨tracing 2, rq 1, own, 0x70100000, 20000010000, accepts_of (by decide +kernel), by decide +kernel⟩,
   ⟨tracing 2, rq 1, own, 0x70100000, 0, accepts_of (by decide +kernel), by decide +kernel⟩,
   ⟨(tracing 2).schedule 20000000000 (.traceClose 0), 20000000000, 0, 0, by decide +kernel⟩,
   ⟨{ tracing 2 with arc := { live.arc with tr := [(0, ⟨none, 0, 0, 0, 0, 0, 0, 0, [baseT1], [], 0, [], [], none⟩)] } }, rq 1, own,
     0x70100000, baseT1, [], serves_of (by decide +kernel), by decide +kernel⟩⟩

theorem wit_SpringCompletes :
  (∃ (s : State) (r : Req) (w : Who) (h : Nat) (v : Nat), Accepts s r w E.spring_start 0 0 h v ∧ (s.get
    (E.spring_state.h (hIdx h)) = 0 ∨ s.get (E.spring_state.h (hIdx h)) = 4) ∧ s.ftTest v = 0 ∧ springOk s (hIdx h)
    = true) ∧
  (∃ (s : State) (r : Req) (w : Who) (h : Nat) (v : Nat), Accepts s r w E.spring_start_on_launch 0 0 h v ∧ v = 1 ∧
    (s.get (E.spring_state.h (hIdx h)) = 0 ∨ s.get (E.spring_state.h (hIdx h)) = 4) ∧ springOk s (hIdx h) = true) ∧
  (∃ (s : State) (ft : Nat) (seq : Nat) (i : Nat), s.dueAct = some ⟨ft, seq, .springStart i⟩) ∧
  (∃ (s : State) (i : Nat) (due : Nat) (p : Pkt) (a : State) (b : State) (c : State) (d : State), s.spring.lastCyc ≠
    some s.cyc.n ∧ springNext s = some i ∧ springBuild s i = (p, a) ∧ due = springDue s i (s.stream i).made ∧ s.ft ≤
    due ∧ (s.spring.lastCyc.isSome && s.spring.lastDue == due) = false ∧ b = { a with
      spring := { a.spring with
        wait := a.spring.wait ++ [(⟨i, a.cyc.n, p⟩ : SpringPkt)], lastCyc := some a.cyc.n, lastDue := due
        rt := mput a.spring.rt i { a.stream i with made := (a.stream i).made + 1 } } } ∧ c = (b.inc (E.spring_sent.h i) 1).inc
    (E.spring_bytes.h i) (48 + b.get (E.spring_length.h i)) ∧ d = c.set (E.spring_next_seq.h i) ((c.get
    (E.spring_next_seq.h i) + 1) % 2 ^ 32) ∧ d.get (E.spring_count.h i) ≠ (d.stream i).made) ∧
  (∃ (s : State) (r : Req) (w : Who) (h : Nat) (v : Nat), Accepts s r w E.spring_stop 0 0 h v ∧ v = 1 ∧ s.get
    (E.spring_state.h (hIdx h)) ≠ 0 ∧ s.get (E.spring_state.h (hIdx h)) ≠ 4) ∧
  (∃ (s : State) (r : Req) (w : Who) (h : Nat) (v : Nat), Accepts s r w E.gauge_enable 0 0 h v ∧ v = 0) ∧
  (∃ (s : State) (r : Req) (w : Who) (h : Nat), Accepts s r w E.gauge_enable 0 0 h 1) :=
  ⟨⟨spring 0, rq 1, own, 0x50100000, 20000010000, accepts_of (by decide +kernel), by decide +kernel⟩,
   ⟨spring 0, rq 1, own, 0x50100000, 1, accepts_of (by decide +kernel), by decide +kernel⟩,
   ⟨(spring 1).schedule 20000000000 (.springStart 0), 20000000000, 0, 0, by decide +kernel⟩,
   ⟨spring 3, 0, 20000000000, (springBuild (spring 3) 0).1, (springBuild (spring 3) 0).2, _, _, _, by decide +kernel,
     by decide +kernel, rfl, by decide +kernel, by decide +kernel, by decide +kernel, rfl, rfl, rfl, by decide +kernel⟩,
   ⟨spring 3, rq 1, own, 0x50100000, 1, accepts_of (by decide +kernel), by decide +kernel⟩,
   ⟨spring 0, rq 1, own, 0x60100000, 0, accepts_of (by decide +kernel), by decide +kernel⟩,
   ⟨spring 0, rq 1, own, 0x60100000, accepts_of (by decide +kernel)⟩⟩

theorem wit_CuratorCompletes :
  (∃ (s : State), s.mgmt.restarting = true) ∧
  (∃ (s : State) (r : Req) (w : Who) (v : Nat), Accepts s r w E.fw_verify 0 0 0 v ∧ v = 1) ∧
  (∃ (s : State) (r : Req) (w : Who) (v : Nat), Accepts s r w E.fw_activate 0 0 0 v ∧ s.ftTest v = 0 ∧ s.get
    E.fw_verify_status.s = 0) ∧
  (∃ (s : State) (ft : Nat) (seq : Nat) (m : Nat) (a : State), s.dueAct = some ⟨ft, seq, .fwActivate m⟩ ∧ a =
    ((((s.unschedule (.fwActivate m)).runSlot (1 - s.fwSlot)).set E.fw_verify_status.s 0x0C).modMgmt fun x =>
    { x with
    fwWatch := some (s.ft, s.fwSlot) }) ∧ (s.unschedule (.fwActivate m)).fwSlot = s.fwSlot ∧ a.ft = s.ft ∧
    ((s.unschedule (.fwActivate m)).runSlot (1 - s.fwSlot)).ft = s.ft) ∧
  (∃ (s : State) (t : Nat) (old : Nat), s.mgmt.fwWatch = some (t, old) ∧ t + 10000000000 ≤ s.ft ∧ s.get
    E.device_ready.s = 0) ∧
  (∃ (s : State) (r : Req) (w : Who) (v : Nat), Accepts s r w E.fw_commit 0 0 0 v ∧ v = 1) ∧
  (∃ (s : State) (r : Req) (w : Who) (v : Nat), Accepts s r w E.lc_advance 0 0 0 v ∧ v = s.get E.lc_state.s + 1 ∧
    s.get E.lc_state.s = 2 ∧ w.role = 1 ∧ bitAt (s.get E.sec_keys_set.s) 0 = true) ∧
  (∃ (s : State) (r : Req) (w : Who) (v : Nat), Accepts s r w E.lc_advance 0 0 0 v ∧ v = s.get E.lc_state.s + 1 ∧
    s.get E.lc_state.s = 1 ∧ w.role = 0 ∧ s.mgmt.identity = true) ∧
  (∃ (s : State) (r : Req) (w : Who) (v : Nat), Accepts s r w E.lc_advance 0 0 0 v ∧ v = s.get E.lc_state.s + 1 ∧
    s.get E.lc_state.s = 3 ∧ w.role = 1 ∧ s.get E.lc_confirm.s = 0x52455455) :=
  ⟨⟨{ live with mgmt := { live.mgmt with restarting := true } }, by decide +kernel⟩,
   ⟨live, rq 1, own, 1, accepts_of (by decide +kernel), by decide +kernel⟩,
   ⟨sets live [(E.fw_verify_status.s, 0)], rq 1, own, 20000010000, accepts_of (by decide +kernel), by decide +kernel⟩,
   ⟨acting 20000000000 (.fwActivate 0), 20000000000, 0, 0, _, by decide +kernel, rfl, by decide +kernel⟩,
   ⟨{ sets live [(E.device_ready.s, 0)] with mgmt := { live.mgmt with fwWatch := some (10000000000, 0) } }, 10000000000, 0,
     by decide +kernel⟩,
   ⟨live, rq 1, own, 1, accepts_of (by decide +kernel), by decide +kernel⟩,
   ⟨sets live [(E.sec_keys_set.s, 1)], rq 1, own, 3, accepts_of (by decide +kernel), by decide +kernel⟩,
   ⟨sets live [(E.lc_state.s, 1)], rq 3, fac, 2, accepts_of (by decide +kernel), by decide +kernel⟩,
   ⟨sets live [(E.lc_state.s, 3), (E.lc_confirm.s, 0x52455455)], rq 1, own, 4, accepts_of (by decide +kernel),
     by decide +kernel⟩⟩

theorem wit_ManagementPortsComplete :
  (∃ (s : State) (_ : Nat) (b : List Byte), s.get E.lc_state.s ≠ 0 ∧ s.mgmt.sbFailed = false ∧ leAt b 1 1 = 0x84) ∧
  (∃ (s : State) (eid : Nat), s.mgmt.sbFailed = false ∧ eid ≠ 0 ∧ eid < 255) ∧
  (∃ (s : State), s.mgmt.sbFailed = false ∧ s.mgmt.stuckAt = none) ∧
  (∃ (s : State) (t : Nat), s.mgmt.stuckAt = some t ∧ s.mgmt.sbFailed = false ∧ s.mgmt.recoverAt ≤ s.ft ∧ s.ft < t +
    35000000) ∧
  (∃ (s : State) (t : Nat), s.mgmt.stuckAt = some t ∧ s.mgmt.sbFailed = false) ∧
  (∃ (s : State), s.mgmt.sbFailed = false) ∧
  (∃ (s : State) (r : Req) (w : Who) (v : Nat), Accepts s r w E.mctp_restart 0 0 0 v ∧ v = 1) ∧
  (∃ (s : State) (b : List Byte) (ip : List Byte), beAt b 12 2 = 0x0806 ∧ ip = (leBytes 12 (s.get
    E.comm_ipv4.s)).take 4 ∧ beAt b 20 2 = 1 ∧ slice b 38 4 = ip ∧ ofLe ip ≠ 0) ∧
  (∃ (_ : State) (b : List Byte), beAt b 12 2 ≠ 0x0806 ∧ beAt b 12 2 ≠ 0x0800 ∧ beAt b 12 2 ≠ 0x86DD) :=
  ⟨⟨live, 8, [5, 0x84], by decide +kernel⟩,
   ⟨live, 254, by decide +kernel⟩,
   ⟨live, by decide +kernel⟩,
   ⟨stuck, 19999000000, by decide +kernel⟩,
   ⟨stuck, 19999000000, by decide +kernel⟩,
   ⟨live, by decide +kernel⟩,
   ⟨live, rq 1, own, 1, accepts_of (by decide +kernel), by decide +kernel⟩,
   ⟨sets live [(E.comm_ipv4.s, 0x0100000A)], (List.replicate 12 0 ++ [8, 6, 0, 1, 8, 0, 6, 4, 0,
     1] ++ List.replicate 16 0 ++ [0x0A, 0, 0, 1]), _, by decide +kernel, rfl, by decide +kernel⟩,
   ⟨live, [], by decide +kernel⟩⟩

theorem wit_HostPortCompletes :
  (∃ (s : State) (off : Nat) (_ : Nat) (data : List Byte), s.hostOn = true ∧ off + data.length ≤ 1073741824 ∧
    s.ms.apHeld = [] ∧ s.retained (s.get E.host_aperture_base.s + off) data.length = false ∧ apertureOk s (s.get
    E.host_aperture_base.s + off) data.length 1 = true) ∧
  (∃ (s : State) (off : Nat) (len : Nat) (_ : List Byte) (d : List Byte) (a : State), s.hostOn = true ∧ off + len ≤
    1073741824 ∧ s.ms.apHeld = [] ∧ s.retained (s.get E.host_aperture_base.s + off) len = false ∧ apertureOk s
    (s.get E.host_aperture_base.s + off) len 0 = true ∧ s.load (s.get E.host_aperture_base.s + off) len = (d, a)) ∧
  (∃ (s : State) (k : Nat) (size : Nat) (new : Nat) (post : Post) (_ : List (List Byte)), s.hostOn = true ∧ size =
    max 1 (s.get (E.hring_size.n k)) ∧ new = (post.tail % size + size - (s.ring k).tail % size) % size) ∧
  (∃ (s : State) (r : Req) (w : Who) (k : Nat) (v : Nat), Accepts s r w E.hring_enable k 0 0 v ∧ v = 1) ∧
  (∃ (s : State) (r : Req) (w : Who) (k : Nat) (v : Nat) (a : State), Accepts s r w E.hring_enable k 0 0 v ∧ v = 0 ∧
    a = ((s.set (E.hring_enable.n k) 0).modRing k fun x => { x with stopped := false })) ∧
  (∃ (s : State) (k : Nat) (x : RingRec) (xs : List RingRec), k ≠ 2 ∧ s.ringOn k = true ∧ (s.ring k).staged = x ::
    xs ∧ (s.ring k).posted ≠ [] ∧ (fillBuffers (s.ring k).posted x.bytes).2 = []) ∧
  (∃ (s : State) (k : Nat) (x : RingRec) (xs : List RingRec), k ≠ 2 ∧ s.ringOn k = true ∧ (s.ring k).staged = x ::
    xs ∧ ((s.ring k).posted = [] ∨ (fillBuffers (s.ring k).posted x.bytes).2 ≠ []) ∧ s.cyc.rings.contains k = false) ∧
  (∃ (s : State) (k : Nat) (t : Nat), (s.ring k).irqAt = some t ∧ t + s.get (E.hring_irq_holdoff.n k) ≤ s.ft ∧
    s.hostOn = true) ∧
  (∃ (s : State) (_ : List Byte) (d : List Byte) (ds : List (List Byte)), (s.ring 3).posted = d :: ds ∧ (s.ringOn 3
    = true ∨ (s.hostOn = true ∧ (s.ring 3).acc ≠ [])) ∧ bitAt (leAt d 12 1) 1 = true ∧ bitAt (leAt d 12 1) 2 =
    false) :=
  ⟨⟨aper, 65535, 0, [7], by decide +kernel⟩,
   ⟨aper, 65535, 1, [], _, _, by decide +kernel, by decide +kernel, by decide +kernel, by decide +kernel, by decide +kernel,
     eta_of _⟩,
   ⟨on [4] live, 3, _, _, ⟨4, 1⟩, [], by decide +kernel, rfl, rfl⟩,
   ⟨live, rq 1, own, 3, 1, accepts_of (by decide +kernel), by decide +kernel⟩,
   ⟨live, rq 1, own, 3, 0, _, accepts_of (by decide +kernel), by decide +kernel, rfl⟩,
   ⟨ringed 0 ⟨1, 0, 0, false, [posting], [rec0], none, [], []⟩, 0, rec0, [], by decide +kernel⟩,
   ⟨ringed 0 ⟨1, 0, 0, false, [], [rec0], none, [], []⟩, 0, rec0, [], by decide +kernel⟩,
   ⟨ringed 0 ⟨1, 0, 0, false, [], [], some 0, [], []⟩, 0, 0, by decide +kernel⟩,
   ⟨ringed 3 ⟨1, 0, 0, false, [posting], [], none, [], []⟩, [], posting, [], by decide +kernel⟩⟩

theorem wit_FaultsComplete :
  (∃ (s : State) (src : Nat) (t : Nat), s.flt.pendingReset = some (src, t) ∧ t ≤ s.ft) ∧
  (∃ (s : State) (a : State), s.flt.drive = false ∧ s.get E.fault_pin_sampling.s = 1 ∧ a = { s with
    flt := { s.flt with extLow := true, lowSince := some (s.flt.lowSince.getD (s.ft - 1000)) } }) ∧
  (∃ (s : State) (t : Nat), s.flt.lowSince = some t ∧ s.get E.fault_pin_sampling.s = 1 ∧ s.lineLow = true ∧ max t
    s.flt.samplingSince + 10000000 ≤ s.ft) ∧
  (∃ (s : State) (r : Req) (w : Who) (v : Nat), Accepts s r w E.fault_pin_rearm 0 0 0 v ∧ v = 1 ∧ s.lineLow = false) ∧
  (∃ (s : State) (r : Req) (w : Who) (v : Nat), Accepts s r w E.fault_inject 0 0 0 v ∧ sourceKnown v = true) ∧
  (∃ (s : State) (u : Nat), s.flt.resetting.contains u = true ∧ (u < 24 ∨ 32 ≤ u)) ∧
  (∃ (s : State) (u : Nat), s.flt.resetting.contains u = true ∧ 24 ≤ u ∧ u < 32 ∧ s.get (E.hbm_state.n (u - 24)) =
    1) :=
  ⟨⟨{ live with flt := { live.flt with pendingReset := some (5, 20000000000) } }, 5, 20000000000, by decide +kernel⟩,
   ⟨live, _, by decide +kernel, by decide +kernel, rfl⟩,
   ⟨{ sets live [(E.fault_pin_sampling.s, 1)] with flt := { live.flt with extLow := true, lowSince := some 19990000000 } },
     19990000000, by decide +kernel⟩,
   ⟨live, rq 1, own, 1, accepts_of (by decide +kernel), by decide +kernel⟩,
   ⟨sets live [(E.lc_state.s, 1)], rq 3, fac, 1023, accepts_of (by decide +kernel), by decide +kernel⟩,
   ⟨{ live with flt := { live.flt with resetting := [0] } }, 0, by decide +kernel⟩,
   ⟨{ sets live [(E.hbm_state.n 0, 1)] with flt := { live.flt with resetting := [24] } }, 24, by decide +kernel⟩⟩

theorem wit_PowerRequestsComplete :
  (∃ (s : State) (r : Req) (w : Who) (v : Nat) (ds : List Nat), Accepts s r w E.pwr_target 0 0 0 v ∧ s.pwr.trip =
    false ∧ s.pwr.entry = none ∧ s.get E.pwr_state.s ≤ v ∧ v ≠ s.get E.pwr_state.s ∧ ds = (s.domsThat fun k => offIn
    v k && s.dstat k == 0) ∧ s.pwrRefuse v ds = none) ∧
  (∃ (s : State) (r : Req) (w : Who) (v : Nat), Accepts s r w E.pwr_target 0 0 0 v ∧ s.pwr.trip = false ∧
    s.pwr.entry = none ∧ v < s.get E.pwr_state.s) ∧
  (∃ (s : State) (r : Req) (w : Who) (ft : Nat) (target : Nat), Accepts s r w E.pwr_enter_at 0 0 0 (ft + target * 2
    ^ 64) ∧ s.pwr.trip = false ∧ target ≤ 3 ∧ ft < 2 ^ 64 ∧ s.ftTest ft = 0) ∧
  (∃ (s : State) (ft : Nat) (seq : Nat) (t : Nat), s.dueAct = some ⟨ft, seq, .pwrEnter t⟩) ∧
  (∃ (s : State) (r : Req) (w : Who) (k : Nat) (v : Nat), Accepts s r w E.pwr_dom_request k 0 0 v ∧ requestable k =
    true ∧ domFitted s.part k = true ∧ s.get E.pwr_state.s ≠ 3 ∧ s.get (E.pwr_dom_request.n k) = 0 ∧ v = 1 ∧ s.dstat
    k = 0 ∧ s.pwrRefuse 0xFF [k] = none) ∧
  (∃ (s : State) (r : Req) (w : Who) (k : Nat) (v : Nat) (b : State), Accepts s r w E.pwr_dom_request k 0 0 v ∧
    requestable k = true ∧ domFitted s.part k = true ∧ s.get E.pwr_state.s ≠ 3 ∧ s.get (E.pwr_dom_request.n k) = 1 ∧
    v = 0 ∧ b = s.set (E.pwr_dom_request.n k) 0 ∧ b.dstat k = 1 ∧ b.keptOff (s.get E.pwr_state.s) k = false) ∧
  (∃ (s : State) (r : Req) (w : Who) (k : Nat) (v : Nat), Accepts s r w E.pwr_dom_retry k 0 0 v ∧ 3 ≤ k ∧ domFitted
    s.part k = true ∧ v = 1 ∧ s.dstat k = 4 ∧ (s.set (E.pwr_dom_status.n k) 1).keptOff (s.get E.pwr_state.s) k =
    false) ∧
  (∃ (s : State) (r : Req) (w : Who) (v : Nat), Accepts s r w E.st_shutdown 0 0 0 v ∧ s.ftTest v = 0 ∧ bitAt (s.get
    E.st_lbist_states.s) (s.get E.lc_state.s) = true ∧ s.get E.st_state.s ≠ 2) :=
  ⟨⟨live, rq 1, own, 1, _, accepts_of (by decide +kernel), by decide +kernel, by decide +kernel, by decide +kernel,
    by decide +kernel, rfl, by decide +kernel⟩,
   ⟨sets live [(E.pwr_state.s, 2)], rq 1, own, 1, accepts_of (by decide +kernel), by decide +kernel⟩,
   ⟨live, rq 1, own, 20000010000, 3, accepts_of (by decide +kernel), by decide +kernel⟩,
   ⟨acting 20000000000 (.pwrEnter 2), 20000000000, 0, 2, by decide +kernel⟩,
   ⟨on [9] live, rq 1, own, 9, 1, accepts_of (by decide +kernel), by decide +kernel⟩,
   ⟨sets live [(E.pwr_dom_request.n 9, 1), (E.pwr_dom_status.n 9, 1)], rq 1, own, 9, 0, _, accepts_of (by decide +kernel),
     by decide +kernel, by decide +kernel, by decide +kernel, by decide +kernel, by decide +kernel, rfl, by decide +kernel⟩,
   ⟨sets live [(E.pwr_dom_status.n 3, 4)], rq 1, own, 3, 1, accepts_of (by decide +kernel), by decide +kernel⟩,
   ⟨sets live [(E.st_lbist_states.s, 4)], rq 1, own, 20000010000, accepts_of (by decide +kernel), by decide +kernel⟩⟩

theorem wit_PowerEventsComplete :
  (∃ (s : State) (e : PwrEntry) (a : State), s.pwr.entry = some e ∧ (s.mill.jobs.any (fun j => j.state == 1 &&
    j.mills.any fun x => e.doms.contains (millDomain x) || e.doms.contains (21 + 5 * (x / 68)))) = false ∧
    (e.accs.any (fun id => s.ms.accs.any fun x => x.id == id)) = false ∧ e.target = 0xFF ∧ a = (e.doms.reverse.foldl
    (fun (st : State) k => st.domOff k false) s)) ∧
  (∃ (s : State) (e : PwrEntry) (a : State) (b : State), s.pwr.entry = some e ∧ (s.mill.jobs.any (fun j => j.state
    == 1 && j.mills.any fun x => e.doms.contains (millDomain x) || e.doms.contains (21 + 5 * (x / 68)))) = false ∧
    (e.accs.any (fun id => s.ms.accs.any fun x => x.id == id)) = false ∧ e.target < 3 ∧ a = e.doms.reverse.foldl
    (fun (st : State) k => st.domOff k (e.target == 2 && decide (41 ≤ k ∧ k ≤ 48))) (s.setDoms (domSet e.target)
    [1]) ∧ b = (a.modPwr fun p => { p with entry := none }).set E.pwr_state.s e.target) ∧
  (∃ (s : State) (e : PwrEntry), s.pwr.entry = some e ∧ e.at_ + s.get E.pwr_drain_limit.s ≤ s.ft ∧ e.target ≠ 0xFF ∧
    s.get E.st_state.s ≠ 1) ∧
  (∃ (_ : State) (src : Nat), src ≠ 2 ∧ src ≠ 4 ∧ src ≠ 5) ∧
  (∃ (s : State) (l : Nat), s.domBit E.pwr_wake_lanes 0 0 l = true ∧ laneFitted s.part l = true ∧ s.get
    E.pwr_state.s = 3) ∧
  (∃ (s : State) (k : Nat) (delay : Nat) (ks : List Nat) (a : State) (b : State), s.pwr.waiting = k :: ks ∧
    s.pwr.sdLow = false ∧ a = (s.modPwr fun p => { p with sdWait := none }) ∧ a.dstat k ≠ 4 ∧ a.admissible k = some
    true ∧ delay = (if 41 ≤ k ∧ k ≤ 48 ∧ a.dstat k = 1 then 40000000 else a.get (E.pwr_dom_restore_ns.n k)) ∧ b =
    (a.modPwr fun p => { p with waiting := ks, ramps := p.ramps ++ [(⟨k, a.ft, delay, false⟩ : Ramp)] })) ∧
  (∃ (s : State) (k : Nat) (x : Ramp), s.pwr.ramps.find? (fun r => r.dom == k && !r.good) = some x ∧ x.at_ + s.get
    (E.pwr_dom_ramp_ns.n k) ≤ s.ft ∧ (s.pwr.shed && millGroup k) = false) ∧
  (∃ (s : State) (k : Nat) (x : Ramp), s.pwr.ramps.find? (fun r => r.dom == k && !r.good) = some x ∧ x.at_ + s.get
    (E.pwr_dom_ramp_ns.n k) ≤ s.ft) ∧
  (∃ (s : State) (k : Nat) (x : Ramp) (a : State), s.pwr.ramps.find? (fun r => r.dom == k && r.good) = some x ∧
    x.at_ + x.delay ≤ s.ft ∧ k < 17 ∧ a = ((s.modPwr fun p => { p with
    ramps := p.ramps.filter (fun r => r.dom != k) }).set (E.pwr_dom_status.n k) 0)) ∧
  (∃ (s : State) (a : State) (b : State) (c : State) (d : State) (on : List Nat), s.get E.pwr_warn_level.s ≠ 1 ∧ a =
    ((s.set E.pwr_warn_level.s 1).raise 639).inc E.pwr_sheds.s 1 ∧ b = ((a.modPwr fun p => { p with
    shed := true, shedAt := a.ft, held := false, waiting := p.waiting.filter (fun k => !millGroup k) }).abortJobs
    (fun j => j.state == 1 && j.mills != []) 0x0B) ∧ on = (b.domsThat fun k => millGroup k && (b.dstat k == 0 ||
    b.pwr.ramps.any (fun r => r.dom == k && r.good))) ∧ c = (on.reverse.foldl (fun (st : State) k => st.domOff k
    false) (b.modPwr fun p => { p with ramps := p.ramps.filter (fun r => !on.contains r.dom) })) ∧ d = c.exitCheck) ∧
  (∃ (s : State) (a : State), s.get E.pwr_warn_level.s ≠ 0 ∧ a = ((s.set E.pwr_warn_level.s 0).modPwr fun p =>
    { p with
    shed := false }) ∧ a.get E.boot_stage.s ≠ 0 ∧ a.get E.boot_stage.s < 4) ∧
  (∃ (s : State) (ks : List Nat) (cur : Nat) (dest : Nat) (a : State), s.get E.pwr_warn_level.s ≠ 0 ∧ a = ((s.set
    E.pwr_warn_level.s 0).modPwr fun p => { p with shed := false }) ∧ a.get E.boot_stage.s = 0 ∧ cur = a.get
    E.pwr_state.s ∧ dest = a.pwr.exit_.getD cur ∧ ks = (a.domsThat fun k => millGroup k && a.dstat k == 1 &&
    !a.keptOff dest k) ∧ ks ≠ [] ∧ a.pwr.entry = none) ∧
  (∃ (s : State), s.get E.pwr_warn_level.s ≠ 0 ∧ s.pwr.held = false ∧ s.pwr.shedAt + s.get E.pwr_hold_window.s ≤
    s.ft ∧ s.get E.pwr_hold_action.s ≠ 1) ∧
  (∃ (s : State) (k : Nat) (t : Nat) (ks : List Nat), s.pwr.waiting = k :: ks ∧ s.pwr.sdWait = some t ∧ 17 ≤ k ∧ k ≤
    20 ∧ s.pwr.sdLow = true ∧ t + 100000000 ≤ s.ft) :=
  ⟨⟨pwrWith fun p => { p with entry := some ⟨0xFF, [9], 0, []⟩ }, ⟨0xFF, [9], 0, []⟩, _, by decide +kernel,
    by decide +kernel, by decide +kernel, by decide +kernel, rfl⟩,
   ⟨pwrWith fun p => { p with entry := some ⟨2, [9], 0, []⟩ }, ⟨2, [9], 0, []⟩, _, _, by decide +kernel, by decide +kernel,
     by decide +kernel, by decide +kernel, rfl, rfl⟩,
   ⟨pwrWith fun p => { p with entry := some ⟨3, [9], 0, []⟩ }, ⟨3, [9], 0, []⟩, by decide +kernel⟩,
   ⟨live, 3, by decide +kernel⟩,
   ⟨sets live [(E.pwr_state.s, 3), (E.pwr_wake_lanes.loc 0 0 0 127, 255)], 1023, by decide +kernel⟩,
   ⟨on [3] <| domAt 5 1 fun p => { p with waiting := [5] }, 5, _, [], _, _, by decide +kernel, by decide +kernel, rfl,
     by decide +kernel, by decide +kernel, rfl, rfl⟩,
   ⟨domAt 9 3 fun p => { p with ramps := [⟨9, 0, 1000, false⟩] }, 9, ⟨9, 0, 1000, false⟩, by decide +kernel⟩,
   ⟨domAt 9 3 fun p => { p with ramps := [⟨9, 0, 1000, false⟩] }, 9, ⟨9, 0, 1000, false⟩, by decide +kernel⟩,
   ⟨domAt 9 3 fun p => { p with ramps := [⟨9, 0, 1000, true⟩] }, 9, ⟨9, 0, 1000, true⟩, _, by decide +kernel,
     by decide +kernel, by decide +kernel, rfl⟩,
   ⟨live, _, _, _, _, _, by decide +kernel, rfl, rfl, rfl, rfl, rfl⟩,
   ⟨sets live [(E.pwr_warn_level.s, 1), (E.boot_stage.s, 3)], _, by decide +kernel, rfl, by decide +kernel⟩,
   ⟨sets (domAt 22 1 fun p => { p with shed := true }) [(E.pwr_warn_level.s, 1)], _, _, _, _, by decide +kernel, rfl,
     by decide +kernel, rfl, rfl, rfl, by decide +kernel⟩,
   ⟨sets (pwrWith fun p => { p with shed := true }) [(E.pwr_warn_level.s, 1)], by decide +kernel⟩,
   ⟨pwrWith fun p => { p with waiting := [20], sdWait := some 19900000000, sdLow := true }, 20, 19900000000, [],
     by decide +kernel⟩⟩

theorem wit_SelfTestCompletes :
  (∃ (s : State) (_ : Bool) (rail : Nat) (p : Nat) (q : Nat) (ps : List Nat) (a : State), s.get E.st_state.s = 2 ∧
    s.get E.pwr_state.s = 3 ∧ railOk rail = true ∧ a = s.testBegin rail ∧ a.st.parts = p :: q :: ps ∧ a.st.woken =
    false) ∧
  (∃ (s : State) (rail : Nat) (a : State), s.get E.st_state.s = 2 ∧ a = s.testBegin rail) ∧
  (∃ (s : State) (join : Nat) (m : Nat), s.st.retired.contains (64 * join + m) = false ∧ join < 8 ∧ m < (if join < 4
    then 32 else 8) ∧ mgetD s.st.lanes (64 * join + m) 0 < 4) ∧
  (∃ (s : State) (join : Nat) (m : Nat), s.st.retired.contains (64 * join + m) = false ∧ join < 8 ∧ m < (if join < 4
    then 32 else 8) ∧ 4 ≤ mgetD s.st.lanes (64 * join + m) 0) ∧
  (∃ (_ : State) (temps : List Int) (_ : List Nat), (∀ t ∈ temps, t ≤ 105000)) ∧
  (∃ (s : State) (t : Nat) (a : State) (b : State), s.therm.hotAt = some t ∧ t + 1000000 ≤ s.ft ∧ a =
    { s.throttleNs with
    therm := { s.throttleNs.therm with hotAt := some s.throttleNs.ft } } ∧ 1000 < a.get E.therm_mill_clock.s ∧ b =
    a.set E.therm_mill_clock.s (a.get E.therm_mill_clock.s - 400)) ∧
  (∃ (s : State) (t : Nat) (a : State) (b : State), s.therm.coolAt = some t ∧ t + 10000000 ≤ s.ft ∧ a =
    { s.throttleNs with
    therm := { s.throttleNs.therm with coolAt := some s.throttleNs.ft } } ∧ a.get E.therm_mill_clock.s < 2200 ∧ b =
    a.set E.therm_mill_clock.s (a.get E.therm_mill_clock.s + 400)) :=
  ⟨⟨testing, false, 728, ((testing.testBegin 728).st.parts.getD 0 0), ((testing.testBegin 728).st.parts.getD 1 0),
     ((testing.testBegin 728).st.parts.drop 2), _, by decide +kernel, by decide +kernel, by decide +kernel, rfl,
     by decide +kernel⟩,
   ⟨testing, 700, _, by decide +kernel, rfl⟩,
   ⟨live, 7, 7, by decide +kernel⟩,
   ⟨{ live with st := { live.st with lanes := [(3 * 64 + 31, 4)] } }, 3, 31, by decide +kernel⟩,
   ⟨live, [105000], [], by decide +kernel⟩,
   ⟨{ live with therm := { live.therm with hotAt := some 19999000000 } }, 19999000000, _, _, by decide +kernel,
     by decide +kernel, rfl, by decide +kernel, rfl⟩,
   ⟨{ sets live [(E.therm_mill_clock.s, 1000)] with therm := { live.therm with coolAt := some 19990000000 } }, 19990000000,
     _, _, by decide +kernel, by decide +kernel, rfl, by decide +kernel, rfl⟩⟩

theorem wit_RackEventsComplete :
  (∃ (s : State) (r : Req) (w : Who) (v : Nat), Accepts s r w E.recable_open_at 0 0 0 v ∧ s.recableCheck 0 = 0 ∧ v =
    0) ∧
  (∃ (s : State) (r : Req) (w : Who) (v : Nat), Accepts s r w E.recable_open_at 0 0 0 v ∧ s.recableCheck 0 = 0 ∧ v ≠
    0 ∧ s.ftTest v = 0) ∧
  (∃ (s : State) (ft : Nat) (seq : Nat), s.dueAct = some ⟨ft, seq, .recable⟩ ∧ (s.unschedule .recable).recableCheck
    1 = 0) ∧
  (∃ (s : State) (r : Req) (w : Who) (v : Nat), Accepts s r w E.recable_close 0 0 0 v ∧ v = 1 ∧ s.get
    E.recable_state.s = 2) ∧
  (∃ (s : State), s.get E.recable_state.s = 2 ∧ s.get E.recable_opened.s + s.get E.recable_limit.s ≤ s.ft) ∧
  (∃ (s : State) (r : Req) (w : Who) (v : Nat), Accepts s r w E.rack_reset_at 0 0 0 v ∧ (s.unschedule
    .rackReset).ftTest v = 0) ∧
  (∃ (s : State) (ft : Nat) (seq : Nat), s.dueAct = some ⟨ft, seq, .rackReset⟩) :=
  ⟨⟨recab 0, rq 1, own, 0, accepts_of (by decide +kernel), by decide +kernel⟩,
   ⟨recab 0, rq 1, own, 20000010000, accepts_of (by decide +kernel), by decide +kernel⟩,
   ⟨(recab 1).schedule 20000000000 .recable, 20000000000, 0, by decide +kernel⟩,
   ⟨recab 2, rq 1, own, 1, accepts_of (by decide +kernel), by decide +kernel⟩,
   ⟨sets (recab 2) [(E.recable_opened.s, 0), (E.recable_limit.s, 1000000000)], by decide +kernel⟩,
   ⟨live, rq 1, own, 20000010000, accepts_of (by decide +kernel), by decide +kernel⟩,
   ⟨acting 20000000000 .rackReset, 20000000000, 0, by decide +kernel⟩⟩

theorem wit_StartCompletes :
  (∃ (s : State), s.boot.off = false) ∧
  (∃ (s : State), s.boot.off = true) ∧
  (∃ (s : State) (_ : List BootUnit), s.boot.hold = false ∧ s.get E.boot_code.s ≠ 1 ∧ s.get E.boot_code.s ≠ 2) ∧
  (∃ (s : State) (_ : List BootUnit) (st : Nat), st = s.get E.boot_stage.s ∧ st ≠ 0 ∧ s.boot.hold = false ∧
    stageLimit st ≤ s.boot.stageNs ∧ s.get E.boot_code.s ≠ 1 ∧ s.get E.boot_code.s ≠ 2 ∧ (st = 2 → s.boot.swapped =
    true) ∧ st ≠ 4 ∧ (s.bootFail st 0x05).boot = s.boot) ∧
  (∃ (s : State) (_ : List BootUnit) (a : State), s.get E.boot_stage.s = 4 ∧ s.boot.hold = false ∧ stageLimit 4 ≤
    s.boot.stageNs ∧ s.get E.boot_code.s ≠ 1 ∧ s.get E.boot_code.s ≠ 2 ∧ a = s.bootFail 4 0x05) ∧
  (∃ (s : State) (a : State), a = (s.inc E.supply_vin_lows.s 1).chipReset 1) ∧
  (∃ (s : State), s.boot.hold = true ∧ s.boot.off = false) ∧
  (∃ (s : State) (a : State) (b : State), a = (if s.flt.lowSince.isSome then s.emit (.pin 0 true) else s) ∧ b = (if
    a.pwr.trip then a.emit (.pin 1 true) else a)) :=
  ⟨⟨live, by decide +kernel⟩,
   ⟨{ live with boot := { live.boot with off := true } }, by decide +kernel⟩,
   ⟨State.reset, [], by decide +kernel⟩,
   ⟨{ State.reset with boot := { State.reset.boot with stageNs := 200000000 } }, [], _, rfl, by decide +kernel⟩,
   ⟨{ sets State.reset [(E.boot_stage.s, 4)] with boot := { State.reset.boot with stageNs := 20000000000 } }, [], _, by decide +kernel,
     by decide +kernel, by decide +kernel, by decide +kernel, by decide +kernel, rfl⟩,
   ⟨live, _, rfl⟩,
   ⟨{ live with boot := { live.boot with hold := true } }, by decide +kernel⟩,
   ⟨live, _, _, rfl, rfl⟩⟩

theorem wit_RequestsComplete :
  (∃ (s : State) (r : Req) (w : Who) (items : List Item) (done : List RItem) (a : State), Serves s r w ∧ runItems w
    r 0x1 items [] s = ([], done, a) ∧ ((∀ x ∈ done, x.status = 0))) ∧
  (∃ (s : State) (r : Req) (w : Who) (items : List Item) (done : List RItem) (a : State), Serves s r w ∧ runItems w
    r 0x2 items [] s = ([], done, a) ∧ ((∀ x ∈ done, x.status = 0))) ∧
  (∃ (s : State) (r : Req) (w : Who) (items : List Item) (done : List RItem) (a : State), Serves s r w ∧ runItems w
    r 0x3 items [] s = ([], done, a) ∧ ((∀ x ∈ done, x.status = 0))) ∧
  (∃ (s : State) (r : Req) (w : Who) (items : List Item) (done : List RItem) (a : State), Serves s r w ∧ runItems w
    r 0x4 items [] s = ([], done, a) ∧ ((∀ x ∈ done, x.status = 0))) ∧
  (∃ (s : State) (r : Req) (w : Who) (items : List Item) (done : List RItem) (a : State), Serves s r w ∧ runItems w
    r 0x10 items [] s = ([], done, a) ∧ ((∀ x ∈ done, x.status = 0))) ∧
  (∃ (s : State) (r : Req) (w : Who) (items : List Item) (done : List RItem) (a : State), Serves s r w ∧ runItems w
    r 0x11 items [] s = ([], done, a) ∧ ((∀ x ∈ done, x.status = 0))) ∧
  (∃ (s : State) (r : Req) (w : Who) (items : List Item) (done : List RItem) (a : State), Serves s r w ∧ w.owner < 2
    ^ 32 ∧ runItems w r 0x41 items [] s = ([], done, a) ∧ ((∀ x ∈ done, x.status = 0))) ∧
  (∃ (s : State) (r : Req) (w : Who) (it : Item) (t : Nat) (i : Nat) (part : Nat), Serves s r w ∧ createPick s w it
    none = .ok (t, i, part)) ∧
  (∃ (s : State) (r : Req) (w : Who) (it : Item), Serves s r w ∧ itemGate s w it true 2 = 0 ∧ 2 ≤ rightOf s w.role
    it.index 1 ∧ it.data = [] ∧ (¬ (hType it.handle = 4 ∧ it.index = 0x4100 ∧ hIdx it.handle < 16384)) ∧ destroyable
    s (hType it.handle) (hIdx it.handle) = true) :=
  ⟨⟨live, rq 1, own, [⟨0x8000, 0x0C, 0, 0, 0, []⟩, ⟨0x8000, 0, 0, 0, 0, []⟩], _, _, serves_of (by decide +kernel),
    ran_of (by decide +kernel), all_of (by decide +kernel)⟩,
   ⟨live, rq 1, own, [writeIt E.ft_holdover_limit 0 0 0 1000000], _, _, serves_of (by decide +kernel),
     ran_of (by decide +kernel), all_of (by decide +kernel)⟩,
   ⟨live, rq 1, own, [⟨0x1061, 1, 0, 0, 0, leBytes 4 16380 ++ leBytes 4 4⟩], _, _, serves_of (by decide +kernel),
     ran_of (by decide +kernel), all_of (by decide +kernel)⟩,
   ⟨live, rq 1, own, [⟨0x1061, 1, 0, 0, 0, leBytes 4 16380 ++ leBytes 4 1⟩], _, _, serves_of (by decide +kernel),
     ran_of (by decide +kernel), all_of (by decide +kernel)⟩,
   ⟨live, rq 1, own, [newWin], _, _, serves_of (by decide +kernel), ran_of (by decide +kernel), all_of (by decide +kernel)⟩,
   ⟨win 0, rq 1, own, [⟨0x7100, 0, 0, 0x80100000, 0, []⟩], _, _, serves_of (by decide +kernel), ran_of (by decide +kernel),
     all_of (by decide +kernel)⟩,
   ⟨live, rq 1, own, [⟨0xA40F, 0, 0, 0, 0, leBytes 8 1⟩], _, _, serves_of (by decide +kernel), by decide +kernel,
     ran_of (by decide +kernel), all_of (by decide +kernel)⟩,
   ⟨live, rq 1, own, newWin, 8, 5, 5, serves_of (by decide +kernel), by decide +kernel⟩,
   ⟨win 0, rq 1, own, ⟨0x7100, 0, 0, 0x80100000, 0, []⟩, serves_of (by decide +kernel), by decide +kernel⟩⟩

theorem wit_TransactionsComplete :
  (∃ (s : State) (r : Req) (w : Who), Serves s r w ∧ (s.mgmt.txs.filter fun x => decide (x.state ≤ 1)).length < 64) ∧
  (∃ (s : State) (r : Req) (w : Who) (x : Tx) (a : State) (ft : Nat), ServesTx s r w x ∧ a = s.modTxn x.id (fun y =>
    { y with
    active := s.ft }) ∧ ft < 2 ^ 64 ∧ x.state = 0 ∧ ft ≠ 0 ∧ a.ftTest ft = 0) ∧
  (∃ (s : State) (r : Req) (w : Who) (x : Tx) (a : State), ServesTx s r w x ∧ a = s.modTxn x.id (fun y => { y with
    active := s.ft }) ∧ x.state ≤ 1 ∧ commitCame a x = false) ∧
  (∃ (s : State) (r : Req) (w : Who) (x : Tx) (a : State), ServesTx s r w x ∧ a = (s.modTxn x.id (fun y => { y with
    active := s.ft }))) ∧
  (∃ (s : State) (ft : Nat) (seq : Nat) (id : Nat) (x : Tx), s.dueAct = some ⟨ft, seq, .commit id⟩ ∧ (s.unschedule
    (.commit id)).mgmt.txs.find? (fun x => x.id == id && x.state == 1) = some x ∧ midRequest s = false) ∧
  (∃ (s : State) (id : Nat) (x : Tx), s.mgmt.txs.find? (fun x => x.id = id) = some x ∧ x.state = 0 ∧ x.active +
    10000000000 ≤ s.ft) ∧
  (∃ (s : State) (r : Req) (w : Who) (x : Tx) (y : Tx) (a : State) (it : Item), ServesTx s r w x ∧ a = (s.modTxn
    x.id (fun z => { z with active := s.ft })) ∧ a.txOf w r.tx = some y ∧ y.state = 0 ∧ y.items.length < 4096 ∧
    txBytes y + it.data.length ≤ 2097152 ∧ (applyStaged (staged a y) { w with inTx := true } ⟨2, it, 0, false⟩).1 =
    0) :=
  ⟨⟨txs 1, rq 1, own, serves_of (by decide +kernel), by decide +kernel⟩,
   ⟨txs 0, rqTx, own, tx7 0, _, 20000010000, servesTx_of (by decide +kernel), rfl, by decide +kernel⟩,
   ⟨txs 0, rqTx, own, tx7 0, _, servesTx_of (by decide +kernel), rfl, by decide +kernel⟩,
   ⟨txs 3, rqTx, own, tx7 3, _, servesTx_of (by decide +kernel), rfl⟩,
   ⟨(txs 1).schedule 20000000000 (.commit 7), 20000000000, 0, 7, tx7 1, by decide +kernel⟩,
   ⟨txs 0, 7, tx7 0, by decide +kernel⟩,
   ⟨txs 0, rqTx, own, tx7 0, { tx7 0 with active := 20000000000 }, _, writeIt E.ft_holdover_limit 0 0 0 1000000,
     servesTx_of (by decide +kernel), rfl, by decide +kernel⟩⟩

theorem wit_SessionsComplete :
  (∃ (s : State) (r : Req) (data : List Byte) (d : List Byte) (a : State), reachable s r = true ∧ s.get
    E.boot_stage.s ≠ 1 ∧ s.get E.lc_state.s ≠ 0 ∧ s.getB E.device_ready.s = true ∧ r.session = 0 ∧ r.tx = 0 ∧ ((∀ p,
    r.via ≠ .control p)) ∧ sessionOpen s r data = (0, d, a)) ∧
  (∃ (s : State) (r : Req) (w : Who), Serves s r w ∧ w.owner < 2 ^ 32) ∧
  (∃ (s : State) (t : Nat), s.mgmt.lockAt = some t ∧ t + 60000000000 ≤ s.ft) ∧
  (∃ (s : State) (t : Nat) (i : Nat) (ft : Nat), mget? s.hs.quar (t * 2 ^ 20 + i) = some ft ∧ ft ≤ s.ft) ∧
  (∃ (s : State), s.hs.openAt ≤ s.ft) :=
  ⟨⟨live, rq 0, (openHead ++ openProof), _, _, by decide +kernel, by decide +kernel, by decide +kernel, by decide +kernel,
    by decide +kernel, by decide +kernel, fun _ h => Transport.noConfusion h, of_fst open_ok⟩,
   ⟨live, rq 1, own, serves_of (by decide +kernel), by decide +kernel⟩,
   ⟨{ live with mgmt := { live.mgmt with lockAt := some 0 }, time := { live.time with ft := 60000000000 } }, 0,
     by decide +kernel⟩,
   ⟨{ live with hs := { live.hs with quar := [(8 * 2 ^ 20 + 3, 20000000000)] } }, 8, 3, 20000000000, by decide +kernel⟩,
   ⟨live, by decide +kernel⟩⟩

theorem wit_TransportsComplete :
  (∃ (_ : State) (via : Transport) (_ : Nat) (b : List Byte) (items : List Item), 16 ≤ b.length ∧ leAt b 0 1 = 1 ∧
    opKnown (leAt b 1 1) = true ∧ b.length ≤ (if via = .udp then 1400 else 4096) ∧ leAt b 14 2 = 0 ∧ parseItems
    (leAt b 12 2) (b.drop 16) = some items) ∧
  (∃ (s : State) (eid : Nat) (b : List Byte), s.mgmt.sbFailed = false ∧ b.take 5 = mctpPrefix ∧ s.mgmt.mctpOut.any
    (fun x => x.eid == eid && x.tag == leAt b 7 2) = false) ∧
  (∃ (_ : State) (_ : Nat) (b : List Byte), 32 ≤ b.length ∧ leAt (b.take (b.length - 16)) 4 4 = 0 ∧ leAt (b.take
    (b.length - 16)) 1 1 = 0x30 ∧ b.drop (b.length - 16) = List.replicate 16 0) ∧
  (∃ (s : State) (ring : Ring) (win : List Byte) (full : List Byte), s.hostOn = true ∧ s.mgmt.busy = false ∧ bitAt
    ring.clear 1 = false ∧ full = (win ++ List.replicate 4096 0).take 4096) ∧
  (∃ (s : State) (_ : Ring) (_ : List Byte), s.hostOn = true ∧ s.mgmt.busy = true) ∧
  (∃ (s : State), s.mgmt.busy = true ∧ (s.mgmt.parked.any fun p => decide (p.carry = .mailbox)) = false) :=
  ⟨⟨live, .mctp, 8, pdu, [⟨0x8000, 1, 0, 0, 0, []⟩], by decide +kernel⟩,
   ⟨live, 8, (mctpPrefix ++ pdu), by decide +kernel⟩,
   ⟨live, 8, ([1, 0x30] ++ leBytes 2 1 ++ List.replicate 12 0 ++ List.replicate 16 0), by decide +kernel⟩,
   ⟨on [4] live, ⟨1, 28⟩, pdu, _, by decide +kernel, by decide +kernel, by decide +kernel, rfl⟩,
   ⟨{ on [4] live with mgmt := { live.mgmt with busy := true } }, ⟨0, 0⟩, [], by decide +kernel⟩,
   ⟨{ live with mgmt := { live.mgmt with busy := true } }, by decide +kernel⟩⟩

end Sys2Proof.Tests
end

/-!
PROOFS of the scope of the whole block: the handle layout (R12), what reset leaves (R15, R31), and that no place of the
Catalogue belongs to two entries (R11, R31).
-/

namespace Sys2Proof.Machine

/-! ### The handle layout (R12) -/

theorem hType_mkHandle {t g i : Nat} (ht : t < 16) : hType (mkHandle t g i) = t := by
  unfold hType mkHandle
  omega

@[simp] theorem hGen_mkHandle (t g i : Nat) : hGen (mkHandle t g i) = g % 256 := by
  unfold hGen mkHandle
  omega

@[simp] theorem hIdx_mkHandle (t g i : Nat) : hIdx (mkHandle t g i) = i % 2 ^ 20 := by
  unfold hIdx mkHandle
  omega

/-- A word of at most 32 bits is the handle of its fields; above bit 31 no field reads it. -/
theorem mkHandle_fields {h : Nat} (hh : h < 2 ^ 32) : mkHandle (hType h) (hGen h) (hIdx h) = h := by
  unfold mkHandle hType hGen hIdx
  omega

theorem bits_type (h : Nat) : bits h 31 28 = hType h := rfl

theorem bits_generation (h : Nat) : bits h 27 20 = hGen h := rfl

theorem bits_index (h : Nat) : bits h 19 0 = hIdx h := by
  simp [bits, hIdx]

/-- Settles O6: each field is read by the division and the remainder that the layout's sum undoes. -/
theorem handleLayout : Obligations.HandleLayout := by
  refine ⟨fun t g i ht hg hi => ?_, fun h hh => mkHandle_fields hh⟩
  have hT : hType (mkHandle t g i) = t := hType_mkHandle ht
  have hG : hGen (mkHandle t g i) = g := by rw [hGen_mkHandle, Nat.mod_eq_of_lt hg]
  have hI : hIdx (mkHandle t g i) = i := by rw [hIdx_mkHandle, Nat.mod_eq_of_lt hi]
  rw [bits_type, bits_generation, bits_index]
  exact ⟨hT, hG, hI, hT, hG, hI⟩

/-! ### Reset (R15, R31) -/

/-- After reset nothing is written, so every place reads its reset value. -/
@[simp] theorem State.get_reset (l : Loc) : State.reset.get l = l.dflt := rfl

/-- Settles O2: the reset state lists nothing, and `State.get_reset` gives each entry its value. -/
theorem resetState : Obligations.ResetState := by
  refine ⟨rfl, rfl, .nil, rfl, rfl, rfl, rfl, fun e n k inst off => State.get_reset _, State.get_reset _, State.get_reset _,
    State.get_reset _, fun p hp => ⟨State.get_reset _, ?_⟩, fun n => State.get_reset _⟩
  rw [State.get_reset]
  rfl

/-! ### The places of an entry (R11, R31)

An entry's subindices may be strided and lie between those of another entry, so an entry is cut into runs: the indices that it
holds at one subindex. Runs have a transitive order in which one ends before the next begins; a list of runs in that order is
checked by looking at neighbours alone. -/

/-- Consecutive indices at one subindex. -/
structure Run where
  idx : Nat
  rep : Nat
  sub : Nat

/-- Does a run hold an index and a subindex? -/
def Run.Has (r : Run) (idx sub : Nat) : Prop := r.idx ≤ idx ∧ idx < r.idx + r.rep ∧ sub = r.sub

/-- One run ends before the other begins: by index, or over the same indices by subindex. -/
def Run.before (a b : Run) : Bool :=
  decide (a.idx + a.rep ≤ b.idx) || (a.idx == b.idx && a.rep == b.rep && decide (a.sub < b.sub))

/-- No place lies in both runs. -/
def Run.Apart (a b : Run) : Prop := ∀ idx sub, ¬ (a.Has idx sub ∧ b.Has idx sub)

theorem Run.before_iff {a b : Run} :
    a.before b = true ↔ a.idx + a.rep ≤ b.idx ∨ (a.idx = b.idx ∧ a.rep = b.rep ∧ a.sub < b.sub) := by
  simp [Run.before, and_assoc]

theorem Run.before_trans {a b c : Run} (hab : a.before b = true) (hbc : b.before c = true) : a.before c = true := by
  rw [Run.before_iff] at *
  omega

theorem Run.apart_of_before {a b : Run} (h : a.before b = true) : a.Apart b := by
  rintro idx sub ⟨⟨ha, ha', hsa⟩, hb, hb', hsb⟩
  rw [Run.before_iff] at h
  omega

theorem Run.Apart.symm {a b : Run} (h : a.Apart b) : b.Apart a := fun idx sub hh => h idx sub hh.symm

/-- Runs put in order: first those that begin below the first bound, then the rest by the bounds that follow. Any bounds permute
the runs alone; a few of them keep the insertions of a long list short. -/
def Run.sort : List Nat → List Run → List Run
  | [], l => l.insertionSort fun a b => a.before b = true
  | m :: ms, l =>
    (l.filter fun r => decide (r.idx < m)).insertionSort (fun a b => a.before b = true) ++
      Run.sort ms (l.filter fun r => !decide (r.idx < m))

theorem Run.sort_perm (ms : List Nat) (l : List Run) : (Run.sort ms l).Perm l := by
  induction ms generalizing l with
  | nil => exact List.perm_insertionSort _ l
  | cons m ms ih => exact ((List.perm_insertionSort _ _).append (ih _)).trans (List.filter_append_perm _ l)

/-- Runs that can be put in order are apart, whatever order they stand in. -/
theorem Run.pairwise_apart_of_sort {ms : List Nat} {l : List Run}
    (h : (Run.sort ms l).IsChain fun a b => a.before b = true) : l.Pairwise Run.Apart := by
  have : IsTrans Run fun a b => a.before b = true := ⟨fun _ _ _ => Run.before_trans⟩
  have hsorted := (List.isChain_iff_pairwise.1 h).imp Run.apart_of_before
  exact ((Run.sort_perm ms l).pairwise_iff Run.Apart.symm).1 hsorted

/-- The runs of an entry, one for each of its subindices. -/
def Ent.runs (e : Ent) : List Run := (List.range e.subN).map fun k => ⟨e.idx, e.rep, e.sub + k * max 1 e.subStep⟩

/-- An entry holds exactly the places of its runs. -/
theorem Ent.holds_iff {e : Ent} {idx sub : Nat} : e.holds idx sub = true ↔ ∃ r ∈ e.runs, r.Has idx sub := by
  have hstep : 0 < max 1 e.subStep := by omega
  simp only [Ent.holds, Ent.runs, Run.Has, Bool.and_eq_true, decide_eq_true_eq, beq_iff_eq, List.mem_map, List.mem_range,
    exists_exists_and_eq_and]
  constructor
  · rintro ⟨⟨⟨⟨hlo, hhi⟩, hsub⟩, hmod⟩, hk⟩
    refine ⟨_, hk, hlo, hhi, ?_⟩
    rw [Nat.div_mul_cancel (Nat.dvd_of_mod_eq_zero hmod)]
    omega
  · rintro ⟨k, hk, hlo, hhi, rfl⟩
    rw [Nat.add_sub_cancel_left, Nat.mul_mod_left, Nat.mul_div_cancel k hstep]
    exact ⟨⟨⟨⟨hlo, hhi⟩, Nat.le_add_right _ _⟩, rfl⟩, hk⟩

/-- The table itself, evaluated once: put in order, each run of the Catalogue ends before its neighbour begins. -/
theorem catalogue_runs_in_order :
    (Run.sort [0x2000, 0x8000, 0xC000] (E.all.flatMap Ent.runs)).IsChain fun a b => a.before b = true := by
  decide +kernel

/-- Settles O9: a place of two entries would lie in a run of each, and the runs of the Catalogue are apart. -/
theorem entriesDistinct : Obligations.EntriesDistinct := by
  have hruns := (List.pairwise_flatMap.1 (Run.pairwise_apart_of_sort catalogue_runs_in_order)).2
  refine hruns.imp fun hef idx sub ⟨he, hf⟩ => ?_
  obtain ⟨a, ha, hasA⟩ := Ent.holds_iff.1 he
  obtain ⟨b, hb, hasB⟩ := Ent.holds_iff.1 hf
  exact hef a ha b hb idx sub ⟨hasA, hasB⟩

end Sys2Proof.Machine

/-!
PROOFS of the Catalogue (spec/02_catalogue.md): request items and their bytes (R54, R56), what every command leaves, the checks,
reads and writes of entries (R32 to R39, R55), handles and their quarantine (R36, R44), requests, transactions, sessions and
transports (R47 to R60).
-/

namespace Sys2Proof.Machine

/-! ### The bytes of a request item (R54) -/

/-- What lies behind the first bytes is read from those that follow them. -/
theorem slice_append_right {α : Type} (a b : List α) {lo : Nat} (len : Nat) (h : a.length ≤ lo) :
    slice (a ++ b) lo len = slice b (lo - a.length) len := by
  rw [slice, List.drop_append, List.drop_eq_nil_of_le h, List.nil_append, slice]

theorem leAt_append_right (a b : List Byte) {lo : Nat} (len : Nat) (h : a.length ≤ lo) :
    leAt (a ++ b) lo len = leAt b (lo - a.length) len := by
  rw [leAt, slice_append_right a b len h, leAt]

/-- A number written at the front reads as itself. -/
theorem leAt_leBytes_append {len n : Nat} (c : List Byte) (h : n < 256 ^ len) : leAt (leBytes len n ++ c) 0 len = n := by
  rw [← List.nil_append (leBytes len n ++ c), leAt_at [] c 0 len n rfl, Nat.mod_eq_of_lt h]

theorem le_roundUp_four (n : Nat) : n ≤ roundUp n 4 := by
  unfold roundUp
  omega

theorem itemBytes_length (it : Item) : (itemBytes it).length = 12 + roundUp it.data.length 4 := by
  have := le_roundUp_four it.data.length
  simp only [itemBytes, List.length_append, leBytes_length, List.length_replicate]
  omega

/-- Each field of an item is read from where R54 puts it, whatever follows the item. -/
theorem itemBytes_fields {it : Item} (h : ItemFields it) (b : List Byte) :
    leAt (itemBytes it ++ b) 0 2 = it.index ∧ leAt (itemBytes it ++ b) 2 1 = it.sub ∧ leAt (itemBytes it ++ b) 3 1 = it.flags ∧
    leAt (itemBytes it ++ b) 4 4 = it.handle ∧ leAt (itemBytes it ++ b) 8 2 = it.data.length ∧
    leAt (itemBytes it ++ b) 10 2 = it.rsv ∧ slice (itemBytes it ++ b) 12 it.data.length = it.data := by
  obtain ⟨hindex, hsub, hflags, hhandle, hrsv, hdata⟩ := h
  simp only [itemBytes, List.append_assoc]
  refine ⟨leAt_leBytes_append _ hindex, ?_, ?_, ?_, ?_, ?_, ?_⟩
  · simpa [leAt_append_right] using leAt_leBytes_append _ hsub
  · simpa [leAt_append_right] using leAt_leBytes_append _ hflags
  · simpa [leAt_append_right] using leAt_leBytes_append (len := 4) _ hhandle
  · simpa [leAt_append_right] using leAt_leBytes_append _ hdata
  · simpa [leAt_append_right] using leAt_leBytes_append _ hrsv
  · simpa [slice_append_right] using slice_at [] it.data _ 0 _ rfl rfl

/-- An item's bytes at the front are parsed to the item, and the rest by itself. -/
theorem parseItems_itemBytes_append {it : Item} (h : ItemFields it) (n : Nat) (b : List Byte) :
    parseItems (n + 1) (itemBytes it ++ b) = (parseItems n b).map (it :: ·) := by
  obtain ⟨hindex, hsub, hflags, hhandle, hlen, hrsv, hdata⟩ := itemBytes_fields h b
  have hfits : ¬ (itemBytes it ++ b).length < 12 + roundUp it.data.length 4 := by
    simp [itemBytes_length]
  rw [parseItems]
  simp only [hlen, hindex, hsub, hflags, hhandle, hrsv, hdata, if_neg hfits]
  rw [← itemBytes_length, List.drop_left]

/-- The bytes of items are parsed to the items where they end with them, and refused where bytes follow. -/
theorem parseItems_flatten_append (items : List Item) (h : ∀ it ∈ items, ItemFields it) (b : List Byte) :
    parseItems items.length ((items.map itemBytes).flatten ++ b) = if b = [] then some items else none := by
  induction items with
  | nil => rfl
  | cons it items ih =>
    obtain ⟨hit, hitems⟩ := List.forall_mem_cons.1 h
    rw [List.map_cons, List.flatten_cons, List.append_assoc, List.length_cons, parseItems_itemBytes_append hit, ih hitems]
    split <;> rfl

/-- Settles O8: both halves are `parseItems_flatten_append`, without and with bytes behind the items. -/
theorem requestItemsRoundTrip : Obligations.RequestItemsRoundTrip := by
  intro items h
  refine ⟨?_, fun b hb => ?_⟩
  · simpa using parseItems_flatten_append items h []
  · rw [parseItems_flatten_append items h b, if_neg hb]

/-! ### Every command completes -/

/-- Each meaning is its effect, completed: the one way a command ends. -/
theorem exec_completes (c : Instr) (s : State) : ∃ u, exec c s = complete s u := by
  cases c <;> exact ⟨_, rfl⟩

/-- A command whose effect is u leaves what u leaves. -/
theorem complete_eq {s t u : State} (h : t = u) : complete s t = .next (after s u) := by
  rw [h]
  rfl

/-- Settles O4: a completed effect has no work left and keeps the queue. -/
theorem noCommandStops : Obligations.NoCommandStops := by
  intro c s
  obtain ⟨u, hu⟩ := exec_completes c s
  exact ⟨after s u, hu, after_todo s u, after_pending s u⟩

/-- A step takes the command at the front and leaves those behind it. -/
theorem step_takes_front {c : Instr} {cs : List Instr} {s : State} (h : s.pending = c :: cs) :
    ∃ t, step s = .next t ∧ t.pending = cs := by
  obtain ⟨t, ht, -, hq⟩ := noCommandStops c { s with pending := cs }
  exact ⟨t, by rw [step, h]; exact ht, hq⟩

/-- Settles O5, by induction on the commands in front. -/
theorem queueRunsInOrder : Obligations.QueueRunsInOrder := by
  intro cs ds
  induction cs with
  | nil => exact fun s h => ⟨s, rfl, h⟩
  | cons c cs ih =>
    intro s h
    obtain ⟨t, ht, hq⟩ := step_takes_front h
    obtain ⟨u, hu, hd⟩ := ih t hq
    exact ⟨u, (run_succ ht).trans hu, hd⟩

/-- Settles O13: the meaning of each of these commands is that WRITE. -/
theorem commandsAreWrites : Obligations.CommandsAreWrites := by
  intro s r c ft h k n p target v
  and_intros <;> rfl

/-! ### The checks of an item (R36, R55) -/

/-- The first checks of R55 answer 0 or a status up to 0x06. -/
theorem itemGate_le (s : State) (w : Who) (it : Item) (write : Bool) (need : Nat) : itemGate s w it write need ≤ 6 := by
  unfold itemGate
  dsimp only
  repeat' split
  all_goals omega

/-- A static entry that exists asks for the right alone. -/
theorem itemGate_static {s : State} {w : Who} {it : Item} {write : Bool} (need : Nat) (he : existsOk s it write = true)
    (ht : typeOfTemplate it.index = 0) (hs : it.sub ≠ 0) :
    itemGate s w it write need = if rightOf s w.role it.index it.sub < need then 0x05 else 0 := by
  simp [itemGate, he, ht, hs]

/-- A handle that is not live, or that the requester does not see, is answered 0x03 (R36). -/
theorem itemGate_unseen {s : State} {w : Who} {it : Item} (write : Bool) (need : Nat) (ht : typeOfTemplate it.index ≠ 0)
    (h : ∀ x, s.liveAt (typeOfTemplate it.index) (hIdx it.handle) = some x → visible w x = false) :
    itemGate s w it write need = if existsOk s it write then 0x03 else 0x06 := by
  cases he : existsOk s it write
  · simp [itemGate, he]
  cases hl : s.liveAt (typeOfTemplate it.index) (hIdx it.handle) with
  | none => simp [itemGate, he, ht, hl]
  | some x => simp [itemGate, he, ht, hl, h x hl]

/-- What the checks of a write refuse is answered a status of R55, never 0. -/
theorem writeGate5_error {s : State} {w : Who} {it : Item} {st : Nat} (h : writeGate5 s w it = .error st) : st ≠ 0 ∧ st ≤ 8 := by
  have hle : ∀ need, itemGate s w it true need ≤ 8 := fun need => (itemGate_le s w it true need).trans (by decide)
  unfold writeGate5 at h
  cases he : entOf it.index it.sub <;> simp only [he] at h <;> split_ifs at h
  all_goals
    obtain rfl := Except.error.inj h
    simp [*]

/-- A WRITE whose item fails a check of R55 up to step 5 is answered that status and changes nothing. -/
theorem write_gate_refused {s : State} {r : Req} {w : Who} {it : Item} {st : Nat} (v : Serves s r w)
    (h : writeGate5 s w it = .error st) : exec (.write r [it]) s = .next (after s (answered s r 0x82 it st)) := by
  obtain ⟨h0, hle⟩ := writeGate5_error h
  have hw : st ≠ waitCode := by unfold waitCode; omega
  exact write_refused v h0 hw (reachesManager_refused r h) (by rw [writeItem, h])

/-- The checks of a write of an entry: the gate with the right that its access asks for, then 0x08 for a read-only one. -/
theorem writeGate5_entry {s : State} {w : Who} {it : Item} {e : Ent} (he : entOf it.index it.sub = some e) (hs : it.sub ≠ 0) :
    writeGate5 s w it =
      if itemGate s w it true (if e.readOnly then 1 else 2) ≠ 0 then .error (itemGate s w it true (if e.readOnly then 1 else 2))
      else if e.readOnly then .error 0x08
      else .ok (e, (e.place it.index it.sub).1, (e.place it.index it.sub).2, hIdx it.handle) := by
  simp [writeGate5, he, hs]

/-- Settles O12: the checks of a static entry are the right and the access (`itemGate_static`, `writeGate5_entry`). -/
theorem refusedWriteChangesNothing : Obligations.RefusedWriteChangesNothing := by
  intro s r w it v
  refine ⟨fun st h => write_gate_refused v h, fun e he hs hex ht => ?_⟩
  have hgate := fun need => itemGate_static (w := w) need hex ht hs
  have hent := writeGate5_entry (s := s) (w := w) he hs
  refine ⟨fun hr => write_gate_refused v ?_, fun hro hr => write_gate_refused v ?_, fun hro hr => write_gate_refused v ?_⟩
  · cases hro : e.readOnly <;> simp [hent, hgate, hro, hr]
  · have : ¬ rightOf s w.role it.index it.sub = 0 := by omega
    simp [hent, hgate, hro, this]
  · simp [hent, hgate, hro, hr]

/-- Settles O21: an unseen handle and a free index fail the same check (`itemGate_unseen`), and what fails it changes nothing. -/
theorem otherPartitionHidden : Obligations.OtherPartitionHidden := by
  rintro s r w it t x v hrole rfl ht hlive hpart
  have hunseen : visible w x = false := by simp [visible, hrole, hpart]
  have hs : ∀ y, s.liveAt (typeOfTemplate it.index) (hIdx it.handle) = some y → visible w y = false := by
    intro y hy
    rw [hlive] at hy
    cases hy
    exact hunseen
  refine ⟨fun u write need hu => ?_, fun hex => ?_, fun hex => ?_⟩
  · subst hu
    rw [itemGate_unseen write need ht hs, itemGate_unseen write need ht]
    · rfl
    · intro y hy
      by_cases hq : typeOfTemplate it.index = 4 ∧ hIdx it.handle < 16384
      · refine hs y (Eq.trans ?_ hy)
        simp only [State.liveAt, if_pos hq]
        rfl
      · rw [State.liveAt, if_neg hq, mget?_mdel_self] at hy
        cases hy
  · have hg : itemGate s w it false 1 = 0x03 := by rw [itemGate_unseen false 1 ht hs, if_pos hex]
    refine read_answers v (u := s) (by decide) (by simp) (by simp [reachesManager, hg]) ?_
    simp [readItem, hg]
  · refine write_gate_refused v ?_
    have hg := fun need => itemGate_unseen true need ht hs
    simp [writeGate5, hg, hex]

/-! ### Writes of entries (R32, R39) -/

/-- A read-write entry other than `sequence.reserve` makes no request to the buffer pool manager. -/
theorem managed_readWrite {s : State} {r : Req} {w : Who} {e : Ent} {n k h v : Nat} (a : Accepts s r w e n k h v)
    (hacc : e.acc = .rw) (hr : e ≠ E.sequence_reserve) : managed r 2 (writeIt e n k h v) = false :=
  managed_entry a ⟨(by rintro rfl; cases hacc), (by rintro rfl; cases hacc), (by rintro rfl; cases hacc), hr⟩

/-- `sequence.reserve` and `sequence.length`, which an Active sequence takes, have rules of their own (R406, R407). -/
theorem writeHook_sequence_reserve (s : State) (w : Who) (n k i v : Nat) :
    writeHook s w E.sequence_reserve n k i v = some (sequenceReserve s i v) := rfl

theorem writeHook_sequence_length (s : State) (w : Who) (n k i v : Nat) :
    writeHook s w E.sequence_length n k i v = some (sequenceLength s i v) := rfl

/-- Without a rule of its own a read-write entry takes the value (R32). -/
theorem writeRule_plain {s : State} {w : Who} {e : Ent} {n k i v : Nat} (hacc : e.acc = .rw) (hcls : e.cls ≠ .counter)
    (hh : writeHook s w e n k i v = none) : writeRule s w e n k i v = (0, keepTouched s (s.set (e.loc n k i 0) v)) := by
  simp [writeRule, hacc, hcls, hh, keepTouched]

/-- A read-write field is locked just where its lane starts no port or its handle is not in the right state (R39, R137). -/
theorem locked_readWrite {s : State} {e : Ent} {n i : Nat} (hacc : e.acc = .rw) (hr : e ≠ E.sequence_reserve)
    (hl : e ≠ E.sequence_length) :
    locked s e n i = (noPort s e n || (e.tmpl && !cfgState s (typeOfTemplate e.idx) i e)) := by
  simp [locked, hacc, bne_iff_ne.2 hr, bne_iff_ne.2 hl]

/-- Settles O10: the entry's rule is the plain one (`writeRule_plain`), and no check after it answers (`locked_readWrite`). -/
theorem plainWrite : Obligations.PlainWrite := by
  intro s r w e n k h v a ht hacc hcls hport hcfg hh
  have hr : e ≠ E.sequence_reserve := by
    rintro rfl
    cases (writeHook_sequence_reserve ..).symm.trans hh
  have hl : e ≠ E.sequence_length := by
    rintro rfl
    cases (writeHook_sequence_length ..).symm.trans hh
  have hlock : locked s e n (hIdx h) = false := by
    rw [locked_readWrite hacc hr hl, hport]
    cases htmpl : e.tmpl
    · rfl
    · rw [hcfg htmpl]; rfl
  have hw : writeValue s w e n k (hIdx h) v = (0, keepTouched s (s.set (e.loc n k (hIdx h) 0) v)) := by
    have hstill : sameCycle s e (hIdx h) = false := a.still
    rw [writeValue, hlock, hstill, lastChecks_free, writeRule_plain hacc hcls hh]
  exact complete_eq (writeCmd_accepted a ht (managed_readWrite a hacc hr) hw)

/-- A rule of its own decides the status of a configuration entry; the plain rule answers 0. -/
theorem writeRule_config_status {s : State} {w : Who} {e : Ent} {n k i v : Nat} (hacc : e.acc = .rw) (hcls : e.cls = .config)
    (hh : ∀ x, writeHook s w e n k i v = some x → x.1 ≠ 0x06) : (writeRule s w e n k i v).1 ≠ 0x06 := by
  cases hx : writeHook s w e n k i v with
  | none => simp [writeRule_plain hacc (by simp [hcls]) hx]
  | some x => simpa [writeRule, hacc, hcls, hx] using hh x hx

/-- The types of template indices are 1 to 10 (R40). -/
theorem typeOfTemplate_cases {idx : Nat} (h0 : typeOfTemplate idx ≠ 0) (h4 : typeOfTemplate idx ≠ 4) :
    typeOfTemplate idx = 1 ∨ typeOfTemplate idx = 2 ∨ typeOfTemplate idx = 3 ∨ typeOfTemplate idx = 5 ∨ typeOfTemplate idx = 6 ∨
    typeOfTemplate idx = 7 ∨ typeOfTemplate idx = 8 ∨ typeOfTemplate idx = 9 ∨ typeOfTemplate idx = 10 := by
  have hle : typeOfTemplate idx ≤ 10 := by
    unfold typeOfTemplate
    repeat' refine iteInduction (motive := (· ≤ 10)) (fun _ => ?_) fun _ => ?_
    all_goals decide
  omega

/-- Settles O11: the field is locked in every state but the created one, and the lock is judged after the value alone
(`lastChecks_locked`). -/
theorem lockedFieldRefused : Obligations.LockedFieldRefused := by
  intro s r w e n k h v a ht htmpl hacc hcls hexc h1 h2 h3 h0 h4 h5 h6 h7 h8 h9 h10 hh
  simp only [List.mem_cons, List.not_mem_nil, or_false, not_or] at hexc
  obtain ⟨hlag, hlow, hr, hl⟩ := hexc
  have hcfg : cfgState s (typeOfTemplate e.idx) (hIdx h) e = false := by
    rcases typeOfTemplate_cases h0 h4 with t | t | t | t | t | t | t | t | t <;> rw [t]
    · exact Bool.or_eq_false_iff.2 ⟨beq_eq_false_iff_ne.2 (h1 t), beq_eq_false_iff_ne.2 hlag⟩
    · exact beq_eq_false_iff_ne.2 (h2 t)
    · exact Bool.or_eq_false_iff.2 ⟨beq_eq_false_iff_ne.2 (h3 t), beq_eq_false_iff_ne.2 hlow⟩
    · exact beq_eq_false_iff_ne.2 (h5 t)
    · exact beq_eq_false_iff_ne.2 (h6 t)
    · exact Bool.or_eq_false_iff.2 ((h7 t).imp beq_eq_false_iff_ne.2 beq_eq_false_iff_ne.2)
    · exact beq_eq_false_iff_ne.2 (h8 t)
    · exact beq_eq_false_iff_ne.2 (h9 t)
    · exact beq_eq_false_iff_ne.2 (h10 t)
  have hlock : locked s e n (hIdx h) = true := by
    simp [locked_readWrite hacc hr hl, htmpl, hcfg]
  have hw : writeItem s w (writeIt e n k h v) = (0x0C, s) := by
    rw [writeItem_accepts a ht, writeValue, hlock, lastChecks_locked (writeRule_config_status hacc hcls hh)]
  exact write_refused a.serves (by decide) (by decide) (reachesManager_other (managed_readWrite a hacc hr)) hw

/-! ### Reads of entries (R32, R38) -/

/-- An entry that is no DOMAIN holds at most 64 bytes. -/
theorem entry_len_le : ∀ e ∈ E.all, e.ty ≠ .domain → e.len ≤ 64 := by
  decide +kernel

theorem entOf_mem {idx sub : Nat} {e : Ent} (h : entOf idx sub = some e) : e ∈ E.all :=
  List.mem_of_find?_eq_some h

/-- The value of an entry always has room in the response (R56). -/
theorem overflows_value {r : Req} {e : Ent} (op x : Nat) (he : e ∈ E.all) (ht : e.ty ≠ .domain) :
    overflows r op [] (leBytes e.len x) 0 = false := by
  have hlen : roundUp e.len 4 ≤ 64 := by
    have := entry_len_le e he ht
    unfold roundUp
    omega
  have hlim : 1400 ≤ pduLimit r.via := by
    unfold pduLimit
    split <;> decide
  have hfit : 28 + roundUp e.len 4 ≤ pduLimit r.via := by omega
  simp [overflows, sumBy, hfit]

theorem entOf_pool_alloc : entOf 0x7300 0x09 = some E.pool_alloc := by decide +kernel

/-- Only a READ of `pool.alloc` is a request to the buffer pool manager (R396). -/
theorem managed_read {r : Req} {it : Item} {e : Ent} (h : entOf it.index it.sub = some e) (he : e ≠ E.pool_alloc) :
    managed r 1 it = false := by
  have hno : it.index = 0x7300 → ¬ it.sub = 0x09 := by
    intro hi hs
    rw [hi, hs, entOf_pool_alloc] at h
    exact he (Option.some.inj h).symm
  simpa [managed] using fun _ _ => hno

/-- An entry without a rule of its own reads its value; a read-clear one leaves the increments of the same cycle (R32, R38). -/
theorem readItem_entry {s : State} {w : Who} {it : Item} {e : Ent} {n k : Nat} (hg : itemGate s w it false 1 = 0) (hsub : it.sub ≠ 0)
    (he : entOf it.index it.sub = some e) (hp : e.place it.index it.sub = (n, k)) (ht : e.ty ≠ .domain) (hd : it.data = [])
    (hv : viewing s w = false) (h1 : e ≠ E.snap_view) (h2 : e ≠ E.pool_alloc) (h3 : e ≠ E.trace_next) (h4 : e ≠ E.pool_low_free)
    (hwo : e.acc ≠ .wo) :
    readItem s w it =
      if e.acc = .rc then
        (0, leBytes e.len ((s.get (e.loc n k (hIdx it.handle) 0) + 2 ^ 64 - mgetD s.cyc.incs (e.loc n k (hIdx it.handle) 0).key 0) %
          2 ^ 64), s.set (e.loc n k (hIdx it.handle) 0) (mgetD s.cyc.incs (e.loc n k (hIdx it.handle) 0).key 0))
      else (0, leBytes e.len (s.value e n k (hIdx it.handle)), s) := by
  have hc : notCaptured s w it = false := by simp [notCaptured, hv]
  unfold readItem
  simp only [hg, he, hp, hsub, hd, ht, hc, hv, h1, h2, h3, h4, hwo]
  simp

/-- Settles O14: the entry reads as `readItem_entry` says, and its bytes have room in the response (`overflows_value`). -/
theorem readAnswersValue : Obligations.ReadAnswersValue := by
  intro s r w it e n k v hg hsub he hp ht hd hv h1 h2 h3 h4
  have hread := readItem_entry hg hsub he hp ht hd hv h1 h2 h3 h4
  have hm : reachesManager s w r 1 it = false := reachesManager_other (managed_read he h2)
  have hfit := fun x => overflows_value (r := r) 1 x (entOf_mem he) ht
  refine ⟨fun hacc => ?_, fun hacc c hc hlt => ?_⟩
  · have hwo : e.acc ≠ .wo := by rcases hacc with h | h | h <;> simp [h]
    have hrc : e.acc ≠ .rc := by rcases hacc with h | h | h <;> simp [h]
    exact read_answers v (by decide) (hfit _) hm (by rw [hread hwo, if_neg hrc])
  · have hval : (c + mgetD s.cyc.incs (e.loc n k (hIdx it.handle) 0).key 0 + 2 ^ 64 -
        mgetD s.cyc.incs (e.loc n k (hIdx it.handle) 0).key 0) % 2 ^ 64 = c := by omega
    exact read_answers v (by decide) (hfit _) hm (by rw [hread (by simp [hacc]), if_pos hacc, hc, hval])

/-! ### Before service (R56) -/

/-- A request that its transport hands to the service before it is ready is answered 0x01 and changes nothing. -/
theorem serve_notReady {s : State} {r : Req} {op : Nat} {items : List Item} (hreach : reachable s r = true)
    (hudp : ¬ (r.via = .udp ∧ r.session = 0 ∧ op ≠ 0x30)) (hready : readyFor s r op items = false) :
    complete s (serve s .plain r op items) = .next (after s (s.emit (.response r (op + 0x80) 0x01 r.tx []))) := by
  refine complete_eq ?_
  unfold serve
  rw [if_neg (by simp [hreach]), if_neg hudp, if_pos (by simp [hready])]
  rfl

/-- From stage 2 on only a session-0 READ or READ_BLOCK is let through before `device.ready` reads 1. -/
theorem readyFor_early {s : State} {r : Req} {op : Nat} (items : List Item) (hstage : s.get E.boot_stage.s ≠ 1)
    (hlife : s.get E.lc_state.s ≠ 0) (hready : s.getB E.device_ready.s = false)
    (hop : ¬ (op = 1 ∨ op = 3) ∨ r.session ≠ 0 ∨ ∃ p, r.via = .control p) : readyFor s r op items = false := by
  rcases hop with hop | hop | ⟨p, hop⟩ <;> simp [readyFor, hstage, hlife, hready, hop]

/-- Settles O15: each command is its request (`serve_notReady`), and none but a session-0 read passes `readyFor_early`. -/
theorem notReadyAnswered : Obligations.NotReadyAnswered := by
  intro s r hreach hstage hlife hready
  have hlate := fun op items => readyFor_early (r := r) (op := op) items hstage hlife hready
  refine ⟨fun data => ?_, fun hs items => ?_, fun hs => ?_⟩
  · exact serve_notReady hreach (by simp) (hlate 0x30 _ (by simp))
  · have hudp : ∀ op, ¬ (r.via = .udp ∧ r.session = 0 ∧ op ≠ 0x30) := by
      rintro op ⟨hv, h0, -⟩
      rcases hs with hs | ⟨p, hs⟩
      · exact hs h0
      · cases hv.symm.trans hs
    exact ⟨serve_notReady hreach (hudp _) (hlate 1 _ (.inr hs)), serve_notReady hreach (hudp _) (hlate 3 _ (.inr hs))⟩
  · have hno : ∀ op items, op ≠ 1 ∧ op ≠ 3 →
        complete s (serve s .plain r op items) = .next (after s (s.emit (.response r (op + 0x80) 0x01 r.tx []))) := by
      intro op items hop
      refine serve_notReady hreach ?_ (hlate op items (.inl (by simp [hop])))
      rintro ⟨hv, h0, -⟩
      rcases hs with hs | hs
      · exact hs h0
      · exact hs hv
    exact ⟨fun items => ⟨hno 2 items (by decide), hno 4 items (by decide), hno 0x10 items (by decide), hno 0x11 items (by decide),
      hno 0x41 items (by decide)⟩, hno 0x20 _ (by decide), fun ft => hno 0x21 _ (by decide), hno 0x22 _ (by decide),
      hno 0x23 _ (by decide), hno 0x31 _ (by decide)⟩

/-! ### What destruction leaves of handles and time (R44, R45)

Destroying a handle gives memory back, counts and may raise fault sources; none of that moves a generation, a live handle, a
quarantine or FT. -/

/-- The handles and the time of two states are the same. -/
def SameHandles (s t : State) : Prop := t.hs = s.hs ∧ t.time = s.time

theorem SameHandles.refl (s : State) : SameHandles s s := ⟨rfl, rfl⟩

theorem SameHandles.trans {s t u : State} (h : SameHandles s t) (g : SameHandles t u) : SameHandles s u :=
  ⟨g.1.trans h.1, g.2.trans h.2⟩

/-- A fold over an accumulator that carries a state keeps what its steps keep. -/
theorem SameHandles.foldl_proj {α β : Type} (g : β → State) {f : β → α → β} (h : ∀ b a, SameHandles (g b) (g (f b a)))
    (l : List α) (b : β) : SameHandles (g b) (g (l.foldl f b)) := by
  induction l generalizing b with
  | nil => exact .refl _
  | cons a l ih => exact (h b a).trans (ih (f b a))

theorem SameHandles.foldl {α : Type} {f : State → α → State} (h : ∀ s a, SameHandles s (f s a)) (l : List α) (s : State) :
    SameHandles s (l.foldl f s) :=
  .foldl_proj id h l s

theorem SameHandles.ite {c : Prop} [Decidable c] {s t u : State} (ht : SameHandles s t) (hu : SameHandles s u) :
    SameHandles s (if c then t else u) := by
  split <;> assumption

theorem set_sameHandles (s : State) (l : Loc) (v : Nat) : SameHandles s (s.set l v) := ⟨rfl, rfl⟩

theorem emit_sameHandles (s : State) (o : Output) : SameHandles s (s.emit o) := ⟨rfl, rfl⟩

theorem later_sameHandles (s : State) (t : Todo) : SameHandles s (s.later t) := ⟨rfl, rfl⟩

theorem hset_sameHandles (s : State) (l : Loc) (t i v : Nat) : SameHandles s (s.hset l t i v) := ⟨rfl, rfl⟩

theorem stick_sameHandles (s : State) (l : Loc) (i : Nat) : SameHandles s (s.stick l i) := ⟨rfl, rfl⟩

theorem inc_sameHandles (s : State) (l : Loc) (n : Nat) : SameHandles s (s.inc l n) := by
  rw [State.inc_eq]
  exact ⟨rfl, rfl⟩

theorem notifyMctp_sameHandles (s : State) (eid : Nat) (pdu : List Byte) : SameHandles s (s.notifyMctp eid pdu) := by
  unfold State.notifyMctp
  dsimp only
  split <;> exact ⟨rfl, rfl⟩

theorem notify_sameHandles (s : State) (srcs : List Nat) : SameHandles s (s.notify srcs).1 := by
  unfold State.notify
  extract_lets step
  have hstep : ∀ acc x, SameHandles acc.1 (step acc x).1 := by
    intro acc x
    dsimp only [step]
    refine .ite (.refl _) ?_
    split
    · exact later_sameHandles _ _
    · exact emit_sameHandles _ _
    · exact notifyMctp_sameHandles _ _ _
    · exact .refl _
  exact (SameHandles.foldl_proj Prod.fst hstep s.mgmt.sessions (s, [], 0)).trans (inc_sameHandles _ _ _)

theorem react_sameHandles (s : State) (settings : List Nat) : SameHandles s (s.react settings).1 := by
  unfold State.react
  extract_lets masked nots
  have hnot : SameHandles s (if nots = [] then (s, false) else s.notify nots).1 := by
    rw [apply_ite Prod.fst]
    exact .ite (.refl s) (notify_sameHandles s nots)
  generalize (if nots = [] then (s, false) else s.notify nots) = p at hnot ⊢
  obtain ⟨t, lost⟩ := p
  dsimp -zeta only
  extract_lets s1 old s2 flt s3 s4 s5
  have h1 : SameHandles t s1 := .ite (emit_sameHandles _ _) (.refl _)
  have h2 : SameHandles s1 s2 := by
    dsimp only [s2]
    split
    · exact .refl _
    · exact .ite (.ite (set_sameHandles _ _ _) (.refl _)) (.trans (set_sameHandles _ _ _) (.trans (inc_sameHandles _ _ _) ⟨rfl, rfl⟩))
  have h3 : SameHandles s2 s3 := by
    dsimp only [s3]
    split
    · exact .refl _
    · split
      · exact .refl _
      · exact ⟨rfl, rfl⟩
  have h4 : SameHandles s3 s4 := by
    refine .foldl (fun st src => ?_) _ _
    split
    · exact later_sameHandles _ _
    · exact .refl _
  have h5 : SameHandles s4 s5 := .foldl (fun _ _ => later_sameHandles _ _) _ _
  exact ((((hnot.trans h1).trans h2).trans h3).trans h4).trans h5

theorem raiseSet_sameHandles (s : State) (srcs : List Nat) : SameHandles s (s.raiseSet srcs).1 := by
  unfold State.raiseSet
  dsimp only
  rw [apply_ite Prod.fst]
  refine .trans ?_ (.ite (.refl _) (react_sameHandles _ _))
  refine .trans ?_ (.foldl (fun _ _ => inc_sameHandles _ _ _) _ _)
  exact .trans (.foldl (fun _ _ => stick_sameHandles _ _ _) _ s) ⟨rfl, rfl⟩

theorem raise_sameHandles (s : State) (src : Nat) : SameHandles s (s.raise src) :=
  .ite ((raiseSet_sameHandles s _).trans (raiseSet_sameHandles _ _)) (raiseSet_sameHandles s _)

theorem store_sameHandles (s : State) (a : Nat) (b : List Byte) : SameHandles s (s.store a b) := by
  have hcount : ∀ t n, SameHandles t (State.countWrite t a n) := fun t n =>
    .ite (.refl t) (.trans (.foldl (fun _ _ => inc_sameHandles _ _ _) _ _) (.foldl (fun _ _ => inc_sameHandles _ _ _) _ _))
  refine .trans (t := if baseT2 ≤ a ∧ b ≠ [] then (s.memWrite a b).dropFills (linesOf a b.length) else s.memWrite a b) ?_ (hcount _ _)
  exact .ite ⟨rfl, rfl⟩ ⟨rfl, rfl⟩

theorem setWord_sameHandles (s : State) (i j w : Nat) : SameHandles s (s.setWord i j w) := store_sameHandles s _ _

theorem modPool_sameHandles (s : State) (i : Nat) (f : PoolRt → PoolRt) : SameHandles s (s.modPool i f) := ⟨rfl, rfl⟩

theorem poolFlag_sameHandles (s : State) (i b : Nat) : SameHandles s (s.poolFlag i b) :=
  (stick_sameHandles s _ _).trans (raise_sameHandles _ _)

theorem poolSync_sameHandles (s : State) (i : Nat) : SameHandles s (s.poolSync i) := by
  unfold State.poolSync
  dsimp only
  refine .trans ?_ (modPool_sameHandles _ _ _)
  refine .trans ?_ (.ite ((stick_sameHandles _ _ _).trans (raise_sameHandles _ _)) (.refl _))
  exact .ite ⟨rfl, rfl⟩ ⟨rfl, rfl⟩

theorem poolCheck_sameHandles (s : State) (i a : Nat) : SameHandles s (s.poolCheck i a).2 := by
  unfold State.poolCheck
  dsimp only
  split
  · exact .refl s
  split
  · exact .refl s
  split
  · exact (inc_sameHandles _ _ _).trans (poolFlag_sameHandles _ _ _)
  split
  · exact .refl s
  · exact (inc_sameHandles _ _ _).trans (poolFlag_sameHandles _ _ _)

theorem takeBack_sameHandles (s : State) (i j : Nat) : SameHandles s (s.takeBack i j) := by
  unfold State.takeBack
  dsimp only
  refine .ite (modPool_sameHandles s _ _) ?_
  have hadd : ∀ (t : State) (l : Loc) (n : Nat) (f : PoolRt → PoolRt), SameHandles t ((t.add l n).modPool i f) :=
    fun _ _ _ _ => ⟨rfl, rfl⟩
  refine .trans ?_ (hadd _ _ _ _)
  exact (modPool_sameHandles s _ _).trans (.foldl_proj Prod.snd (fun _ _ => store_sameHandles _ _ _) _ (0, _))

theorem poolFree_sameHandles (s : State) (i a : Nat) : SameHandles s (poolFree s i a).2 := by
  have hcheck := poolCheck_sameHandles s i a
  unfold poolFree
  generalize s.poolCheck i a = x at hcheck ⊢
  obtain ⟨e | j, t⟩ := x
  · exact hcheck
  · refine hcheck.trans ?_
    dsimp only
    rw [apply_ite Prod.snd]
    refine .ite (setWord_sameHandles _ _ _ _) ?_
    exact ((setWord_sameHandles _ _ _ _).trans (takeBack_sameHandles _ _ _)).trans
        ((inc_sameHandles _ _ _).trans (poolSync_sameHandles _ _))

theorem giveBack_sameHandles (s : State) (pools : List Nat) (a : Nat) : SameHandles s (giveBack s pools a) := by
  unfold giveBack
  split
  · exact poolFree_sameHandles s _ a
  · exact .refl s

theorem tmplSync_sameHandles (s : State) (i : Nat) : SameHandles s (s.tmplSync i) := by
  unfold State.tmplSync
  dsimp only
  exact .ite ⟨rfl, rfl⟩ ⟨rfl, rfl⟩

theorem collRelease_sameHandles (s : State) (i : Nat) : SameHandles s (collRelease s i) := by
  unfold collRelease
  extract_lets r s1 s2 s3 epi
  have h2 : SameHandles s1 s2 := .foldl (fun _ _ => poolFree_sameHandles _ _ _) _ _
  have h3 : SameHandles s2 s3 := ⟨rfl, rfl⟩
  exact (SameHandles.trans ⟨rfl, rfl⟩ (h2.trans h3)).trans (.ite (.refl _) (tmplSync_sameHandles _ _))

theorem collDestroyed_sameHandles (s : State) (i : Nat) : SameHandles s (collDestroyed s i) :=
  .trans (.ite (.refl s) (.trans (set_sameHandles s _ _) (collRelease_sameHandles _ _))) (set_sameHandles _ _ _)

theorem seqRelease_sameHandles (s : State) (i : Nat) : SameHandles s (seqRelease s i) := by
  unfold seqRelease
  extract_lets t tp pages tables s1 s2 s3
  have h1 : SameHandles s s1 := .foldl (fun _ _ => giveBack_sameHandles _ _ _) _ _
  have h2 : SameHandles s1 s2 := .foldl (fun _ _ => giveBack_sameHandles _ _ _) _ _
  have h3 : SameHandles s2 s3 := .ite (.refl _) (giveBack_sameHandles _ _ _)
  refine ((h1.trans h2).trans h3).trans ?_
  have hcopy : ∀ (u : State) c, SameHandles u { u with copying := c } := fun _ _ => ⟨rfl, rfl⟩
  split
  · exact .trans (.trans (giveBack_sameHandles _ _ _) (hcopy _ _)) (giveBack_sameHandles _ _ _)
  · exact .refl _

theorem gaugeDestroyed_sameHandles (s : State) (i : Nat) : SameHandles s (gaugeDestroyed s i) := ⟨rfl, rfl⟩

theorem traceDestroyed_sameHandles (s : State) (i : Nat) : SameHandles s (traceDestroyed s i) := ⟨rfl, rfl⟩

/-- A destroyed handle's index is in quarantine with the next generation; nothing else of the handles changes, nor FT (R44). -/
theorem destroyNow_handles (s : State) (t i : Nat) :
    (destroyNow s t i).hs = { s.hs with
      gens := mput s.hs.gens (t * 2 ^ 20 + i) (nextGen (s.genOf t i))
      live := mdel s.hs.live (t * 2 ^ 20 + i)
      quar := mput s.hs.quar (t * 2 ^ 20 + i) (s.ft + quietNs) } ∧ (destroyNow s t i).time = s.time := by
  unfold destroyNow
  extract_lets qs spring s1 key s2 s3
  have h1 : SameHandles s s1 := .ite (collDestroyed_sameHandles s i) <| .ite (seqRelease_sameHandles s i) <| .ite ⟨rfl, rfl⟩ <|
    .ite ⟨rfl, rfl⟩ <| .ite ⟨rfl, rfl⟩ <| .ite (gaugeDestroyed_sameHandles s i) <| .ite (traceDestroyed_sameHandles s i) <|
    .ite ⟨rfl, rfl⟩ (.refl s)
  have h2 : SameHandles s1 s2 := ⟨rfl, rfl⟩
  have h3 : SameHandles s2 s3 := .ite (.refl _) (later_sameHandles _ _)
  obtain ⟨hhs, htime⟩ := (h1.trans h2).trans h3
  have hgen : s3.genOf t i = s.genOf t i := by rw [State.genOf, hhs, State.genOf]
  have hft : s3.ft = s.ft := by rw [State.ft, htime]
  refine ⟨?_, htime⟩
  show ({ s3.hs with
    gens := mput s3.hs.gens key (nextGen (s3.genOf t i))
    live := mdel s3.hs.live key
    quar := mput s3.hs.quar key (s3.ft + quietNs) } : HandleSt) = _
  rw [hgen, hft, hhs]

theorem nextGen_ne_zero (g : Nat) : nextGen g ≠ 0 := by
  unfold nextGen
  split <;> omega

theorem nextGen_of_lt {g : Nat} (h : g < 255) : nextGen g = g + 1 := if_neg (by omega)

/-- Settles O20: each clause reads one of the maps that `destroyNow_handles` gives. -/
theorem destroyQuarantines : Obligations.DestroyQuarantines := by
  refine ⟨fun g => ⟨rfl, nextGen_of_lt, nextGen_ne_zero g⟩, fun s t i ht1 ht10 hi h4 => ?_⟩
  obtain ⟨hhs, htime⟩ := destroyNow_handles s t i
  have hnot : ¬ (t = 4 ∧ i < 16384) := by omega
  have hft : (destroyNow s t i).ft = s.ft := by rw [State.ft, htime]
  have hquar : (destroyNow s t i).quarFt t i = some (s.ft + 4195240) := by
    simp [State.quarFt, hhs, hft, quietNs]
  refine ⟨?_, ?_, hft, hquar, ?_, fun j hj hji => ?_⟩
  · rw [State.liveAt, if_neg hnot, hhs, mget?_mdel_self]
  · rw [State.genOf, hhs, mgetD_mput_self]
  · simp [State.freeIdx, hquar]
  · rw [State.genOf, hhs, mgetD_mput_ne _ _ _ _ _ (by omega), State.genOf]

/-! ### Requests (R32, R42, R47, R55, R510) -/

/-- A served request whose items have all run is answered by one response with their answers (R54). -/
theorem serve_runs {s a : State} {r : Req} {w : Who} {op : Nat} {items : List Item} {done : List RItem} (v : Serves s r w)
    (hop : op = 1 ∨ op = 2 ∨ op = 3 ∨ op = 4 ∨ op = 0x10 ∨ op = 0x11 ∨ (op = 0x41 ∧ w.owner < 2 ^ 32))
    (h : runItems w r op items [] s = ([], done, a)) :
    complete s (serve s .plain r op items) = .next (after s (a.emit (.response r (op + 0x80) 0 0 done))) :=
  complete_eq (by rw [serve_items v hop, h, settleItems_plain, v.noTx])

/-- One item that is no request to the buffer pool manager and does not wait runs to its answer. -/
theorem runItems_single {s u : State} {w : Who} {r : Req} {op st h : Nat} {it : Item}
    (hm : reachesManager s w r op it = false) (hs : serveItem s w r op it = (st, [], h, u)) (hst : st ≠ waitCode) :
    runItems w r op [it] [] s = ([], [⟨it.index, it.sub, st, h, []⟩], u) :=
  runItems_one hm (serveBounded_fits hs (overflows_nil r op [] 0)) hst

/-- Only READ and WRITE items are requests to the buffer pool manager. -/
theorem reachesManager_opcode {s : State} {w : Who} {r : Req} {op : Nat} {it : Item} (h1 : op ≠ 1) (h2 : op ≠ 2) :
    reachesManager s w r op it = false :=
  reachesManager_other (by simp [managed, h1, h2])

/-- A CREATE item whose index passes R43 makes it live, and answers the handle with its generation (R42). -/
theorem serveItem_create {s : State} {r : Req} {w : Who} {it : Item} {t i part : Nat} (v : Serves s r w)
    (hp : createPick s w it none = .ok (t, i, part)) :
    serveItem s w r 0x10 it = (0, [], mkHandle t (s.genOf t i) i, s.makeLive t i part) := by
  simp [serveItem, v.named, v.noTx, createItem, hp]

/-- A DESTROY item of a handle that its chapter lets go destroys it (R47). -/
theorem serveItem_destroy {s : State} {r : Req} {w : Who} {it : Item} (v : Serves s r w) (hg : itemGate s w it true 2 = 0)
    (hr : 2 ≤ rightOf s w.role it.index 1) (hd : it.data = [])
    (hq : ¬ (hType it.handle = 4 ∧ it.index = 0x4100 ∧ hIdx it.handle < 16384))
    (hok : destroyable s (hType it.handle) (hIdx it.handle) = true) :
    serveItem s w r 0x11 it = (0, [], it.handle, destroyNow s (hType it.handle) (hIdx it.handle)) := by
  have hitem : destroyItem s w it = (0, destroyNow s (hType it.handle) (hIdx it.handle)) := by
    unfold destroyItem
    rw [if_neg hq]
    simp [hg, Nat.not_lt.2 hr, hd, hok]
  simp [serveItem, v.named, v.noTx, hitem]

/-- Settles O57: the items run as `serve_runs` says, and a CREATE or DESTROY of one item is its item's effect. -/
theorem requestsComplete : Obligations.RequestsComplete := by
  intro s
  refine ⟨fun r w items done a v h _ => serve_runs v (by simp) h, fun r w items done a v h _ => serve_runs v (by simp) h,
    fun r w items done a v h _ => serve_runs v (by simp) h, fun r w items done a v h _ => serve_runs v (by simp) h,
    fun r w items done a v h _ => serve_runs v (by simp) h, fun r w items done a v h _ => serve_runs v (by simp) h,
    fun r w items done a v ho h _ => serve_runs v (by simpa using ho) h, fun r w it t i part v hp => ?_,
    fun r w it v hg hr hd hq hok => ?_⟩
  · exact serve_runs v (by simp)
      (runItems_single (reachesManager_opcode (by decide) (by decide)) (serveItem_create v hp) (by decide))
  · exact serve_runs v (by simp)
      (runItems_single (reachesManager_opcode (by decide) (by decide)) (serveItem_destroy v hg hr hd hq hok) (by decide))

/-! ### Transactions (R49 to R53) -/

/-- A transaction opens where fewer than 64 are open or scheduled (R49). -/
theorem txOpen_free {s : State} {w : Who} (h : (s.mgmt.txs.filter fun x => decide (x.state ≤ 1)).length < 64) :
    txOpen s w = (s.mgmt.nextTx, s.modMgmt fun m => { m with
      txs := m.txs ++ [⟨m.nextTx, w.owner, w.role, w.part, 0, 0, [], s.ft, 0, 0⟩]
      nextTx := if m.nextTx + 1 < 2 ^ 32 then m.nextTx + 1 else 1 }) := by
  rw [txOpen, if_neg (Nat.not_le.2 h)]
  rfl

/-- A named FT that passes R77 schedules the commit (R50). -/
theorem txCommit_scheduled {s : State} {x : Tx} {ft : Nat} (hx : x.state = 0) (h0 : ft ≠ 0) (ht : s.ftTest ft = 0) :
    txCommit s x ft = (0, none, (s.schedule ft (.commit x.id)).modTxn x.id fun y => { y with state := 1 }) := by
  have htest : ¬ ft ≤ s.ft ∧ ¬ ft < s.ft + 10000 ∧ ¬ s.pendingActs ≥ 1024 := by
    unfold State.ftTest at ht
    split_ifs at ht with h1 h2 h3
    exact ⟨h1, h2, h3⟩
  obtain ⟨hpast, hnear, hfull⟩ := htest
  rw [txCommit, if_neg (by simp [hx]), if_neg h0, if_neg hpast, if_neg hnear, if_neg hfull]

/-- TX_OPEN makes a transaction where fewer than 64 are open or scheduled (R49). -/
theorem serve_txOpen {s : State} {r : Req} {w : Who} (v : Serves s r w)
    (h : (s.mgmt.txs.filter fun x => decide (x.state ≤ 1)).length < 64) :
    serve s .plain r 0x20 [] = (s.modMgmt fun m => { m with
      txs := m.txs ++ [⟨m.nextTx, w.owner, w.role, w.part, 0, 0, [], s.ft, 0, 0⟩]
      nextTx := if m.nextTx + 1 < 2 ^ 32 then m.nextTx + 1 else 1 }).emit
      (.response r 0xA0 (if s.mgmt.nextTx = 0 then 0x02 else 0) s.mgmt.nextTx []) := by
  rw [serve_tx v (.inl rfl), serveFor, if_neg v.named, if_pos rfl, txOpen_free h]
  rfl

/-- TX_COMMIT, TX_ABORT and TX_STATUS reach their rules, the transaction marked active. -/
theorem serve_txCommand {s : State} {r : Req} {w : Who} {x : Tx} (v : ServesTx s r w x) (c : Carry) (items : List Item) :
    let a := s.modTxn x.id fun y => { y with active := s.ft }
    serve s c r 0x21 items = serveCommit a c r x items ∧ serve s c r 0x22 items = serveAbort a c r x ∧
    serve s c r 0x23 items = serveStatus a c r x := by
  refine ⟨?_, ?_, ?_⟩ <;> rw [serve_inTx v (by simp)] <;> simp [serveFor, v.named]

/-- A TX_COMMIT of one item that names an FT allowed by R77 schedules the commit there (R50). -/
theorem serveCommit_named {s : State} {r : Req} {x : Tx} {ft : Nat} (hlt : ft < 2 ^ 64) (h0 : ft ≠ 0) (hx : x.state = 0)
    (ht : s.ftTest ft = 0) : serveCommit s .plain r x [⟨0, 0, 0, 0, 0, leBytes 8 ft⟩] =
      ((s.schedule ft (.commit x.id)).modTxn x.id fun y => { y with state := 1 }).emit
        (.response r 0xA1 0 r.tx [⟨0, 0, 0, 0, []⟩]) := by
  have hft : ofLe (leBytes 8 ft) = ft := ofLe_leBytes_of_lt hlt
  simp only [serveCommit, hft, h0, txCommit_scheduled hx h0 ht]
  rfl

/-- An item that its check accepts is staged, and changes nothing else (R49). -/
theorem stageItem_accepted {s : State} {w : Who} {x : Tx} {it : Item} (hx : x.state = 0) (hlen : x.items.length < 4096)
    (hbytes : txBytes x + it.data.length ≤ 2097152)
    (hok : (applyStaged (staged s x) { w with inTx := true } ⟨2, it, 0, false⟩).1 = 0) :
    stageItem s w x 2 it =
      (0, [], it.handle, s.modTxn x.id fun z => { z with items := z.items ++ [⟨2, it, 0, false⟩] }) := by
  simp [stageItem, hx, Nat.not_le.2 hlen, Nat.not_lt.2 hbytes, hok]

/-- A WRITE of one item within a transaction answers what its staging answers (R49). -/
theorem serve_write_staged {s a u : State} {r : Req} {w : Who} {x y : Tx} {it : Item} (v : ServesTx s r w x)
    (ha : a = s.modTxn x.id fun z => { z with active := s.ft }) (hy : a.txOf w r.tx = some y)
    (hs : stageItem a w y 2 it = (0, [], it.handle, u)) :
    serve s .plain r 2 [it] = u.emit (.response r 0x82 0 r.tx [⟨it.index, it.sub, 0, it.handle, []⟩]) := by
  have hitem : serveItem a w r 2 it = (0, [], it.handle, u) := by simp [serveItem, v.named, v.inTx, hy, hs]
  have hm : reachesManager a w r 2 it = false := reachesManager_other (by simp [managed, v.inTx])
  rw [serve_write_inTx v, ← ha, runItems_single hm hitem (by decide), settleItems_plain]

/-- The scheduled commit whose turn has come applies, no request being between its items (R50, R52). -/
theorem txCommitFire_applies {s : State} {ft seq id : Nat} {x : Tx} (hdue : s.dueAct = some ⟨ft, seq, .commit id⟩)
    (hfind : (s.unschedule (.commit id)).mgmt.txs.find? (fun x => x.id == id && x.state == 1) = some x)
    (hmid : midRequest s = false) : txCommitFire s = (commitNow (s.unschedule (.commit id)) x).2.2 := by
  have hmid' : midRequest (s.unschedule (.commit id)) = false := hmid
  simp only [txCommitFire, hdue, hmid', commitDue, hfind]
  rfl

/-- An open transaction without activity for 10 s is discarded (R53). -/
theorem txInactivity_drops {s : State} {id : Nat} {x : Tx} (hfind : s.mgmt.txs.find? (fun x => x.id = id) = some x)
    (hx : x.state = 0) (hact : x.active + 10000000000 ≤ s.ft) : txInactivity s id = s.dropTx id := by
  simp only [txInactivity, hfind]
  exact if_pos ⟨hx, hact⟩

/-- Settles O58, a lemma for each clause. -/
theorem transactionsComplete : Obligations.TransactionsComplete := by
  intro s
  refine ⟨fun r w v hroom => complete_eq (serve_txOpen v hroom), ?_, ?_, ?_, ?_, ?_, ?_⟩
  · rintro r w x a v rfl ft hlt hx h0 ht
    exact complete_eq ((serve_txCommand v _ _).1.trans (serveCommit_named hlt h0 hx ht))
  · rintro r w x a v rfl hx hc
    exact complete_eq ((serve_txCommand v _ []).2.1.trans (if_pos ⟨hx, hc⟩))
  · rintro r w x a v rfl
    exact complete_eq (serve_txCommand v _ []).2.2
  · intro ft seq id x hdue hfind hmid
    exact complete_eq (congrArg State.lockFollow (txCommitFire_applies hdue hfind hmid))
  · intro id x hfind hx hact
    exact complete_eq (txInactivity_drops hfind hx hact)
  · intro r w x y a it v ha hy hst hlen hbytes hok
    exact complete_eq (serve_write_staged v ha hy (stageItem_accepted hst hlen hbytes hok))

/-! ### Sessions and quarantine (R37, R44, R46, R53, R484) -/

/-- A request on session 0 that is no control packet comes from a requester of its own, without a session (R37). -/
theorem whoOf_session0 {s : State} {r : Req} (h0 : r.session = 0) (hv : ∀ p, r.via ≠ .control p) :
    whoOf s r = some ⟨4, 4096, 0, r.via, false⟩ := by
  unfold whoOf
  split
  next p hp => exact absurd hp (hv p)
  next => rw [if_pos h0]

/-- SESSION_OPEN of a ready service answers what its judgement answers (R484). -/
theorem serve_sessionOpen {s a : State} {r : Req} {data d : List Byte} (hreach : reachable s r = true)
    (hstage : s.get E.boot_stage.s ≠ 1) (hlife : s.get E.lc_state.s ≠ 0) (hready : s.getB E.device_ready.s = true)
    (h0 : r.session = 0) (htx : r.tx = 0) (hv : ∀ p, r.via ≠ .control p) (h : sessionOpen s r data = (0, d, a)) :
    serve s .plain r 0x30 [⟨0, 0, 0, 0, 0, data⟩] = a.emit (.response r 0xB0 0 0 [⟨0, 0, 0, 0, d⟩]) := by
  have hitem : serveItem s ⟨4, 4096, 0, r.via, false⟩ r 0x30 ⟨0, 0, 0, 0, 0, data⟩ = (0, d, 0, a) := by
    simp [serveItem, h]
  have hrun := runItems_one (reachesManager_opcode (by decide) (by decide))
    (serveBounded_fits (acc := []) (rest := 0) hitem (by simp [overflows])) (by decide)
  unfold serve
  rw [if_neg (by simp [hreach]), if_neg (by simp), if_neg (by simp [readyFor, hstage, hlife, hready])]
  simp only [whoOf_session0 h0 hv, htx]
  simp [serveFor, hrun, settleItems_plain, htx]

/-- A session that opens is the new last one, for the transport and role asked for, under the next number (R484). -/
theorem sessionOpen_opens {s a : State} {r : Req} {data d : List Byte} (h : sessionOpen s r data = (0, d, a)) :
    ∃ x, a.mgmt.sessions = s.mgmt.sessions ++ [x] ∧ x.via = r.via ∧ x.role = leAt data 0 1 ∧ x.id = s.mgmt.nextSession := by
  unfold sessionOpen at h
  extract_lets role part counter nonce off u at h
  have hu : u.mgmt = s.mgmt := by
    dsimp only [u]
    split
    · rfl
    · exact State.domPut_mgmt s _ _ _ _ _
  clear_value u
  iterate 5
    split at h
    · cases h
  extract_lets proof at h
  iterate 2
    split at h
    · cases h
  obtain ⟨-, ha⟩ := Prod.mk.inj (Prod.mk.inj h).2
  subst ha
  have hsessions : u.mgmt.sessions = s.mgmt.sessions := by rw [hu]
  exact ⟨_, congrArg (· ++ [_]) hsessions, rfl, rfl, congrArg MgmtSt.nextSession hu⟩

/-- SESSION_CLOSE is answered, then its session closes (R53). -/
theorem serve_sessionClose {s : State} {r : Req} {w : Who} (v : Serves s r w) (hw : w.owner < 2 ^ 32) :
    serve s .plain r 0x31 [] = (s.emit (.response r 0xB1 0 0 [])).closeSession w.owner := by
  rw [serve_tx v (.inr ⟨rfl, hw⟩), serveFor, if_neg v.named, if_neg (by decide), if_pos rfl, respond, v.noTx]
  rfl

/-- A lockout ends 60 s after it began (R484). -/
theorem lockoutEnd_ends {s : State} {t : Nat} (hl : s.mgmt.lockAt = some t) (ht : t + 60000000000 ≤ s.ft) :
    lockoutEnd s = (s.modMgmt fun m => { m with lockAt := none }).set E.sec_lockout.s 0 := by
  simp only [lockoutEnd, hl]
  exact if_pos ht

/-- A quarantine ends at its FT (R44). -/
theorem quarantineEnd_ends {s : State} {t i ft : Nat} (hq : mget? s.hs.quar (t * 2 ^ 20 + i) = some ft) (hft : ft ≤ s.ft) :
    quarantineEnd s t i = { s with hs := { s.hs with quar := mdel s.hs.quar (t * 2 ^ 20 + i) } } := by
  simp only [quarantineEnd, hq]
  exact if_pos hft

/-- Settles O59, a lemma for each clause. -/
theorem sessionsComplete : Obligations.SessionsComplete := by
  intro s
  refine ⟨?_, ?_, ?_, ?_, ?_⟩
  · intro r data d a hreach hstage hlife hready h0 htx hv h
    exact ⟨complete_eq (serve_sessionOpen hreach hstage hlife hready h0 htx hv h), sessionOpen_opens h⟩
  · exact fun r w v hw => complete_eq (serve_sessionClose v hw)
  · exact fun t hl ht => complete_eq (lockoutEnd_ends hl ht)
  · exact fun t i ft hq hft => complete_eq (quarantineEnd_ends hq hft)
  · exact fun ho => complete_eq (if_pos ho)

/-! ### Transports (R56, R58, R59) -/

/-- A PDU of the right form within its transport's limit is served as the request that it spells (R54, R56). -/
theorem receivePdu_serves {s : State} {c : Carry} {via : Transport} {src : Nat} {b : List Byte} {items : List Item}
    (hlen : 16 ≤ b.length) (hver : leAt b 0 1 = 1) (hop : opKnown (leAt b 1 1) = true) (hlim : b.length ≤ pduLimit via)
    (hrsv : leAt b 14 2 = 0) (hitems : parseItems (leAt b 12 2) (b.drop 16) = some items) :
    receivePdu s c via src b = serve s c ⟨via, src, leAt b 2 2, leAt b 4 4, leAt b 8 4⟩ (leAt b 1 1) items := by
  have hgood : ¬ (leAt b 0 1 ≠ 1 ∨ !opKnown (leAt b 1 1) ∨ pduLimit via < b.length ∨ leAt b 14 2 ≠ 0) := by
    simp [hver, hop, hrsv, hlim]
  unfold receivePdu
  rw [if_neg (Nat.not_lt.2 hlen)]
  simp only [if_neg hgood, hitems]

/-- An MCTP message of the vendor, of no outstanding tag, hands its PDU on and sends what is ready (R58). -/
theorem mctpMessage_hands {s : State} {eid : Nat} {b : List Byte} (hsb : s.mgmt.sbFailed = false) (hpre : b.take 5 = mctpPrefix)
    (htag : s.mgmt.mctpOut.any (fun x => x.eid == eid && x.tag == leAt b 7 2) = false) :
    mctpMessage s eid b = mctpFlush (receivePdu
      (s.modMgmt fun m => { m with mctpOut := m.mctpOut ++ [⟨eid, leAt b 7 2, none⟩] }) .mctp .mctp eid (b.drop 5)) := by
  unfold mctpMessage
  exact if_neg (by simp only [hsb, hpre, htag]; simp)

/-- An untagged datagram with a SESSION_OPEN on session 0 hands its PDU on (R58). -/
theorem udpDatagram_sessionOpen {s : State} {src : Nat} {b : List Byte} (hlen : 32 ≤ b.length)
    (h0 : leAt (b.take (b.length - 16)) 4 4 = 0) (hop : leAt (b.take (b.length - 16)) 1 1 = 0x30)
    (htag : b.drop (b.length - 16) = List.replicate 16 0) :
    udpDatagram s src b = receivePdu s .udp .udp src (b.take (b.length - 16)) := by
  unfold udpDatagram
  dsimp only
  rw [if_neg (Nat.not_lt.2 hlen), if_pos h0, if_pos ⟨hop, htag⟩]

/-- A doorbell of a mailbox that is not busy takes the window and hands the PDU on (R59). -/
theorem mailboxDoorbell_idle {s : State} {ring : Ring} {win : List Byte} (hhost : s.hostOn = true) (hbusy : s.mgmt.busy = false)
    (hclear : bitAt ring.clear 1 = false) :
    mailboxDoorbell s ring win = receivePdu
      (s.modMgmt fun m => { m with reqWindow := (win ++ List.replicate 4096 0).take 4096, busy := true, respLen := 0 })
      .mailbox .mailbox 0 (((win ++ List.replicate 4096 0).take 4096 ++ [0]).take (min ring.len 4097)) := by
  unfold mailboxDoorbell
  extract_lets u full v
  have hu : u = s := if_neg (by simp [hclear])
  rw [if_neg (by simp [hu, hhost]), if_neg (by simp [hu, hbusy])]
  simp only [v, full, hu]

/-- A doorbell while the mailbox is busy is counted and nothing more, whether or not it clears the bit first (R59). -/
theorem mailboxDoorbell_busy {s : State} {ring : Ring} {win : List Byte} (hhost : s.hostOn = true) (hbusy : s.mgmt.busy = true) :
    mailboxDoorbell s ring win = s.modMgmt fun m => { m with overrun := true, overruns := m.overruns + 1 } := by
  unfold mailboxDoorbell
  extract_lets u
  have hu : u.hostOn = s.hostOn ∧ u.mgmt.busy = s.mgmt.busy ∧
      u.modMgmt (fun m => { m with overrun := true, overruns := m.overruns + 1 }) =
        s.modMgmt fun m => { m with overrun := true, overruns := m.overruns + 1 } := by
    dsimp only [u]
    split <;> exact ⟨rfl, rfl, rfl⟩
  obtain ⟨hh, hb, hmod⟩ := hu
  rw [if_neg (by simp [hh, hhost]), if_pos (by rw [hb, hbusy]), hmod]

/-- Settles O60, a lemma for each clause. -/
theorem transportsComplete : Obligations.TransportsComplete := by
  intro s
  refine ⟨?_, ?_, ?_, ?_, ?_, ?_⟩
  · intro via src b items hlen hver hop hlim hrsv hitems
    exact complete_eq (receivePdu_serves hlen hver hop hlim hrsv hitems)
  · exact fun eid b hsb hpre htag => complete_eq (mctpMessage_hands hsb hpre htag)
  · exact fun src b hlen h0 hop htag => complete_eq (udpDatagram_sessionOpen hlen h0 hop htag)
  · rintro ring win full hhost hbusy hclear rfl
    exact complete_eq (mailboxDoorbell_idle hhost hbusy hclear)
  · exact fun ring win hhost hbusy => complete_eq (mailboxDoorbell_busy hhost hbusy)
  · exact fun hbusy hparked => complete_eq (if_pos ⟨hbusy, by simp [hparked]⟩)

end Sys2Proof.Machine

/-!
PROOFS of fabric time (spec/03_fabric_time.md): requests whose entry has a rule of its own, the tests of a named FT (R77), the order
of pending actions (R78, R80), the ticks of FT (R65, R66) and the commands about time marks, loads and launches (R70 to R74, R84,
R86).
-/

namespace Sys2Proof.Machine

/-! ### Requests that an entry's own rule decides (R55) -/

/-- A write-only entry that no general rule concerns, that is no port's, and that is no request to the buffer pool manager: what a
WRITE of it does is its own rule. -/
structure RequestEntry (e : Ent) : Prop where
  plain : e.ty ≠ .domain
  writeOnly : e.acc = .wo
  uncounted : e.cls ≠ .counter
  portless : e.idx ≠ 0x2000 ∧ e.idx ≠ 0x4C00
  unmanaged : e ≠ E.pool_free ∧ e ≠ E.pool_share ∧ e ≠ E.sequence_activate ∧ e ≠ E.sequence_reserve

/-- Such an entry is never locked (R39, R137). -/
theorem RequestEntry.unlocked {e : Ent} (he : RequestEntry e) (s : State) (n i : Nat) : locked s e n i = false := by
  simp [locked, noPort, he.portless, he.writeOnly]

theorem RequestEntry.writeValue_rule {s : State} {r : Req} {w : Who} {e : Ent} {n k h v : Nat} {x : Nat × State} (he : RequestEntry e)
    (a : Accepts s r w e n k h v) (hx : writeHook s w e n k (hIdx h) v = some x) :
    writeValue s w e n k (hIdx h) v = (x.1, keepTouched s x.2) :=
  writeValue_hook a.still (by simp [he.writeOnly]) (by simp [he.uncounted]) (he.unlocked s n _) hx

/-- A request that its rule takes leaves what the rule gives, and answers 0. -/
theorem RequestEntry.taken {s u : State} {r : Req} {w : Who} {e : Ent} {n k h v : Nat} (he : RequestEntry e)
    (a : Accepts s r w e n k h v) (hu : writeHook s w e n k (hIdx h) v = some (0, u)) :
    complete s (writeCmd s r e n k h v) = .next (wrote s u r e n k h v) :=
  complete_eq (writeCmd_accepted a he.plain (managed_entry a he.unmanaged) (he.writeValue_rule a hu))

/-- A request that its rule refuses leaves the state, and answers the rule's status. -/
theorem RequestEntry.refused {s : State} {r : Req} {w : Who} {e : Ent} {n k h v st : Nat} (he : RequestEntry e)
    (a : Accepts s r w e n k h v) (h0 : st ≠ 0) (hwait : st ≠ waitCode)
    (hst : writeHook s w e n k (hIdx h) v = some (st, s)) :
    complete s (writeCmd s r e n k h v) = .next (after s (answered s r 0x82 (writeIt e n k h v) st)) :=
  write_refused a.serves h0 hwait (reachesManager_other (managed_entry a he.unmanaged))
    ((writeItem_accepts a he.plain).trans (he.writeValue_rule a hst))

theorem requestEntry_ft_local_set : RequestEntry E.ft_local_set := by constructor <;> decide

theorem requestEntry_ft_launch_at : RequestEntry E.ft_launch_at := by constructor <;> decide

theorem requestEntry_ft_launch_cancel : RequestEntry E.ft_launch_cancel := by constructor <;> decide

theorem requestEntry_weir_start : RequestEntry E.weir_start := by constructor <;> decide

theorem requestEntry_gate_start : RequestEntry E.gate_start := by constructor <;> decide

theorem requestEntry_fw_activate : RequestEntry E.fw_activate := by constructor <;> decide

theorem requestEntry_rack_reset_at : RequestEntry E.rack_reset_at := by constructor <;> decide

/-- The rule of `ft.local_set`, by evaluating which chapter's rules name the entry; those below likewise. -/
theorem writeHook_ft_local_set (s : State) (w : Who) (n k i v : Nat) :
    writeHook s w E.ft_local_set n k i v = some (localSet s v) := rfl

theorem writeHook_ft_launch_at (s : State) (w : Who) (n k i v : Nat) :
    writeHook s w E.ft_launch_at n k i v = some (launchAt s v) := rfl

theorem writeHook_ft_launch_cancel (s : State) (w : Who) (n k i v : Nat) :
    writeHook s w E.ft_launch_cancel n k i v = some (onOne v s (0, launchCancel s)) := rfl

theorem writeHook_weir_start (s : State) (w : Who) (n k i v : Nat) :
    writeHook s w E.weir_start n k i v = some (weirStart s v) := rfl

theorem writeHook_gate_start (s : State) (w : Who) (n k i v : Nat) :
    writeHook s w E.gate_start n k i v = some (gateStart s i v) := rfl

theorem writeHook_fw_activate (s : State) (w : Who) (n k i v : Nat) :
    writeHook s w E.fw_activate n k i v = some (fwActivate s v) := rfl

theorem writeHook_rack_reset_at (s : State) (w : Who) (n k i v : Nat) :
    writeHook s w E.rack_reset_at n k i v = some (rackResetAt s v) := rfl

/-! ### A named FT that has passed or is near (R77) -/

/-- The status of an FT that has passed, or else is near. -/
def earlyStatus (s : State) (v : Nat) : Nat := if v ≤ s.ft then 0x0A else 0x06

theorem earlyStatus_cases (s : State) (v : Nat) : earlyStatus s v = 0x0A ∨ earlyStatus s v = 0x06 := by
  unfold earlyStatus
  split <;> simp

theorem earlyStatus_ne_zero (s : State) (v : Nat) : earlyStatus s v ≠ 0 := by
  rcases earlyStatus_cases s v with h | h <;> simp [h]

theorem earlyStatus_ne_waitCode (s : State) (v : Nat) : earlyStatus s v ≠ waitCode := by
  rcases earlyStatus_cases s v with h | h <;> simp [h, waitCode]

theorem ftTest_early {s : State} {v : Nat} (h : v < s.ft + 10000) : s.ftTest v = earlyStatus s v := by
  simp [State.ftTest, earlyStatus, h]

/-- Such an FT is judged before the state that the request needs (R55). -/
theorem ftTestIn_early {s : State} {v : Nat} (h : v < s.ft + 10000) (wrong : Bool) : s.ftTestIn v wrong = earlyStatus s v := by
  simp only [State.ftTestIn, ftTest_early h]
  exact if_pos (earlyStatus_cases s v)

theorem launchAt_early {s : State} {v : Nat} (h : v < s.ft + 10000) : launchAt s v = (earlyStatus s v, s) := by
  have htest : s.dropLaunch.ftTestIn v (s.launches.any fun r => r.target = v) = earlyStatus s v :=
    ftTestIn_early (s := s.dropLaunch) h _
  simp only [launchAt, htest]
  exact if_pos (earlyStatus_ne_zero s v)

theorem weirStart_early {s : State} {v : Nat} (h : v < s.ft + 10000) : weirStart s v = (earlyStatus s v, s) := by
  simp only [weirStart, ftTestIn_early h]
  exact if_pos (earlyStatus_ne_zero s v)

theorem gateStart_early {s : State} {v : Nat} (slot : Nat) (h : v < s.ft + 10000) : gateStart s slot v = (earlyStatus s v, s) := by
  simp only [gateStart, ftTestIn_early h]
  exact if_pos (earlyStatus_ne_zero s v)

theorem fwActivate_early {s : State} {v : Nat} (h : v < s.ft + 10000) : fwActivate s v = (earlyStatus s v, s) := by
  simp only [fwActivate, ftTestIn_early h]
  exact if_pos (earlyStatus_ne_zero s v)

theorem rackResetAt_early {s : State} {v : Nat} (h : v < s.ft + 10000) : rackResetAt s v = (earlyStatus s v, s) := by
  have htest : (s.unschedule .rackReset).ftTest v = earlyStatus s v := ftTest_early (s := s.unschedule .rackReset) h
  simp only [rackResetAt, htest]
  exact if_pos (earlyStatus_ne_zero s v)

/-- Settles O16: each entry's rule answers `earlyStatus`, and a refused request changes nothing (`RequestEntry.refused`). -/
theorem passedTimeRefused : Obligations.PassedTimeRefused := by
  intro s r w h v st hv hst
  obtain rfl : st = earlyStatus s v := hst
  have h0 := earlyStatus_ne_zero s v
  have hwait := earlyStatus_ne_waitCode s v
  refine ⟨fun a => requestEntry_ft_launch_at.refused a h0 hwait ?_, fun a => requestEntry_weir_start.refused a h0 hwait ?_,
    fun a => requestEntry_gate_start.refused a h0 hwait ?_, fun a => requestEntry_fw_activate.refused a h0 hwait ?_,
    fun a => requestEntry_rack_reset_at.refused a h0 hwait ?_⟩
  · rw [writeHook_ft_launch_at, launchAt_early hv]
  · rw [writeHook_weir_start, weirStart_early hv]
  · rw [writeHook_gate_start, gateStart_early _ hv]
  · rw [writeHook_fw_activate, fwActivate_early hv]
  · rw [writeHook_rack_reset_at, rackResetAt_early hv]

/-! ### The order of pending actions (R78, R80) -/

theorem insertBy_perm {α : Type} (lt : α → α → Bool) (a : α) (l : List α) : (insertBy lt a l).Perm (a :: l) := by
  induction l with
  | nil => exact .refl _
  | cons b l ih =>
    unfold insertBy
    split
    · exact .refl _
    · exact (ih.cons b).trans (.swap a b l)

theorem Act.before_iff {a b : Act} : a.before b = true ↔
    a.ft < b.ft ∨ (a.ft = b.ft ∧ (a.kind.rank < b.kind.rank ∨ (a.kind.rank = b.kind.rank ∧ a.seq < b.seq))) := by
  simp [Act.before]

theorem Act.before_self (a : Act) : a.before a = false := by
  simp [Act.before]

/-- What does not fire before b does not fire before what fires before b. -/
theorem Act.not_before_of_before {a b c : Act} (hab : a.before b = true) (hcb : c.before b = false) : c.before a = false := by
  rw [Act.before_iff] at hab
  rw [← Bool.not_eq_true, Act.before_iff] at hcb ⊢
  omega

/-- Inserting an action keeps the firing order. -/
theorem ordered_insertBy (a : Act) {l : List Act} (h : Ordered l) : Ordered (insertBy Act.before a l) := by
  induction l with
  | nil => exact List.pairwise_singleton _ a
  | cons b l ih =>
    obtain ⟨hb, hl⟩ := List.pairwise_cons.1 h
    unfold insertBy
    split
    next hab =>
      refine List.pairwise_cons.2 ⟨fun c hc => Act.not_before_of_before hab ?_, h⟩
      rcases List.mem_cons.1 hc with rfl | hc
      · exact c.before_self
      · exact hb c hc
    next hab =>
      refine List.pairwise_cons.2 ⟨fun c hc => ?_, ih hl⟩
      rcases List.mem_cons.1 ((insertBy_perm _ a l).mem_iff.1 hc) with rfl | hc
      · exact Bool.eq_false_iff.2 hab
      · exact hb c hc

theorem schedule_perm (s : State) (ft : Nat) (k : ActKind) : (s.schedule ft k).sched.Perm (⟨ft, s.schedSeq, k⟩ :: s.sched) :=
  insertBy_perm _ _ _

/-- Receipt numbers stay below the next one. -/
theorem schedule_seq_lt {s : State} (ft : Nat) (k : ActKind) (h : ∀ a ∈ s.sched, a.seq < s.schedSeq) :
    ∀ a ∈ (s.schedule ft k).sched, a.seq < (s.schedule ft k).schedSeq := by
  intro a ha
  rcases List.mem_cons.1 ((schedule_perm s ft k).mem_iff.1 ha) with rfl | ha
  · exact Nat.lt_succ_self _
  · exact Nat.lt_succ_of_lt (h a ha)

theorem mem_unschedule {s : State} {k : ActKind} {a : Act} : a ∈ (s.unschedule k).sched ↔ a ∈ s.sched ∧ a.kind ≠ k := by
  simp [State.unschedule]

/-- Settles O17: an insertion keeps the order (`ordered_insertBy`), and so does a part of the list. -/
theorem scheduleKeepsOrder : Obligations.ScheduleKeepsOrder := fun s ft k hord hseq =>
  ⟨ordered_insertBy _ hord, hord.filter _, schedule_perm s ft k, schedule_seq_lt ft k hseq, fun _ => mem_unschedule⟩

/-! ### Ticks without a correction (R65, R66) -/

/-- A tick lasts 4 edges where the accumulator is empty, and 3 where it is not. -/
theorem tickEdges_of_lt {acc : Nat} (h : acc < 8) : tickEdges acc = if acc = 0 then 4 else 3 := by
  unfold tickEdges ceilDiv
  split <;> omega

theorem tickTime_uncorrected (sync : Nat) {t : TimeSt} (h : t.slew = 0) :
    tickTime sync t = { t with
      ft := (t.ft + 1) % 2 ^ 64
      tickNo := t.tickNo + 1
      acc := t.acc + 8 * tickEdges t.acc - 25
      edges := t.edges + tickEdges t.acc } := by
  simp [tickTime, h]

/-- u is t after n ticks without a correction. The accumulator counts in 1/25 ns, an edge is 8 of them and a tick 25: so edges, ticks
and what the accumulator holds balance, and modulo 8 each tick takes 1 from the accumulator. -/
structure Ticked (t : TimeSt) (n : Nat) (u : TimeSt) : Prop where
  slew : u.slew = 0
  small : u.acc < 8
  acc : (u.acc + n) % 8 = t.acc % 8
  edges : 8 * u.edges + t.acc = 8 * t.edges + 25 * n + u.acc
  ft : u.ft % 2 ^ 64 = (t.ft + n) % 2 ^ 64

theorem Ticked.zero {t : TimeSt} (hs : t.slew = 0) (ha : t.acc < 8) : Ticked t 0 t := ⟨hs, ha, rfl, by omega, rfl⟩

theorem Ticked.tick {t u : TimeSt} {n : Nat} (sync : Nat) (h : Ticked t n u) : Ticked t (n + 1) (tickTime sync u) := by
  obtain ⟨hs, hsmall, hacc, hedges, hft⟩ := h
  rw [tickTime_uncorrected sync hs, tickEdges_of_lt hsmall]
  refine ⟨hs, ?_, ?_, ?_, ?_⟩ <;> dsimp only
  · split <;> omega
  · split <;> omega
  · split <;> omega
  · omega

/-- By induction on the ticks. -/
theorem ticked_iterate (sync n : Nat) {t : TimeSt} (hs : t.slew = 0) (ha : t.acc < 8) : Ticked t n ((tickTime sync)^[n] t) := by
  induction n with
  | zero => exact .zero hs ha
  | succ n ih =>
    rw [Function.iterate_succ_apply']
    exact ih.tick sync

/-- FT after a tick is below 2^64. -/
theorem tickTime_ft_mod (sync : Nat) (t : TimeSt) : (tickTime sync t).ft % 2 ^ 64 = (tickTime sync t).ft := Nat.mod_mod _ _

theorem ticked_iterate_ft (sync n : Nat) {t : TimeSt} (hs : t.slew = 0) (ha : t.acc < 8) :
    ((tickTime sync)^[n + 1] t).ft = (t.ft + (n + 1)) % 2 ^ 64 := by
  have h := (ticked_iterate sync (n + 1) hs ha).ft
  rw [Function.iterate_succ_apply', tickTime_ft_mod] at h
  rw [Function.iterate_succ_apply', h]

/-! ### What a tick leaves unchanged (R65, R94, R97) -/

theorem SendsOnly.ite {c : Prop} [Decidable c] {s t u : State} (ht : SendsOnly s t) (hu : SendsOnly s u) :
    SendsOnly s (if c then t else u) := by
  split <;> assumption

theorem SendsOnly.ft {s t : State} (h : SendsOnly s t) : t.ft = s.ft := by
  obtain ⟨m, o, rfl⟩ := h
  rfl

theorem SendsOnly.nearEnd {s t : State} (h : SendsOnly s t) (p : Nat) : mrNearEnd t p = mrNearEnd s p := by
  simp only [mrNearEnd, h.get]

/-- Frames put one after the other on a port that is not in near-end loopback change no entry. -/
theorem mrPuts_only (edge : State → Nat) (p : Nat) (l : List MrFrame) {s : State} (h : mrNearEnd s p = false) :
    SendsOnly s (l.foldl (fun st f => mrPut st p f (edge st)) s) := by
  induction l generalizing s with
  | nil => exact .refl s
  | cons f l ih =>
    have hput := mrPut_only s p f (edge s) h
    exact hput.trans (ih ((hput.nearEnd p).trans h))

theorem mrMark_only (s : State) (p : Nat) : SendsOnly s (mrMark s p) := by
  unfold mrMark
  extract_lets marked held emptied
  have hmark : SendsOnly s marked := by
    dsimp only [marked]
    split
    next h => exact mrPut_only s p _ _ (mrNearEnd_of_carries h.2.1)
    next => exact .refl s
  have hheld : SendsOnly marked emptied := .ite (.refl _) (mrMod_only _ _ _)
  refine (hmark.trans hheld).trans ?_
  split
  next h => exact mrPuts_only _ p held (mrNearEnd_of_carries (Bool.and_eq_true_iff.1 h).1)
  next => exact .refl _

theorem mrTick_only (s : State) (p : Nat) : SendsOnly s (mrTick s p) := by
  unfold mrTick
  extract_lets stage tx counted n
  have hcount : SendsOnly s counted := mrMod_only s p _
  refine .ite (hcount.trans ?_) (.refl s)
  refine .ite (emit_only _ _) (.ite (emit_only _ _) ?_)
  split
  next h =>
    have hstage : counted.get (E.millrace_state.n p) = 4 := h.1
    exact mrSend_only _ p _ _ (by simp [mrNearEnd, hstage])
  next => exact .refl _

/-- What a tick does once FT has moved: the marks of this FT leave, and the line patterns go on (R94, R97). -/
def tickSends (s : State) : State :=
  (List.range 8).foldl mrTick (if s.ft % 1048576 = 0 then (List.range 8).foldl mrMark s else s)

theorem tickSends_only (s : State) : SendsOnly s (tickSends s) :=
  .trans (.ite (.fold _ _ mrMark_only s) (.refl s)) (.fold _ _ mrTick_only _)

/-- The record of a start as a tick leaves it: a start in progress has lasted one ns more. -/
def bootTick (s : State) : BootSt :=
  if s.boot.hold || s.get E.boot_stage.s == 0 then s.boot else { s.boot with ns := s.boot.ns + 1, stageNs := s.boot.stageNs + 1 }

/-- Without a value to load FT advances by one tick (R65). -/
theorem ftTick_advances {s : State} (h : s.time.loadAt = none) :
    ftTick s = tickSends { s with boot := bootTick s, time := tickTime (s.get E.ft_sync_state.s) s.time } := by
  simp only [ftTick, h]
  rfl

/-- A value written to `ft.local_set` is loaded on the tick (R74). -/
theorem ftTick_takes {s : State} {v : Nat} (h : s.time.loadAt = some v) :
    ftTick s = tickSends (loadFt { s with boot := bootTick s, time := { s.time with loadAt := none } } v 0 true) := by
  simp only [ftTick, h]
  rfl

/-- Without a load a tick moves FT, the record of a start, the Millrace ports and what leaves the block, and nothing else. -/
theorem ftTick_frame {s : State} (h : s.time.loadAt = none) : ∃ b m o,
    ftTick s = { s with boot := b, mr := m, out := o, time := tickTime (s.get E.ft_sync_state.s) s.time } := by
  obtain ⟨m, o, hsends⟩ := tickSends_only { s with boot := bootTick s, time := tickTime (s.get E.ft_sync_state.s) s.time }
  exact ⟨bootTick s, m, o, (ftTick_advances h).trans hsends⟩

/-- A tick on which no lock-step start is due is the tick alone. -/
theorem exec_ftTick_quiet {s : State} (h : (ftTick s).isDue .lockstep = false) : exec .ftTick s = .next (after s (ftTick s)) :=
  complete_eq (if_neg (by simp [h]))

/-- Settles O19: `Ticked` after one tick and after 8, and the frame of `ftTick_frame`. -/
theorem ticksFollowClock : Obligations.TicksFollowClock := by
  refine ⟨fun sync t _ hacc hslew => ?_, fun s t hidle hload hquiet ht => ?_⟩
  · obtain ⟨-, hsmall, -, hedges, -⟩ := ticked_iterate sync 1 hslew hacc
    obtain ⟨-, hsmall8, hacc8, hedges8, -⟩ := ticked_iterate sync 8 hslew hacc
    have hone : (tickTime sync)^[1] t = tickTime sync t := rfl
    rw [hone] at hsmall hedges
    exact ⟨by omega, hsmall, rfl, ticked_iterate_ft sync 7 hslew hacc, by omega, by omega⟩
  · obtain ⟨b, m, o, htick⟩ := ftTick_frame hload
    have htodo : (ftTick s).todo = [] := by rw [htick]; exact hidle
    rw [exec_ftTick_quiet hquiet, after_idle htodo, htick] at ht
    cases ht
    exact ⟨rfl, rfl, rfl, rfl, rfl⟩

/-! ### The commands of fabric time (R65, R71 to R74, R84, R86) -/

theorem ftFlag_sameHandles (s : State) (b : Nat) : SameHandles s (s.ftFlag b) :=
  (stick_sameHandles s _ _).trans (raise_sameHandles _ _)

/-- A load sets FT to the value; what it counts and flags does not move it (R71, R74). -/
theorem loadFt_ft (s : State) (v acc : Nat) (flag : Bool) : (loadFt s v acc flag).ft = v % 2 ^ 64 := by
  unfold loadFt
  extract_lets old late time qs loaded counted flagged lates lated
  have h1 : SameHandles loaded counted := inc_sameHandles _ _ _
  have h2 : SameHandles counted flagged := .ite (ftFlag_sameHandles _ _) (.refl _)
  have h3 : SameHandles flagged lates := inc_sameHandles _ _ _
  have h4 : SameHandles lates lated := .ite (.refl _) (ftFlag_sameHandles _ _)
  obtain ⟨-, htime⟩ := (((h1.trans h2).trans h3).trans h4).trans (later_sameHandles lated _)
  rw [State.ft, htime]

/-- The tick after a write of `ft.local_set` gives FT its value (R74). -/
theorem ftTick_loads {s : State} {v : Nat} (h : s.time.loadAt = some v) (hv : v < 2 ^ 64) : (ftTick s).ft = v := by
  rw [ftTick_takes h, (tickSends_only _).ft, loadFt_ft, Nat.mod_eq_of_lt hv]

theorem timeMark_taken {s : State} {p v : Nat} {x : MrRx} (h : FrameTaken s p x (.mark v))
    (hup : s.get (E.millrace_role.n p) = 1) : timeMark s p x v = takeMark (heardState s p x) p v x.edge := by
  rw [timeMark, mrGate_taken h _ (by simp [hup])]

/-- An FT that R77 lets pass schedules the local launch, in place of the one that waits (R86). -/
theorem launchAt_schedules {s : State} {v : Nat} (htest : s.dropLaunch.ftTest v = 0)
    (hfree : s.launches.any (fun r => r.target = v) = false) :
    launchAt s v = (0, (s.dropLaunch.schedule v .launch).set E.ft_launch_pending.s v) := by
  simp [launchAt, State.ftTestIn, htest, hfree]

theorem launchCancel_drops {s : State} {t : Nat} (h : s.nextLaunch = some t) :
    launchCancel s = s.dropLaunch.set E.ft_launch_pending.s 0 := by
  simp [launchCancel, h]

/-- A due armed launch takes its record, steps the step counter, and starts what is bound to it (R84). -/
theorem launchFire_armed {s : State} {x : LaunchRec} (hdue : s.isDue .launch = true)
    (hx : s.launches.find? (fun r => r.armed && decide (some r.target = s.dueAct.map (·.ft))) = some x) :
    launchFire s = ({ s with
      launches := s.launches.filter (fun r => r.seq ≠ x.seq)
      time := { s.time with step := (s.time.step + 1) % 2 ^ 32 } }).later .launch := by
  simp only [launchFire, hdue, hx, if_true]

/-- Settles O28, a lemma for each clause. -/
theorem timeCompletes : Obligations.TimeCompletes := by
  intro s
  refine ⟨exec_ftTick_quiet, fun h => complete_eq (if_pos h), ?_, ?_, ?_, ?_, ?_, ?_, ?_, ?_⟩
  · exact fun p v x h hup => complete_eq (timeMark_taken h hup)
  · exact fun p hsrc hp hsync => complete_eq (if_pos ⟨hsrc, hp, hsync⟩)
  · exact fun hsync hlimit => complete_eq (if_pos ⟨hsync, hlimit⟩)
  · intro r w v a hsync
    refine requestEntry_ft_local_set.taken a ?_
    rw [writeHook_ft_local_set, localSet, if_pos hsync]
  · exact fun v hload _ hv => ftTick_loads hload hv
  · intro r w v a htest hfree
    refine requestEntry_ft_launch_at.taken a ?_
    rw [writeHook_ft_launch_at, launchAt_schedules htest hfree]
  · intro r w v t a hv hnext
    refine requestEntry_ft_launch_cancel.taken a ?_
    rw [writeHook_ft_launch_cancel, onOne, if_neg (by omega), launchCancel_drops hnext]
  · exact fun x hdue hx => complete_eq (congrArg State.lockFollow (launchFire_armed hdue hx))

end Sys2Proof.Machine

/-!
PROOFS of Millrace links (spec/04_millrace_links.md): what the commands of sleep and wake leave unchanged (R95, R96, R100 to R102),
bring-up, bubbles and loss of lock (R96 to R99, R103), launch, notice and barrier frames (R105 to R107, R110), and the writes of a
port's entries (R90, R100 to R102).
-/

namespace Sys2Proof.Machine

/-! ### What moves with a link's sleep state (R95, R96, R100 to R102) -/

/-- The places that sleep and wake of Millrace port p may change: its two states, and its counts of dropped frames, wrong symbols and
bubbles. -/
def sleepKeys (p : Nat) : List Nat :=
  [(E.millrace_rx_state.n p).key, (E.millrace_tx_state.n p).key, (E.millrace_frame_drops.n p).key,
    (E.millrace_code_errors.n p).key, (E.millrace_bubbles.n p).key]

/-- From s to t at most the sleep of port p has moved: no work was left, and every place but those of `sleepKeys` reads as before. -/
structure SleepKeeps (p : Nat) (s t : State) : Prop where
  todo : t.todo = s.todo
  mem : t.mem = s.mem
  time : t.time = s.time
  hs : t.hs = s.hs
  launches : t.launches = s.launches
  sched : t.sched = s.sched
  sw : t.sw = s.sw
  get : ∀ l : Loc, l.key ∉ sleepKeys p → t.get l = s.get l

theorem SleepKeeps.refl (p : Nat) (s : State) : SleepKeeps p s s := ⟨rfl, rfl, rfl, rfl, rfl, rfl, rfl, fun _ _ => rfl⟩

theorem SleepKeeps.trans {p : Nat} {s t u : State} (h : SleepKeeps p s t) (g : SleepKeeps p t u) : SleepKeeps p s u :=
  ⟨g.todo.trans h.todo, g.mem.trans h.mem, g.time.trans h.time, g.hs.trans h.hs, g.launches.trans h.launches,
    g.sched.trans h.sched, g.sw.trans h.sw, fun l hl => (g.get l hl).trans (h.get l hl)⟩

theorem SleepKeeps.ite {p : Nat} {c : Prop} [Decidable c] {s t u : State} (ht : SleepKeeps p s t) (hu : SleepKeeps p s u) :
    SleepKeeps p s (if c then t else u) := by
  split <;> assumption

theorem SleepKeeps.fold {p : Nat} {α : Type} {f : State → α → State} (h : ∀ s a, SleepKeeps p s (f s a)) (l : List α) (s : State) :
    SleepKeeps p s (l.foldl f s) := by
  induction l generalizing s with
  | nil => exact .refl p s
  | cons a l ih => exact (h s a).trans (ih (f s a))

/-- What only sends keeps every entry. -/
theorem SendsOnly.sleepKeeps {s t : State} (h : SendsOnly s t) (p : Nat) : SleepKeeps p s t := by
  obtain ⟨m, o, rfl⟩ := h
  exact ⟨rfl, rfl, rfl, rfl, rfl, rfl, rfl, fun _ _ => rfl⟩

theorem set_sleepKeeps {p : Nat} {l : Loc} (h : l.key ∈ sleepKeys p) (s : State) (v : Nat) : SleepKeeps p s (s.set l v) :=
  ⟨rfl, rfl, rfl, rfl, rfl, rfl, rfl, fun _ hm => s.get_set_ne _ _ v (ne_of_mem_of_not_mem h hm).symm⟩

theorem inc_sleepKeeps {p : Nat} {l : Loc} (h : l.key ∈ sleepKeys p) (s : State) (n : Nat) : SleepKeeps p s (s.inc l n) :=
  ⟨s.inc_todo l n, s.inc_mem l n, s.inc_time l n, s.inc_hs l n, s.inc_launches l n, s.inc_sched l n, s.inc_sw l n,
    fun _ hm => s.get_inc_ne _ _ n (ne_of_mem_of_not_mem h hm).symm⟩

theorem rxState_mem_sleepKeys (p : Nat) : (E.millrace_rx_state.n p).key ∈ sleepKeys p := by simp [sleepKeys]

theorem txState_mem_sleepKeys (p : Nat) : (E.millrace_tx_state.n p).key ∈ sleepKeys p := by simp [sleepKeys]

theorem frameDrops_mem_sleepKeys (p : Nat) : (E.millrace_frame_drops.n p).key ∈ sleepKeys p := by simp [sleepKeys]

theorem codeErrors_mem_sleepKeys (p : Nat) : (E.millrace_code_errors.n p).key ∈ sleepKeys p := by simp [sleepKeys]

theorem bubbles_mem_sleepKeys (p : Nat) : (E.millrace_bubbles.n p).key ∈ sleepKeys p := by simp [sleepKeys]

/-- A wrong symbol counts, and may begin a bubble, where no test pattern runs (R96). -/
theorem codeError_sleepKeeps {s : State} {p : Nat} (h : s.get (E.millrace_prbs.n p) = 0) : SleepKeeps p s (codeError s p) := by
  unfold codeError
  rw [if_neg (by omega)]
  refine .ite (.refl p s) ?_
  have hcount := inc_sleepKeeps (codeErrors_mem_sleepKeys p) s 1
  refine .ite hcount (hcount.trans ?_)
  exact ((mrMod_only _ p _).sleepKeeps p).trans (inc_sleepKeeps (bubbles_mem_sleepKeys p) _ 1)

/-- A port that judges a frame moves its counts alone (R95, R96). -/
theorem mrGate_sleepKeeps (s : State) (p : Nat) (x : MrRx) (f : MrFrame) (d : Bool) : SleepKeeps p s (mrGate s p x f d).2 := by
  have hrd : ∀ rd, SleepKeeps p s (mrRd s p rd) := fun rd => (mrMod_only s p _).sleepKeeps p
  have hdrop : ∀ rd, SleepKeeps p s ((mrRd s p rd).inc (E.millrace_frame_drops.n p) 1) := fun rd =>
    (hrd rd).trans (inc_sleepKeeps (frameDrops_mem_sleepKeys p) _ 1)
  unfold mrGate
  split
  · exact (emit_only s _).sleepKeeps p
  dsimp only
  split
  · exact .refl p s
  next hlistens =>
    have hprbs : s.get (E.millrace_prbs.n p) = 0 := by
      by_contra hne
      exact hlistens (.inr (.inr (.inl hne)))
    split
    · exact codeError_sleepKeeps hprbs
    · exact hdrop _
    · split
      · exact hrd _
      · exact hdrop _

/-- A frame other than a wake frame that returns to its sender moves the receiver's state alone (R100). -/
theorem mrSelf_sleepKeeps (s : State) (p : Nat) {f : MrFrame} (hf : f ≠ .wake) : SleepKeeps p s (mrSelf s p f) := by
  unfold mrSelf
  refine .ite (set_sleepKeeps (rxState_mem_sleepKeys p) s 2) ?_
  rw [if_neg fun h => hf h.1]
  exact .refl p s

theorem mrPut_sleepKeeps (s : State) (p : Nat) {f : MrFrame} (start : Nat) (hf : f ≠ .wake) : SleepKeeps p s (mrPut s p f start) := by
  unfold mrPut
  extract_lets r coded
  have hcoded : SleepKeeps p s coded := (mrMod_only s p _).sleepKeeps p
  have hsent : SleepKeeps p coded (coded.emit (.millrace p f start r.1)) := (emit_only _ _).sleepKeeps p
  refine hcoded.trans (.ite ?_ hsent)
  exact SleepKeeps.trans (.ite (.refl p coded) hsent) (mrSelf_sleepKeeps _ p hf)

theorem mrSend_sleepKeeps (s : State) (p lag : Nat) {f : MrFrame} (hf : f ≠ .wake) : SleepKeeps p s (mrSend s p lag f) := by
  unfold mrSend
  refine .ite (.refl p s) (.ite ((mrMod_only s p _).sleepKeeps p) (mrPut_sleepKeeps s p _ hf))

theorem mrSetLine_only (s : State) (p : Nat) (l : MrLine) : SendsOnly s (mrSetLine s p l) :=
  (mrMod_only s p _).trans (emit_only _ _)

/-- Two sleep frames and the state Sleep (R101). -/
theorem txFallAsleep_sleepKeeps (s : State) (p : Nat) : SleepKeeps p s (txFallAsleep s p) := by
  have hframe : ∀ t, SleepKeeps p t (mrSend t p 0 .sleep) := fun t => mrSend_sleepKeeps t p 0 (by decide)
  exact (((hframe s).trans (hframe _)).trans (set_sleepKeeps (txState_mem_sleepKeys p) _ 2)).trans
    ((mrSetLine_only _ p _).sleepKeeps p)

/-- Notices that go out change no entry but the receiver's state (R100, R106). -/
theorem missedNotices_sleepKeeps (s : State) (p : Nat) (l : List MissedNote) :
    SleepKeeps p s (l.foldl (fun st n => mrSend st p 0 (.missed n.payload)) s) := by
  have hnotice : ∀ (t : State) (n : MissedNote), SleepKeeps p t (mrSend t p 0 (.missed n.payload)) := fun t _ =>
    mrSend_sleepKeeps t p 0 nofun
  exact .fold hnotice l s

theorem sendNotes_sleepKeeps (s : State) (p : Nat) : SleepKeeps p s (sendNotes s p) := by
  unfold sendNotes
  exact (missedNotices_sleepKeeps s p _).trans ((mrMod_only _ p _).sleepKeeps p)

theorem sleepFrame_sleepKeeps (s : State) (p : Nat) (x : MrRx) : SleepKeeps p s (sleepFrame s p x) := by
  have hgate := mrGate_sleepKeeps s p x .sleep true
  unfold sleepFrame
  split
  next t heq =>
    rw [heq] at hgate
    exact hgate.trans (set_sleepKeeps (rxState_mem_sleepKeys p) t 2)
  next t heq =>
    rw [heq] at hgate
    exact hgate

theorem receiveWake_sleepKeeps (s : State) (p : Nat) : SleepKeeps p s (receiveWake s p) :=
  .ite (set_sleepKeeps (rxState_mem_sleepKeys p) s 1) (.refl p s)

/-- A transmit wake ends: the state Active, the notices that waited, and sleep where it still stands written (R102, R106). -/
theorem txWakeDone_sleepKeeps (s : State) (p : Nat) : SleepKeeps p s (txWakeDone s p) := by
  unfold txWakeDone
  refine .ite ?_ (.refl p s)
  extract_lets awake
  have hawake : SleepKeeps p s awake :=
    ((set_sleepKeeps (txState_mem_sleepKeys p) s 1).trans ((mrSetLine_only _ p _).sleepKeeps p)).trans (sendNotes_sleepKeeps _ p)
  exact hawake.trans (.ite (txFallAsleep_sleepKeeps awake p) (.refl p awake))

/-- Settles O26: each of the three effects is a `SleepKeeps`, and as it leaves no work it is the whole command. -/
theorem SleepKeeps.sleepFrame : Obligations.SleepFrame := by
  intro s t p rx hidle hexec
  have hcommand : ∃ u, SleepKeeps p s u ∧ complete s u = .next t := by
    rcases hexec with h | h | h
    · exact ⟨_, sleepFrame_sleepKeeps s p rx, h⟩
    · exact ⟨_, receiveWake_sleepKeeps s p, h⟩
    · exact ⟨_, txWakeDone_sleepKeeps s p, h⟩
  obtain ⟨u, hu, ht⟩ := hcommand
  have ht : .next (after s u) = Host.Outcome.next t := ht
  rw [after_idle (hu.todo.trans hidle)] at ht
  cases ht
  exact ⟨hu.mem, hu.time, hu.hs, hu.launches, hu.sched, hu.sw, hu.get⟩

/-! ### Frames that a port hears (R95, R98, R99, R105, R107) -/

theorem heardState_only (s : State) (p : Nat) (x : MrRx) : SendsOnly s (heardState s p x) := by
  unfold heardState
  split
  · exact mrMod_only s p _
  · exact .refl s

/-- What a change of a port's record keeps of it, the changed record has. -/
theorem mrOf_mrMod_keeps {α : Type} {f : MrPort → MrPort} (g : MrPort → α) (h : ∀ m, g (f m) = g m) (s : State) (p : Nat) :
    g (mrOf (mrMod s p f) p) = g (mrOf s p) := by
  unfold mrMod setAt
  by_cases hp : p < s.mr.length
  · have hset : mrOf { s with mr := s.mr.set p (f (mrOf s p)) } p = f (mrOf s p) := by simp [mrOf, List.getD, hp]
    rw [hset, h]
  · rw [List.set_eq_of_length_le (by omega)]

/-- A frame that is heard leaves the delay probes that wait for their echo (R91, R99). -/
theorem heardState_probes (s : State) (p : Nat) (x : MrRx) : (mrOf (heardState s p x) p).probes = (mrOf s p).probes := by
  unfold heardState
  split
  next rd _ => exact mrOf_mrMod_keeps (f := fun m => { m with rxRd := rd }) MrPort.probes (fun _ => rfl) s p
  next => rfl

/-- A frame of an Active port from the direction that its type asks for is taken (R95, R107). -/
theorem mrGate_role {s : State} {p k : Nat} {x : MrRx} {f : MrFrame} (h : FrameTaken s p x f)
    (hrole : s.get (E.millrace_role.n p) = k) : mrGate s p x f (s.get (E.millrace_role.n p) == k) = (true, heardState s p x) :=
  mrGate_taken h _ (beq_iff_eq.2 hrole)

/-- A frame of bring-up is taken in Capability too (R97 to R99). -/
theorem mrGate_bringUp {s : State} {p : Nat} {x : MrRx} {f : MrFrame} (h : FrameHeard s p x f) (hf : bringsUp f = true) :
    mrGate s p x f true = (true, heardState s p x) := by
  rw [mrGate_heard h]
  simp [hf]

/-! ### Bring-up, bubbles and loss of lock (R96 to R99, R103) -/

theorem detectProbe_due {s : State} {p : Nat} (found : Bool) (hdetect : s.get (E.millrace_state.n p) = 1)
    (hdue : (mrOf s p).lastProbe = 0 ∨ (mrOf s p).lastProbe + 1000000 ≤ s.ft + 1) :
    detectProbe s p found =
      if found then mrStage ((mrMod s p fun m => { m with lastProbe := s.ft + 1 }).emit (.mrLine p .detect)) p 2
      else (mrMod s p fun m => { m with lastProbe := s.ft + 1 }).emit (.mrLine p .detect) :=
  if_pos ⟨hdetect, hdue⟩

theorem bringupTimeout_elapsed {s : State} {p lim : Nat} (hlim : mrStageLimit (s.get (E.millrace_state.n p)) = some lim)
    (helapsed : (mrOf s p).stageAt + lim ≤ s.ft) (hmatch : (mrOf s p).mismatch = false) :
    bringupTimeout s p = ((mrStage s p 1).inc (E.millrace_retrains.n p) 1).mrFlag p 1 := by
  simp only [bringupTimeout, hlim]
  exact if_pos ⟨helapsed, by simp [hmatch]⟩

/-- The partner that the own role requires is accepted, and its payload shown (R90, R98). -/
theorem capability_accepted {s : State} {p : Nat} {x : MrRx} {payload : List Byte} (hstage : s.get (E.millrace_state.n p) = 4)
    (hheard : FrameHeard s p x (.capability payload)) (hrole : leAt payload 1 1 = partnerRole (s.get (E.millrace_role.n p))) :
    capability s p x payload = mrTryActive (mrMod ((heardState s p x).set (E.millrace_partner.n p) (ofLe (payload.take 12))) p fun m =>
      { m with accepted := true, mismatch := false }) p := by
  have hget := (heardState_only s p x).get
  simp only [capability, mrGate_bringUp hheard rfl, hget]
  rw [if_neg (by omega), if_pos hrole]

theorem delayProbe_echoed {s : State} {p n : Nat} {x : MrRx} (turn : Nat) (hheard : FrameHeard s p x (.probe n)) :
    delayProbe s p x n turn = mrSend (heardState s p x) p 0 (.echo n turn) := by
  simp only [delayProbe, mrGate_bringUp hheard rfl]

/-- An echo closes its probe and adds the round trip to the sum (R99). -/
theorem delayEcho_counted {s : State} {p n turn : Nat} (edge : Nat) {x : MrRx} {q : Nat × Nat}
    (hstage : s.get (E.millrace_state.n p) = 4) (hheard : FrameHeard s p x (.echo n turn))
    (hprobe : (mrOf s p).probes.find? (fun q => q.1 = n) = some q) :
    delayEcho s p x n turn edge = mrTryActive (mrMod (heardState s p x) p fun m => { m with
      probes := m.probes.filter (fun q => q.1 ≠ n), echoes := m.echoes + 1,
        echoSum := m.echoSum + (edge - q.2 - turn) }) p := by
  have hget := (heardState_only s p x).get
  simp only [delayEcho, mrGate_bringUp hheard rfl, hget, heardState_probes, hprobe]
  rw [if_neg (by omega)]

/-- The first wrong symbol of a bubble counts, and the bubble begins (R96). -/
theorem codeError_begins {s : State} {p : Nat} (hprbs : s.get (E.millrace_prbs.n p) ≠ 1) (hstage : 3 ≤ s.get (E.millrace_state.n p))
    (hstill : (mrOf s p).bubble = false) :
    codeError s p = (mrMod (s.inc (E.millrace_code_errors.n p) 1) p fun m => { m with bubble := true }).inc
      (E.millrace_bubbles.n p) 1 := by
  have hcounted : (mrOf (s.inc (E.millrace_code_errors.n p) 1) p).bubble = false := by
    rw [mrOf, State.inc_mr]
    exact hstill
  unfold codeError
  rw [if_neg hprbs, if_neg (by omega)]
  exact if_neg (by simp [hcounted])

/-- Settles O30, a lemma for each clause that a test alone does not decide. -/
theorem millraceBringUpCompletes : Obligations.MillraceBringUpCompletes := by
  intro s
  refine ⟨?_, ?_, ?_, ?_, ?_, ?_, ?_, ?_, ?_, ?_, ?_, ?_, ?_⟩
  · exact fun p hdetect hdue => complete_eq (detectProbe_due true hdetect hdue)
  · exact fun p hdetect hdue => complete_eq (detectProbe_due false hdetect hdue)
  · exact fun p htrain => complete_eq (if_pos htrain)
  · rintro p _ hlock rfl
    exact complete_eq (if_pos hlock)
  · exact fun p lim hlim helapsed hmatch => complete_eq (bringupTimeout_elapsed hlim helapsed hmatch)
  · exact fun p payload x hstage hheard hrole => complete_eq (capability_accepted hstage hheard hrole)
  · exact fun p hstage hmismatch hdue => complete_eq (if_pos ⟨hstage, hmismatch, hdue⟩)
  · exact fun p n turn x hheard => complete_eq (delayProbe_echoed turn hheard)
  · exact fun p n turn edge x q hstage hheard hprobe => complete_eq (delayEcho_counted edge hstage hheard hprobe)
  · exact fun p hprbs hstage hstill => complete_eq (codeError_begins hprbs hstage hstill)
  · exact fun p pairs hbubble hpairs => complete_eq (if_pos ⟨hbubble, hpairs⟩)
  · exact fun p hbubble => complete_eq (if_pos hbubble)
  · exact fun p hstage hawake => complete_eq (if_pos ⟨hstage, hawake⟩)

/-! ### Launch, notice and barrier frames (R105 to R107, R110, R252) -/

/-- A frame of the source port is relayed to the downstream ports and then acted on (R105, R107). -/
theorem launchFrame_taken {s : State} {p : Nat} {x : MrRx} {f : MrFrame} (act : State → State) (h : FrameTaken s p x f)
    (hup : s.get (E.millrace_role.n p) = 1) (hsrc : s.get E.ft_source_port.s = p) :
    launchFrame s p x f act = act (mrSendRole (heardState s p x) 2 80 f) := by
  have hget := (heardState_only s p x).get
  simp only [launchFrame, mrGate_role h hup, hget]
  exact if_pos hsrc

/-- A frame of a downstream port is relayed to the upstream ports (R107). -/
theorem relayUp_taken {s : State} {p : Nat} {x : MrRx} {f : MrFrame} (h : FrameTaken s p x f)
    (hdown : s.get (E.millrace_role.n p) = 2) : relayUp s p x f = mrSendRole (heardState s p x) 1 80 f := by
  simp only [relayUp, mrGate_role h hdown]

theorem relayed_only (s : State) (p role lag : Nat) (x : MrRx) (f : MrFrame) :
    SendsOnly s (mrSendRole (heardState s p x) role lag f) :=
  (heardState_only s p x).trans (mrSendRole_only _ role lag f)

/-- What the rows of R105 make of the records in a state that a relay leaves, they make of them after the frame. -/
theorem launchFrame_records {s : State} {p : Nat} {x : MrRx} {f : MrFrame} {act : State → State} {l : List LaunchRec}
    (h : FrameTaken s p x f) (hup : s.get (E.millrace_role.n p) = 1) (hsrc : s.get E.ft_source_port.s = p)
    (hact : ∀ t, SendsOnly s t → act t = { t with launches := l }) :
    launchFrame s p x f act = { mrSendRole (heardState s p x) 2 80 f with launches := l } :=
  (launchFrame_taken act h hup hsrc).trans (hact _ (relayed_only s p 2 80 x f))

/-- An arm that no row of R105 turns away makes a record. -/
theorem armRows_arms {s : State} {seq target : Nat} (p : Nat) (hsync : s.get E.ft_sync_state.s = 2) (hlate : s.ft + 5000 < target)
    (hfar : target ≤ s.ft + 1000000000) (hnew : s.launches.find? (fun r => r.seq = seq) = none)
    (hkept : abortedRecently s seq = false) (hfree : s.launches.any (fun r => r.target = target) = false)
    (hlocal : s.nextLaunch ≠ some target) (hroom : s.launches.length < 8) :
    armRows p seq target s = { s with launches := s.launches ++ [⟨seq, target, false⟩] } := by
  unfold armRows
  rw [if_neg (by omega), if_neg (by omega), if_neg (by omega)]
  simp only [hnew, hkept, hfree]
  rw [if_neg (by decide), if_neg (by simp [hlocal]), if_neg (by omega)]

/-- A confirm before the deadline arms the record (R105). -/
theorem confirmRows_arms {s : State} {seq : Nat} {x : LaunchRec} (p : Nat) (hx : s.launches.find? (fun r => r.seq = seq) = some x)
    (hwaits : x.armed = false) (hearly : s.ft < x.target - 5000) :
    confirmRows p seq s =
      { s with launches := s.launches.map fun r => if r.seq = seq then { r with armed := true } else r } := by
  simp only [confirmRows, hx]
  exact if_pos (by simp [hwaits, hearly])

/-- An abort before the firing cycle clears the record (R105). -/
theorem abortRows_clears {s : State} {seq : Nat} {x : LaunchRec} (p : Nat) (hx : s.launches.find? (fun r => r.seq = seq) = some x)
    (hearly : s.ft < x.target) : abortRows p seq s = { s with launches := s.launches.filter (fun r => r.seq ≠ seq) } := by
  simp only [abortRows, hx]
  exact if_pos hearly

/-- A record that still awaits its confirm at the deadline is missed (R105). -/
theorem confirmDeadline_missed {s : State} {seq : Nat} {x : LaunchRec} (hx : s.launches.find? (fun r => r.seq = seq) = some x)
    (hwaits : x.armed = false) (hdue : x.target - 5000 ≤ s.ft) :
    confirmDeadline s seq = reportMiss { s with launches := s.launches.filter (fun r => r.seq ≠ seq) } seq 7 := by
  simp only [confirmDeadline, hx]
  exact if_pos (by simp [hwaits, hdue])

/-- The second copies go out, and sleep follows 10,000 ns later where the direction woke for them (R106). -/
theorem noteRepeat_sends {s : State} {p : Nat} (hdue : (mrOf s p).notes.filter (fun n => n.sent = 1 ∧ n.at_ + 1000 ≤ s.ft) ≠ [])
    (htx : s.get (E.millrace_tx_state.n p) = 1) :
    noteRepeat s p =
      mrMod (((mrOf s p).notes.filter fun n => n.sent = 1 ∧ n.at_ + 1000 ≤ s.ft).foldl
          (fun st n => mrSend st p 0 (.missed n.payload)) s) p fun m => { m with
        notes := m.notes.filter (fun n => ¬ (n.sent = 1 ∧ n.at_ + 1000 ≤ s.ft)),
        sleepAt := if m.noticeWake then some (s.ft + 10000) else m.sleepAt } := by
  have hft := congrArg TimeSt.ft (missedNotices_sleepKeeps s p
    ((mrOf s p).notes.filter fun n => n.sent = 1 ∧ n.at_ + 1000 ≤ s.ft)).time
  unfold noteRepeat
  extract_lets due sent
  rw [if_neg (not_or.2 ⟨hdue, not_not.2 htx⟩)]
  have hsent : sent.ft = s.ft := hft
  rw [hsent]

/-- A direction that woke for notices sleeps again while `millrace.tx_sleep` reads 1 (R106). -/
theorem noteSleepAgain_sleeps {s : State} {p t : Nat} (hat : (mrOf s p).sleepAt = some t) (hdue : t ≤ s.ft)
    (hnone : (mrOf s p).notes = []) (hsleep : s.getB (E.millrace_tx_sleep.n p) = true) (htx : s.get (E.millrace_tx_state.n p) = 1) :
    noteSleepAgain s p = txFallAsleep (mrMod s p fun m => { m with sleepAt := none, noticeWake := false }) p := by
  simp only [noteSleepAgain, hat]
  exact (if_pos ⟨hdue, hnone⟩).trans (if_pos ⟨hsleep, htx⟩)

/-- A release from the source port is relayed, and left to the barrier that its handle names (R107, R252). -/
theorem barrierReleaseFrame_live {s : State} {p h : Nat} {y : MrRx} {x : HRec} (ht : FrameTaken s p y (.release h))
    (hup : s.get (E.millrace_role.n p) = 1) (hsrc : s.get E.ft_source_port.s = p) (hlive : s.liveH 1 h = some x) :
    barrierReleaseFrame s p y h = (mrSendRole (heardState s p y) 2 80 (.release h)).later (.barrierRelease h) := by
  have hget := (heardState_only s p y).get
  have hrelayed : (mrSendRole (heardState s p y) 2 80 (.release h)).liveH 1 h = some x := by
    obtain ⟨m, o, hr⟩ := relayed_only s p 2 80 y (.release h)
    rw [hr]
    exact hlive
  simp only [barrierReleaseFrame, mrGate_role ht hup, hget, hrelayed]
  exact if_pos hsrc

/-- A digest of a peer port is left to the lock-step comparison (R110). -/
theorem digestFrame_taken {s : State} {p : Nat} {payload : List Byte} {x : MrRx} (h : FrameTaken s p x (.digest payload))
    (hpeer : s.get (E.millrace_role.n p) = 3) : digestFrame s p x payload = (heardState s p x).later (.mrDigest p payload) := by
  simp only [digestFrame, mrGate_role h hpeer]

/-- A digest that is missing two windows later is counted, and its window skipped (R110). -/
theorem digestMissing_skips {s : State} {cur : Nat} (hrun : s.get E.lockstep_state.s = 3) (hcur : s.lockWindow = some cur)
    (hdue : s.lock.compared + 3 ≤ cur) (hmiss : s.lockComplete s.lock.compared = false) :
    digestMissing s =
      ((s.mrFlag (s.get E.lockstep_peer_port.s) 7).inc E.lockstep_missing.s 1).lockForget s.lock.compared := by
  simp only [digestMissing, hrun, hcur, hmiss]
  exact if_neg (by simp; omega)

/-- Settles O29: a relay leaves what the rows of R105 ask of the state (`launchFrame_records`), and each row is a lemma. -/
theorem launchFramesComplete : Obligations.LaunchFramesComplete := by
  intro s
  refine ⟨?_, ?_, ?_, ?_, ?_, ?_, ?_, ?_, ?_, ?_, ?_, ?_⟩
  · intro p seq target x h hup hsrc hsync hlate hfar hnew hkept hfree hlocal hroom
    refine complete_eq (launchFrame_records h hup hsrc ?_)
    rintro _ ⟨m, o, rfl⟩
    exact armRows_arms p hsync hlate hfar hnew hkept hfree hlocal hroom
  · intro p seq y x h hup hsrc hx hwaits hearly
    refine complete_eq (launchFrame_records h hup hsrc ?_)
    rintro _ ⟨m, o, rfl⟩
    exact confirmRows_arms p hx hwaits hearly
  · intro p seq y x h hup hsrc hx hearly
    refine complete_eq (launchFrame_records h hup hsrc ?_)
    rintro _ ⟨m, o, rfl⟩
    exact abortRows_clears p hx hearly
  · exact fun seq x hx hwaits hdue => complete_eq (confirmDeadline_missed hx hwaits hdue)
  · exact fun seq => complete_eq rfl
  · rintro p _ rfl hdue htx
    exact complete_eq (noteRepeat_sends hdue htx)
  · exact fun p t hat hdue hnone hsleep htx => complete_eq (noteSleepAgain_sleeps hat hdue hnone hsleep htx)
  · exact fun p payload x h hdown => complete_eq (relayUp_taken h hdown)
  · exact fun p h x ht hdown => complete_eq (relayUp_taken ht hdown)
  · exact fun p h y x ht hup hsrc hlive => complete_eq (barrierReleaseFrame_live ht hup hsrc hlive)
  · exact fun p payload x h hpeer => complete_eq (digestFrame_taken h hpeer)
  · exact fun cur hrun hcur hdue hmiss => complete_eq (digestMissing_skips hrun hcur hdue hmiss)

/-! ### Writes of a port's entries (R90, R100 to R102) -/

/-- A read-write entry that is no template's, no port's and no counter, and no DOMAIN: its WRITE is decided by its own rule or the
plain one. -/
structure StaticEntry (e : Ent) : Prop where
  plain : e.ty ≠ .domain
  readWrite : e.acc = .rw
  uncounted : e.cls ≠ .counter
  portless : e.idx ≠ 0x2000 ∧ e.idx ≠ 0x4C00
  static : e.tmpl = false

/-- A value that such an entry's rule takes leaves what the rule gives, and answers 0. -/
theorem StaticEntry.taken {s u : State} {r : Req} {w : Who} {e : Ent} {n k h v : Nat} (he : StaticEntry e)
    (a : Accepts s r w e n k h v) (hu : writeHook s w e n k (hIdx h) v = some (0, u)) :
    complete s (writeCmd s r e n k h v) = .next (wrote s u r e n k h v) := by
  have hunlocked : locked s e n (hIdx h) = false := by simp [locked, noPort, he.portless, he.static]
  have hreserve : e ≠ E.sequence_reserve := by
    rintro rfl
    cases he.static
  have hvalue : writeValue s w e n k (hIdx h) v = (0, keepTouched s u) :=
    writeValue_hook a.still (by simp [he.readWrite]) (by simp [he.uncounted]) hunlocked hu
  exact complete_eq (writeCmd_accepted a he.plain (managed_readWrite a he.readWrite hreserve) hvalue)

theorem staticEntry_millrace_role : StaticEntry E.millrace_role := by constructor <;> decide

theorem staticEntry_millrace_loopback : StaticEntry E.millrace_loopback := by constructor <;> decide

theorem staticEntry_millrace_prbs : StaticEntry E.millrace_prbs := by constructor <;> decide

theorem staticEntry_millrace_tx_sleep : StaticEntry E.millrace_tx_sleep := by constructor <;> decide

theorem requestEntry_millrace_send_wake : RequestEntry E.millrace_send_wake := by constructor <;> decide

/-- The rule of `millrace.role`, by evaluating which chapter's rules name the entry; those below likewise. -/
theorem writeHook_millrace_role (s : State) (w : Who) (n k i v : Nat) :
    writeHook s w E.millrace_role n k i v = some (roleWrite s n v) := rfl

theorem writeHook_millrace_loopback (s : State) (w : Who) (n k i v : Nat) :
    writeHook s w E.millrace_loopback n k i v = some (loopbackWrite s n v) := rfl

theorem writeHook_millrace_prbs (s : State) (w : Who) (n k i v : Nat) :
    writeHook s w E.millrace_prbs n k i v = some (mrPrbsWrite s n v) := rfl

theorem writeHook_millrace_tx_sleep (s : State) (w : Who) (n k i v : Nat) :
    writeHook s w E.millrace_tx_sleep n k i v = some (0, txSleepWrite s n v) := rfl

theorem writeHook_millrace_send_wake (s : State) (w : Who) (n k i v : Nat) :
    writeHook s w E.millrace_send_wake n k i v = some (onOne v s (sendWake s n)) := rfl

/-- A role that a port may have, written off the source port: a new one starts bring-up again from Detect, or turns it Off (R90). -/
theorem roleWrite_taken {s : State} {p v : Nat} (hrole : v ≠ 1 ∨ p < 2) (hsrc : s.get E.ft_source_port.s ≠ p) :
    roleWrite s p v = (0, if s.get (E.millrace_role.n p) = v then s.set (E.millrace_role.n p) v
      else mrStage (s.set (E.millrace_role.n p) v) p (if v = 0 then 0 else 1)) := by
  unfold roleWrite
  rw [if_neg (by omega), if_neg hsrc]
  dsimp only
  split
  · rfl
  · split <;> rfl

/-- A near-end loopback puts the port in loopback; the parallel one lets its transmit lanes idle (R100). -/
theorem loopbackWrite_nearEnd {s : State} {p v : Nat} (hnear : v = 1 ∨ v = 2) (hsrc : s.get E.ft_source_port.s ≠ p)
    (hpair : lockstepOn s p = false) :
    loopbackWrite s p v = (0, if v = 1 then mrSetLine ((s.set (E.millrace_loopback.n p) v).set (E.millrace_state.n p) 6) p .off
      else (s.set (E.millrace_loopback.n p) v).set (E.millrace_state.n p) 6) := by
  unfold loopbackWrite
  rw [if_neg (by simp [hsrc, hpair])]
  dsimp only
  rw [if_neg (by omega), if_neg (by omega)]

/-- The test pattern starts or stops on a change (R100). -/
theorem mrPrbsWrite_changes {s : State} {p v : Nat} (hfree : v = 0 ∨ (s.get E.ft_source_port.s ≠ p ∧ lockstepOn s p = false))
    (hnew : s.get (E.millrace_prbs.n p) ≠ v) :
    mrPrbsWrite s p v = (0, mrSetLine (s.set (E.millrace_prbs.n p) v) p (if v = 1 then .prbs else .idle)) := by
  have hallowed : ¬ (v ≠ 0 ∧ (s.get E.ft_source_port.s = p ∨ lockstepOn s p = true)) := by
    rintro ⟨hv, hbusy⟩
    obtain ⟨hsrc, hpair⟩ := hfree.resolve_left hv
    rcases hbusy with h | h
    · exact hsrc h
    · simp [hpair] at h
  unfold mrPrbsWrite
  rw [if_neg hallowed, if_neg hnew.symm]

theorem txState_key_ne_txSleep_key (p : Nat) : (E.millrace_tx_state.n p).key ≠ (E.millrace_tx_sleep.n p).key := by
  have hplace : (0x2810 + p) * 256 + 2 ≠ (0x2800 + p) * 256 + 3 := by omega
  exact catKey_ne hplace (by decide) (by decide) (by decide) (by decide)

/-- An active direction falls asleep when 1 is written (R101). -/
theorem txSleepWrite_active {s : State} {p : Nat} (htx : s.get (E.millrace_tx_state.n p) = 1) :
    txSleepWrite s p 1 = txFallAsleep (s.set (E.millrace_tx_sleep.n p) 1) p := by
  have hkept : (s.set (E.millrace_tx_sleep.n p) 1).get (E.millrace_tx_state.n p) = 1 := by
    rw [State.get_set_ne _ _ _ _ (txState_key_ne_txSleep_key p), htx]
  unfold txSleepWrite
  dsimp only
  rw [if_pos rfl, if_pos hkept]

/-- A sleep frame puts the receiver to sleep (R101). -/
theorem sleepFrame_taken {s : State} {p : Nat} {x : MrRx} (h : FrameTaken s p x .sleep) :
    sleepFrame s p x = (heardState s p x).set (E.millrace_rx_state.n p) 2 := by
  simp only [sleepFrame, mrGate_taken h true rfl]

/-- Settles O31, a lemma for each clause that a test alone does not decide. -/
theorem millraceLinksComplete : Obligations.MillraceLinksComplete := by
  intro s
  refine ⟨?_, ?_, ?_, ?_, ?_, ?_, ?_, ?_, ?_, ?_⟩
  · exact fun p x h => complete_eq (sleepFrame_taken h)
  · exact fun p hasleep => complete_eq (if_pos hasleep)
  · rintro p _ hcarries hstill hawake rfl
    exact complete_eq (if_pos (by simp [hcarries, hstill, hawake]))
  · exact fun p htx hdue => complete_eq (if_pos ⟨htx, hdue⟩)
  · rintro p _ htx rfl
    exact complete_eq (if_pos htx)
  · intro r w p v a hrole hsrc
    refine staticEntry_millrace_role.taken a ?_
    rw [writeHook_millrace_role, roleWrite_taken hrole hsrc]
  · intro r w p v a hnear hsrc hpair
    refine staticEntry_millrace_loopback.taken a ?_
    rw [writeHook_millrace_loopback, loopbackWrite_nearEnd hnear hsrc hpair]
  · intro r w p v a hfree hnew
    refine staticEntry_millrace_prbs.taken a ?_
    rw [writeHook_millrace_prbs, mrPrbsWrite_changes hfree hnew]
  · rintro r w p _ a rfl htx
    refine staticEntry_millrace_tx_sleep.taken a ?_
    rw [writeHook_millrace_tx_sleep, txSleepWrite_active htx]
  · rintro r w p _ a rfl htx
    refine requestEntry_millrace_send_wake.taken a ?_
    rw [writeHook_millrace_send_wake]
    exact congrArg some (if_pos htx)

end Sys2Proof.Machine

/-!
PROOFS of ports and lanes (spec/05_ports_and_lanes.md): the writes of a port's entries (R129, R133, R135, R601), training and the
events of lanes (R112, R113, R116, R130, R133, R602), and the markers and frames of ports (R117 to R121).
-/

namespace Sys2Proof.Machine

/-! ### Writes of a port's entries (R129, R133, R135, R601) -/

/-- A writable entry of a port, no handle's, no counter and no DOMAIN: what a WRITE of it does on a configured port is its own rule. -/
structure PortEntry (e : Ent) : Prop where
  plain : e.ty ≠ .domain
  unsticky : e.acc ≠ .w1c
  uncounted : e.cls ≠ .counter
  place : e.idx = 0x2000
  static : e.tmpl = false

/-- No entry of a port is a request to the buffer pool manager. -/
theorem PortEntry.unmanaged {e : Ent} (he : PortEntry e) :
    e ≠ E.pool_free ∧ e ≠ E.pool_share ∧ e ≠ E.sequence_activate ∧ e ≠ E.sequence_reserve := by
  refine ⟨?_, ?_, ?_, ?_⟩ <;> rintro rfl <;> cases he.static

/-- `port.width` is written on any lane, the other entries where the lane starts a port (R129, R137). -/
theorem PortEntry.unlocked {e : Ent} {s : State} {n : Nat} (he : PortEntry e) (hport : e = E.port_width ∨ s.isPort n = true) (i : Nat) :
    locked s e n i = false := by
  rcases hport with rfl | hport
  · simp [locked, noPort, he.static]
  · simp [locked, noPort, he.static, hport]

/-- A value that such an entry's rule takes leaves what the rule gives, and answers 0. -/
theorem PortEntry.taken {s u : State} {r : Req} {w : Who} {e : Ent} {n k h v : Nat} (he : PortEntry e) (a : Accepts s r w e n k h v)
    (hport : e = E.port_width ∨ s.isPort n = true) (hu : writeHook s w e n k (hIdx h) v = some (0, u)) :
    complete s (writeCmd s r e n k h v) = .next (wrote s u r e n k h v) :=
  have hvalue : writeValue s w e n k (hIdx h) v = (0, keepTouched s u) :=
    writeValue_hook a.still (by simp [he.unsticky]) (by simp [he.uncounted]) (he.unlocked hport _) hu
  complete_eq (writeCmd_accepted a he.plain (managed_entry a he.unmanaged) hvalue)

theorem portEntry_port_width : PortEntry E.port_width := by constructor <;> decide

theorem portEntry_port_mode : PortEntry E.port_mode := by constructor <;> decide

theorem portEntry_port_fec : PortEntry E.port_fec := by constructor <;> decide

theorem portEntry_port_role : PortEntry E.port_role := by constructor <;> decide

theorem portEntry_port_an : PortEntry E.port_an := by constructor <;> decide

theorem portEntry_port_control_role : PortEntry E.port_control_role := by constructor <;> decide

theorem portEntry_port_control_partition : PortEntry E.port_control_partition := by constructor <;> decide

theorem portEntry_port_restore : PortEntry E.port_restore := by constructor <;> decide

theorem portEntry_port_loopback : PortEntry E.port_loopback := by constructor <;> decide

theorem portEntry_port_prbs : PortEntry E.port_prbs := by constructor <;> decide

/-- The rule of `port.width`, by evaluating which chapter's rules name the entry; those below likewise. -/
theorem writeHook_port_width (s : State) (w : Who) (n k i v : Nat) :
    writeHook s w E.port_width n k i v = some (widthWrite s n v) := rfl

theorem writeHook_port_mode (s : State) (w : Who) (n k i v : Nat) :
    writeHook s w E.port_mode n k i v = some (modeWrite s n v) := rfl

theorem writeHook_port_fec (s : State) (w : Who) (n k i v : Nat) :
    writeHook s w E.port_fec n k i v = some (fecWrite s n v) := rfl

theorem writeHook_port_role (s : State) (w : Who) (n k i v : Nat) :
    writeHook s w E.port_role n k i v = some (portRoleWrite s n v) := rfl

theorem writeHook_port_an (s : State) (w : Who) (n k i v : Nat) :
    writeHook s w E.port_an n k i v = some (0, (s.set (E.port_an.n n) v).reconfigure n) := rfl

theorem writeHook_port_control_role (s : State) (w : Who) (n i v : Nat) :
    writeHook s w E.port_control_role n 0 i v = some (0, (s.set (E.port_control_role.n n) v).later (.controlClose n)) := rfl

theorem writeHook_port_control_partition (s : State) (w : Who) (n i v : Nat) :
    writeHook s w E.port_control_partition n 0 i v = some (0, (s.set (E.port_control_partition.n n) v).later (.controlClose n)) := rfl

theorem writeHook_port_restore (s : State) (w : Who) (n k i v : Nat) :
    writeHook s w E.port_restore n k i v = some (onOne v s (restoreWrite s n)) := rfl

theorem writeHook_port_loopback (s : State) (w : Who) (n i v : Nat) :
    writeHook s w E.port_loopback n 0 i v = some (0, loopWrite s n (E.port_loopback.n n) v) := rfl

theorem writeHook_port_prbs (s : State) (w : Who) (n i v : Nat) :
    writeHook s w E.port_prbs n 0 i v = some (0, loopWrite s n (E.port_prbs.n n) v) := rfl

/-- A width that lies aligned and clear, and leaves the shared pool its least, starts the port anew (R23, R129, R190). -/
theorem widthWrite_fits {s : State} {n v : Nat} (hwide : 1 ≤ v) (hfits : portFits s n v = true)
    (hshared : 65536 ≤ (s.set (E.port_width.n n) v).sharedCells) :
    widthWrite s n v = (0, (s.set (E.port_width.n n) v).reconfigure n) := by
  unfold widthWrite
  rw [if_neg (by omega), if_neg (by simp [hfits])]
  exact if_neg (by omega)

/-- A mode that the role allows and whose FEC it has starts the port anew (R115, R128, R129). -/
theorem modeWrite_allowed {s : State} {n v : Nat} (hrole : roleMode (s.get (E.port_role.n n)) v = true)
    (hfec : v ≠ 1 ∨ s.get (E.port_fec.n n) ≠ 1) : modeWrite s n v = (0, (s.set (E.port_mode.n n) v).reconfigure n) := by
  unfold modeWrite
  rw [if_neg (by simpa [hrole, ← imp_iff_not_or] using hfec)]

/-- A FEC that the mode has starts the port anew (R115, R129). -/
theorem fecWrite_allowed {s : State} {n v : Nat} (hmode : v ≠ 1 ∨ s.get (E.port_mode.n n) ≠ 1) :
    fecWrite s n v = (0, (s.set (E.port_fec.n n) v).reconfigure n) :=
  if_neg (not_and_or.2 hmode)

/-- A role that allows the mode, the tunnel role only with the MTU that it needs, starts the port anew (R127 to R129). -/
theorem portRoleWrite_allowed {s : State} {n v : Nat} (hmode : roleMode v (s.get (E.port_mode.n n)) = true)
    (hmtu : v ≠ 3 ∨ 4214 ≤ s.get (E.port_mtu.n n)) : portRoleWrite s n v = (0, (s.set (E.port_role.n n) v).reconfigure n) := by
  unfold portRoleWrite
  rw [if_neg (by simpa [hmode, ← imp_iff_not_or] using hmtu)]

/-- A degraded Rill port whose lanes are all good is ready to restore (R133). -/
theorem restoreWrite_ready {s : State} {n : Nat} (hgood : (s.prt n).good = fullMap (s.get (E.port_width.n n)))
    (hdegraded : s.get (E.port_state.n n) = 3) (hrill : s.get (E.port_mode.n n) = 0) :
    restoreWrite s n = (0, s.modPort n fun x => { x with ready := true }) := by
  simp [restoreWrite, hgood, hdegraded, hrill]

/-- A port that is not Off enters or leaves Loopback or Pattern: it starts again, and where it was in service its packets choose a
link anew (R135, R152, log 63). -/
theorem loopWrite_restarts {s : State} {n : Nat} (l : Loc) (v : Nat) (hon : s.get (E.port_state.n n) ≠ 0) :
    loopWrite s n l v =
      (let a := (s.set l v).startPort n
       let b := if s.inService n then (a.requeuePort n).later (.memberLost n) else a
       if s.get (E.port_state.n n) = 2 ∨ s.get (E.port_state.n n) = 3 then b.linkNotice n 1 else b) :=
  if_neg hon

/-- Settles O32: each entry's rule (`PortEntry.taken`) takes the value. -/
theorem portConfigurationCompletes : Obligations.PortConfigurationCompletes := by
  intro s
  refine ⟨?_, ?_, ?_, ?_, ?_, ?_, ?_, ?_, ?_, ?_⟩
  · intro r w n v a hwide hfits hshared
    refine portEntry_port_width.taken a (.inl rfl) ?_
    rw [writeHook_port_width, widthWrite_fits hwide hfits hshared]
  · intro r w n v a hport hrole hfec
    refine portEntry_port_mode.taken a (.inr hport) ?_
    rw [writeHook_port_mode, modeWrite_allowed hrole hfec]
  · intro r w n v a hport hmode
    refine portEntry_port_fec.taken a (.inr hport) ?_
    rw [writeHook_port_fec, fecWrite_allowed hmode]
  · intro r w n v a hport hmode hmtu
    refine portEntry_port_role.taken a (.inr hport) ?_
    rw [writeHook_port_role, portRoleWrite_allowed hmode hmtu]
  · exact fun r w n v a hport => portEntry_port_an.taken a (.inr hport) (writeHook_port_an s w n 0 _ v)
  · exact fun r w n v a hport =>
      portEntry_port_control_role.taken a (.inr hport) (writeHook_port_control_role s w n _ v)
  · exact fun r w n v a hport =>
      portEntry_port_control_partition.taken a (.inr hport) (writeHook_port_control_partition s w n _ v)
  · rintro r w n _ a hport rfl hgood hdegraded hrill
    refine portEntry_port_restore.taken a (.inr hport) ?_
    rw [writeHook_port_restore, onOne, if_neg (by decide), restoreWrite_ready hgood hdegraded hrill]
  · intro r w n v a hport hon
    refine portEntry_port_loopback.taken a (.inr hport) ?_
    rw [writeHook_port_loopback, loopWrite_restarts _ _ hon]
  · intro r w n v a hport hon
    refine portEntry_port_prbs.taken a (.inr hport) ?_
    rw [writeHook_port_prbs, loopWrite_restarts _ _ hon]

/-! ### Training and the events of lanes (R112, R113, R116, R130, R133, R602) -/

/-- Every lane of a port that trains is locked: it comes up at its full width (R130). -/
theorem trainingDone_full {s : State} {n map : Nat} (hwidth : s.get (E.port_width.n n) ≠ 0)
    (href : s.refLost.contains (n / 256) = false) (hgroup : s.groupsOut.contains (n / 16) = false)
    (htrains : s.get (E.port_state.n n) = 1 ∨ s.get (E.port_state.n n) = 4) (hloop : s.get (E.port_loopback.n n) = 0)
    (hprbs : s.get (E.port_prbs.n n) = 0)
    (hmap : map % 2 ^ s.get (E.port_width.n n) = fullMap (s.get (E.port_width.n n))) :
    trainingDone s n map =
      (s.modPort n fun x => { x with good := fullMap (s.get (E.port_width.n n)) }).comeUp n (s.get (E.port_width.n n), 0) := by
  have hunblocked : ¬ (s.get (E.port_width.n n) = 0 ∨ s.refLost.contains (n / 256) ∨ s.groupsOut.contains (n / 16)) := by
    rw [href, hgroup]
    simp [hwidth]
  unfold trainingDone
  dsimp only
  rw [if_neg hunblocked, if_neg (by omega), if_neg (by simp [hloop, hprbs]), if_pos htrains, if_pos hmap, hmap]

/-- Training that has lasted its time is tried again; ends whose FEC differs tell it (R115, R130). -/
theorem trainingTimeout_retries {s : State} {n : Nat} (mis : Bool)
    (htrains : s.get (E.port_state.n n) = 1 ∨ s.get (E.port_state.n n) = 4) (hdue : (s.prt n).trainAt + 500000000 ≤ s.ft) :
    trainingTimeout s n mis =
      (let a := (s.modPort n fun x => { x with trainAt := s.ft, partialAt := none, good := 0 }).set (E.port_state.n n) 1
       if mis then a.linkNotice n 5 else a) :=
  if_pos ⟨htrains, hdue⟩

/-- A Rill port some of whose lanes stay without lock comes up on the set that it has (R602). -/
theorem partialDegrade_comesUp {s : State} {n t : Nat} {x : Nat × Nat} (hpartial : (s.prt n).partialAt = some t)
    (htrains : s.get (E.port_state.n n) = 1 ∨ s.get (E.port_state.n n) = 4) (hdue : t + 100000000 ≤ s.ft)
    (hrill : s.get (E.port_mode.n n) = 0) (hset : s.setS n = some x) : partialDegrade s n = s.comeUp n x := by
  simp [partialDegrade, hpartial, htrains, hdue, hrill, hset]

/-- Each lane shows its own error rate, and a mean above the limit is told (R116). -/
theorem fecDegraded_errors {s : State} {n : Nat} (rates : List Nat) (hwidth : s.get (E.port_width.n n) ≠ 0) :
    fecDegraded s n (.errors rates) =
      (let a := (List.range (s.get (E.port_width.n n))).foldl (fun (x : State) k =>
         x.set (E.lane_pre_fec_ber.n (n + k)) (rates.getD k 0)) s
       if a.berLimit n * s.get (E.port_width.n n) < sumBy (fun k => rates.getD k 0) (List.range (s.get (E.port_width.n n)))
         then a.linkNotice n 4 else a) := by
  unfold fecDegraded
  dsimp only
  rw [if_congr (and_iff_right hwidth) rfl rfl]

/-- The restore hold of a degraded Rill port has run out with every lane good: it is ready to restore (R133). -/
theorem restoreHold_ready {s : State} {n t : Nat} (hhold : (s.prt n).holdAt = some t) (hdegraded : s.get (E.port_state.n n) = 3)
    (hrill : s.get (E.port_mode.n n) = 0) (hdue : t + s.get (E.port_restore_hold.n n) ≤ s.ft)
    (hauto : s.getB (E.port_auto_restore.n n) = true) (hgood : (s.prt n).good = fullMap (s.get (E.port_width.n n))) :
    restoreHold s n = s.modPort n fun x => { x with ready := true } := by
  simp only [restoreHold, hhold]
  exact if_pos ⟨hdegraded, hrill, hdue, hauto, hgood⟩

theorem laneLost_fitted {s : State} {l : Nat} (hfitted : laneFitted s.part l = true) (hfresh : s.get (E.lane_state.n l) ≠ 3)
    (hused : s.get (E.lane_state.n l) ≠ 0) :
    laneLost s l = ((s.set (E.lane_state.n l) 3).inc (E.lane_losses.n l) 1).laneOut l :=
  if_neg (by simp [hfitted, hfresh, hused])

/-- A lane in lock shows that the reference of its die is there, and its signal-to-noise estimate (R112, R113). -/
def laneLocked (s : State) (l snr : Nat) : State :=
  { s with refLost := s.refLost.filter (fun d => d ≠ l / 256) }.set (E.lane_snr.n l) snr

theorem laneGood_unported {s : State} {l : Nat} (snr : Nat) (hfitted : laneFitted s.part l = true)
    (hport : (laneLocked s l snr).portOf l = none) : laneGood s l snr = laneLocked s l snr := by
  unfold laneGood
  rw [if_neg (by simp [hfitted])]
  simp only [laneLocked] at hport ⊢
  rw [hport]

/-- A good lane of a port counts among its good ones; with the last of them the restore hold begins (R113, R133). -/
theorem laneGood_ported {s : State} {l n : Nat} (snr : Nat) (hfitted : laneFitted s.part l = true)
    (hport : (laneLocked s l snr).portOf l = some n) :
    laneGood s l snr =
      (let b := (((laneLocked s l snr).set (E.lane_state.n l) 2).modPort n fun x =>
         { x with good := setBitAt x.good (l - n) }).rxGood n
       if (b.prt n).good = fullMap (b.get (E.port_width.n n)) ∧ (b.prt n).holdAt.isNone = true then
         b.modPort n fun x => { x with holdAt := some s.ft } else b) := by
  unfold laneGood
  rw [if_neg (by simp [hfitted])]
  simp only [laneLocked] at hport ⊢
  rw [hport]
  rfl

/-- Settles O33, a lemma for each clause that a test alone does not decide. -/
theorem portTrainingCompletes : Obligations.PortTrainingCompletes := by
  intro s
  refine ⟨?_, ?_, ?_, ?_, ?_, ?_, ?_, ?_, ?_, ?_, ?_⟩
  · exact fun n map hwidth href hgroup htrains hloop hprbs hmap =>
      complete_eq (trainingDone_full hwidth href hgroup htrains hloop hprbs hmap)
  · rintro n mis _ hrunning htrains hdue rfl
    exact complete_eq ((if_neg (by simp [hrunning])).trans (trainingTimeout_retries mis htrains hdue))
  · exact fun n t x hpartial htrains hdue hrill hset => complete_eq (partialDegrade_comesUp hpartial htrains hdue hrill hset)
  · rintro n rates _ hwidth rfl
    exact complete_eq (fecDegraded_errors rates hwidth)
  · exact fun n bits hpattern => complete_eq (if_neg (not_not.2 hpattern))
  · exact fun n t hhold hdegraded hrill hdue hauto hgood =>
      complete_eq (restoreHold_ready hhold hdegraded hrill hdue hauto hgood)
  · exact fun l hfitted hfresh hused => complete_eq (laneLost_fitted hfitted hfresh hused)
  · rintro l snr _ hfitted rfl hport
    exact complete_eq (laneGood_unported snr hfitted hport)
  · rintro l snr n _ _ hfitted rfl hport rfl
    exact complete_eq (laneGood_ported snr hfitted hport)
  · rintro die _ hnew rfl hnone
    refine complete_eq ?_
    simp only [referenceLost, hnew, Bool.false_eq_true, if_false, hnone, List.foldl_nil]
  · rintro die n _ _ _ hnew rfl hone rfl rfl
    refine complete_eq ?_
    simp only [referenceLost, hnew, Bool.false_eq_true, if_false, hone, List.foldl_cons, List.foldl_nil]

/-! ### Markers and frames of ports (R117 to R121) -/

/-- The blocks of a marker period that announce the transmit map tx, one on each active lane, and the time of the next marker
(R119). -/
def markerSent (s : State) (n tx : Nat) : State :=
  let a := (bitList 8 (s.prt n).txMap).foldl (fun (x : State) k => x.emit (.laneStatus n
    (laneBlock tx (s.prt n).good k (s.prt n).markSeq (if (s.prt n).ready then 1 else 0)))) s
  a.modPort n fun r => { r with
    markSeq := (r.markSeq + 1) % 256,
    markAt := if r.markAt + 32768 < a.ft * 10 then a.ft * 10 + 32768 else r.markAt + 32768 }

/-- Where the set in use is the transmit set already, or there is none, a marker moves nothing (R119, R131). -/
theorem laneMarker_stays {s : State} {n : Nat} (hup : s.get (E.port_state.n n) = 2 ∨ s.get (E.port_state.n n) = 3)
    (hrill : s.get (E.port_mode.n n) = 0) (hdue : (s.prt n).markAt ≤ s.ft * 10 + 9)
    (hset : ∀ x, s.setS n = some x → setMap x = (s.prt n).txMap) : laneMarker s n = markerSent s n (s.prt n).txMap := by
  unfold laneMarker
  dsimp only
  rw [if_neg (by omega)]
  cases hx : s.setS n with
  | none => rfl
  | some x =>
    simp only [hset x hx, if_true]
    rfl

/-- A marker moves to a set that is not wider than the transmit set (R119, R131). -/
theorem laneMarker_switches {s : State} {n : Nat} {x : Nat × Nat} (hup : s.get (E.port_state.n n) = 2 ∨ s.get (E.port_state.n n) = 3)
    (hrill : s.get (E.port_mode.n n) = 0) (hdue : (s.prt n).markAt ≤ s.ft * 10 + 9) (hset : s.setS n = some x)
    (hnew : setMap x ≠ (s.prt n).txMap) (hwidth : x.1 ≤ popCount 8 (s.prt n).txMap) :
    laneMarker s n = ((markerSent s n (setMap x)).txSet n x).widthSettled n := by
  unfold laneMarker
  dsimp only
  rw [if_neg (by omega)]
  simp only [hset, hnew, Nat.not_lt.2 hwidth, false_and, if_false]
  rfl

/-- A port has taken the partner's maps and restore flag from a lane-status block (R119). -/
def blockTaken (s : State) (n : Nat) (b : List Byte) : State :=
  (s.modPort n fun r => { r with
    rxMap := leAt b 1 1, partner := leAt b 2 1, partnerFlag := leAt b 5 1 % 2 == 1 }).rxGood n

/-- A good block on a port in service is taken, and a set that is left to use settles the width (R119, R131). -/
theorem laneStatusBlock_good {s : State} {n : Nat} {b : List Byte} {x : Nat × Nat} (hcrc : crc8 (slice b 1 6) = leAt b 7 1)
    (hup : s.get (E.port_state.n n) = 2 ∨ s.get (E.port_state.n n) = 3) (hset : (blockTaken s n b).setS n = some x) :
    laneStatusBlock s n b = (blockTaken s n b).widthSettled n := by
  unfold laneStatusBlock
  dsimp only
  rw [if_neg (not_not.2 hcrc), if_neg (by omega)]
  simp only [blockTaken] at hset ⊢
  rw [hset]

/-- A whole Rill frame on a port in service passes the Gauge and, with room in the landing reserve, arrives (R117, R118, R174). -/
theorem rillFrame_whole {s a : State} {n crc idle startFt fixed : Nat} {b : List Byte} {words : List (Nat × List Nat)} (left : Bool)
    (hport : s.isPort n = true) (hrill : s.get (E.port_mode.n n) = 0) (hserves : s.inService n = true)
    (hloop : s.get (E.port_state.n n) ≠ 5 ∨ s.get (E.port_loopback.n n) ≠ 3)
    (hfec : fecCount (s.get (E.port_fec.n n)) words = (fixed, 0)) (hcrc : endingOf b crc = 0) (hmin : 64 ≤ b.length)
    (hmax : b.length ≤ 4144)
    (ha : a = gaugeReceive ((s.inc (E.port_fec_corrected.n n) fixed).inc (E.port_fec_uncorrectable.n n) 0) n b 0 idle startFt)
    (hroom : landingFull a n 0 = false) : rillFrame s n b crc words left idle startFt = arrive a n b none left false startFt := by
  unfold rillFrame
  rw [if_neg (by simp [hport, hrill]), if_neg (by omega), if_neg (by simp [hserves]), hfec, hcrc]
  simp only [if_true, ← ha]
  rw [if_neg (by omega), if_neg (by simp), if_neg (by simp [hroom])]
  rfl

/-- A whole Ethernet frame on a port in service goes to the host if its address is link-local, and is no PAUSE, and else, on a port
that ends no tunnels, to the bridge (R117, R120, R121). -/
theorem ethReceive_whole {s a : State} {n fcs startFt fixed : Nat} {b : List Byte} {words : List (Nat × List Nat)} (left : Bool)
    (hserves : s.inService n = true) (hether : s.get (E.port_mode.n n) = 1)
    (hloop : s.get (E.port_state.n n) ≠ 5 ∨ s.get (E.port_loopback.n n) ≠ 3) (hfec : fecCount 0 words = (fixed, 0))
    (hcrc : endingOf b fcs = 0) (hmin : 60 ≤ b.length)
    (ha : a = (s.inc (E.port_fec_corrected.n n) fixed).inc (E.port_fec_uncorrectable.n n) 0)
    (hmtu : b.length + 4 ≤ a.get (E.port_mtu.n n))
    (hway : if 0x0180C2000000 ≤ beAt b 0 6 ∧ beAt b 0 6 ≤ 0x0180C200000F then
        (if (frameTag b).isSome then beAt b 16 2 else beAt b 12 2) ≠ 0x8808
      else a.get (E.port_role.n n) ≠ 3) :
    ethReceive s n b fcs left words startFt =
      (let seen := a.sampleSee n 0 0 0xFFFF (.eth b) startFt
       if 0x0180C2000000 ≤ beAt b 0 6 ∧ beAt b 0 6 ≤ 0x0180C200000F then seen.later (.hostRecord 0 0 n 0 0 b)
       else bridgeReceive seen n b false startFt) := by
  have hgood : ((0 : Nat) != 0 || (0 : Nat) != 0 || decide (b.length + 4 < 64) ||
      decide (a.get (E.port_mtu.n n) < b.length + 4)) = false := by
    rw [decide_eq_false (by omega), decide_eq_false (by omega)]
    rfl
  unfold ethReceive
  dsimp only
  rw [if_neg (not_not.2 hether), if_neg (by omega), if_neg (by simp [hserves]), hfec, hcrc]
  simp only [← ha, hgood, Bool.false_and, Bool.false_eq_true, if_false, ← Bool.decide_and, decide_eq_true_eq]
  split at hway
  case isTrue hlocal => rw [if_pos hlocal, if_pos hlocal, if_neg hway]
  case isFalse hlocal =>
    rw [if_neg hlocal, if_neg hlocal]
    simp [hway]

/-- Settles O34, a lemma for each clause that a test alone does not decide. -/
theorem portFramesComplete : Obligations.PortFramesComplete := by
  intro s
  refine ⟨?_, ?_, ?_, ?_, ?_, ?_⟩
  · intro n hup hrill hdue hset
    refine complete_eq ((laneMarker_stays hup hrill hdue hset).trans ?_)
    simp only [markerSent, foldl_emit_ft]
  · rintro n x _ hup hrill hdue hset hnew hwidth rfl
    exact complete_eq (laneMarker_switches hup hrill hdue hset hnew hwidth)
  · rintro n b _ x hcrc hup rfl hset
    exact complete_eq (laneStatusBlock_good hcrc hup hset)
  · exact fun n b crc words left idle startFt fixed a hport hrill hserves hloop hfec hcrc hmin hmax ha hroom =>
      complete_eq (rillFrame_whole left hport hrill hserves hloop hfec hcrc hmin hmax ha hroom)
  · intro n b fcs left words used startFt fixed a hserves hether hroom hloop hfec hcrc hmin ha hmtu
    have hfits : ¬ (s.inService n && landingFull s n used) = true := by simp [hroom]
    refine ⟨fun hlo hhi hframe => complete_eq ((if_neg hfits).trans ?_), fun hfar hrole => complete_eq ((if_neg hfits).trans ?_)⟩
    · rw [ethReceive_whole left hserves hether hloop hfec hcrc hmin ha hmtu (by rwa [if_pos ⟨hlo, hhi⟩])]
      exact if_pos ⟨hlo, hhi⟩
    · rw [ethReceive_whole left hserves hether hloop hfec hcrc hmin ha hmtu (by rwa [if_neg hfar])]
      exact if_neg hfar
  · rintro _ _ hages rfl rfl
    exact complete_eq (if_neg hages)

end Sys2Proof.Machine

/-!
PROOFS of Rill packets (spec/06_rill_packets.md): a header and its bytes (R140, R468), and arrival at the switch core with what it
counts, adapts and notes (R151, R157, R163, R165, R194).
-/

namespace Sys2Proof.Machine

/-! ### The bytes of a Rill header (R140) -/

/-- Two byte strings in a row spell one number: the first below, the second above. -/
theorem leBytes_append_leBytes (m n a b : Nat) :
    leBytes m a ++ leBytes n b = leBytes (m + n) (a % 256 ^ m + 256 ^ m * b) := by
  induction m generalizing a with
  | zero => simp [leBytes, Nat.mod_one]
  | succ m ih =>
    have hpow : 256 ^ (m + 1) = 256 * 256 ^ m := Nat.pow_succ'
    have hmod : a % 256 ^ (m + 1) = a % 256 + 256 * (a / 256 % 256 ^ m) := by rw [hpow, Nat.mod_mul]
    have hlow : BitVec.ofNat 8 a = BitVec.ofNat 8 (a % 256 ^ (m + 1) + 256 ^ (m + 1) * b) := by
      apply BitVec.eq_of_toNat_eq
      rw [BitVec.toNat_ofNat, BitVec.toNat_ofNat, hmod, hpow, Nat.mul_assoc]
      omega
    have hhigh : (a % 256 ^ (m + 1) + 256 ^ (m + 1) * b) / 256 = a / 256 % 256 ^ m + 256 ^ m * b := by
      rw [hmod, hpow, Nat.mul_assoc]
      omega
    rw [show m + 1 + n = m + n + 1 by omega, leBytes, leBytes, List.cons_append, ih, ← hlow, hhigh]

/-- Words written one behind the other read as themselves. -/
theorem leAt_flatMap_leBytes (len : Nat) (ws : List Nat) (k : Nat) :
    leAt (ws.flatMap (leBytes len)) (len * k) len = ws.getD k 0 % 256 ^ len := by
  induction ws generalizing k with
  | nil => simp [leAt, slice, ofLe]
  | cons w ws ih =>
    cases k with
    | zero => simpa using leAt_at [] (ws.flatMap (leBytes len)) 0 len w rfl
    | succ k =>
      rw [List.flatMap_cons, leAt_append_right _ _ _ (by simp [Nat.mul_succ]), leBytes_length, Nat.mul_succ, Nat.add_sub_cancel, ih]
      rfl

theorem crcBit_lt {w poly : Nat} (hp : poly < 2 ^ w) (reg : Nat) (b : Bool) : crcBit w poly reg b < 2 ^ w := by
  have hshift : reg * 2 % 2 ^ w < 2 ^ w := Nat.mod_lt _ (by positivity)
  unfold crcBit
  dsimp only
  split
  · exact Nat.xor_lt_two_pow hshift hp
  · exact hshift

/-- A check register of 16 bits holds 16 bits. -/
theorem crc16_lt (b : List Byte) : crc16 b < 65536 := by
  refine List.foldlRecOn b _ (motive := (· < 65536)) (by decide) fun reg _ x _ => ?_
  exact crcBit_lt (w := 16) (by decide) _ _

/-- The hcrc of a header, inverted where the header is marked bad (R140, R468). -/
def rillHcrc (h : Rill) : Nat := if h.hcrcOk then crc16 (rillBytes46 h) else 0xFFFF - crc16 (rillBytes46 h)

theorem rillHcrc_lt (h : Rill) : rillHcrc h < 65536 := by
  have := crc16_lt (rillBytes46 h)
  unfold rillHcrc
  split <;> omega

/-- The check holds exactly where the header is not marked bad: no 16-bit value is its own inverse. -/
theorem crc16_beq_rillHcrc (h : Rill) : (crc16 (rillBytes46 h) == rillHcrc h) = h.hcrcOk := by
  unfold rillHcrc
  cases h.hcrcOk with
  | true => simp
  | false =>
    rw [if_neg Bool.false_ne_true, beq_eq_false_iff_ne]
    omega

/-- The twelve words of a header, the hcrc above the tag (R140). -/
def rillWords (h : Rill) : List Nat :=
  let r := fun i => h.route.getD i 0 % 1024
  let t := fun i => h.ret.getD i 0 % 1024
  [h.version % 16 + h.kind % 16 * 2 ^ 4 + h.cls % 8 * 2 ^ 8 + h.colour % 4 * 2 ^ 11 + h.hopCount % 8 * 2 ^ 13 +
      h.hopPtr % 8 * 2 ^ 16 + h.partition % 4096 * 2 ^ 20,
    h.lifetime % 65536 + h.length % 8192 * 2 ^ 16 + (if h.cplReq then 2 ^ 29 else 0),
    r 0 + r 1 * 2 ^ 10 + r 2 * 2 ^ 20, r 3 + t 0 * 2 ^ 10 + t 1 * 2 ^ 20, t 2 + t 3 * 2 ^ 10,
    h.handle, h.segment, h.layer % 65536 + h.operator * 2 ^ 16, h.w8, h.w9, h.w10, h.tag % 65536 + 65536 * rillHcrc h]

theorem rillBytes_eq_words (h : Rill) : rillBytes h = (rillWords h).flatMap (leBytes 4) := by
  have hlast : leBytes 2 h.tag ++ leBytes 2 (rillHcrc h) = leBytes 4 (h.tag % 65536 + 65536 * rillHcrc h) :=
    leBytes_append_leBytes 2 2 h.tag (rillHcrc h)
  simp only [rillWords, List.flatMap_cons, List.flatMap_nil, List.append_nil, ← hlast]
  simp only [rillBytes, rillBytes46, rillHcrc, List.append_assoc]

/-- Word k of a header, which holds 32 bits. -/
def rillWord (h : Rill) (k : Nat) : Nat := (rillWords h).getD k 0 % 2 ^ 32

theorem leAt_rillBytes (h : Rill) (k : Nat) : leAt (rillBytes h) (4 * k) 4 = rillWord h k := by
  rw [rillBytes_eq_words]
  exact leAt_flatMap_leBytes 4 _ k

theorem rillBytes46_length (h : Rill) : (rillBytes46 h).length = 46 := by
  simp only [rillBytes46, List.length_append, leBytes_length]

theorem rillBytes_length (h : Rill) : (rillBytes h).length = 48 := by
  simp only [rillBytes, List.length_append, leBytes_length, rillBytes46_length]

theorem rillBytes_take (h : Rill) : (rillBytes h).take 46 = rillBytes46 h :=
  List.take_left' (rillBytes46_length h)

section
variable {h : Rill} (hf : RillFields h)
include hf

theorem rillWord_zero_bits :
    bits (rillWord h 0) 3 0 = h.version ∧ bits (rillWord h 0) 7 4 = h.kind ∧ bits (rillWord h 0) 10 8 = h.cls ∧
    bits (rillWord h 0) 12 11 = h.colour ∧ bits (rillWord h 0) 15 13 = h.hopCount ∧ bits (rillWord h 0) 18 16 = h.hopPtr ∧
    bits (rillWord h 0) 31 20 = h.partition ∧ bits (rillWord h 0) 19 19 = 0 := by
  obtain ⟨hversion, hkind, hcls, hcolour, hcount, hptr, hpart, -⟩ := hf
  simp only [rillWord, rillWords, List.getD_cons_zero, bits]
  omega

theorem rillWord_one_bits :
    bits (rillWord h 1) 15 0 = h.lifetime ∧ bits (rillWord h 1) 28 16 = h.length ∧ bitAt (rillWord h 1) 29 = h.cplReq ∧
    bits (rillWord h 1) 31 30 = 0 := by
  have hlifetime := hf.lifetime
  have hlength := hf.length
  simp only [rillWord, rillWords, List.getD_cons_zero, List.getD_cons_succ, bits, bitAt]
  cases h.cplReq with
  | true =>
    simp only [if_true, beq_iff_eq]
    omega
  | false =>
    simp only [Bool.false_eq_true, if_false, beq_eq_false_iff_ne]
    omega

/-- The route and the return slots stand three to a word in words 2 to 4. -/
theorem rillWord_slot_bits :
    [bits (rillWord h 2) 9 0, bits (rillWord h 2) 19 10, bits (rillWord h 2) 29 20, bits (rillWord h 3) 9 0] = h.route ∧
    [bits (rillWord h 3) 19 10, bits (rillWord h 3) 29 20, bits (rillWord h 4) 9 0, bits (rillWord h 4) 19 10] = h.ret ∧
    bits (rillWord h 2) 31 30 = 0 ∧ bits (rillWord h 3) 31 30 = 0 ∧ bits (rillWord h 4) 31 20 = 0 := by
  obtain ⟨hroute, hslots⟩ := hf.route
  obtain ⟨hret, hslots'⟩ := hf.ret
  obtain ⟨a, b, c, d, hr⟩ := List.length_eq_four.1 hroute
  obtain ⟨a', b', c', d', ht⟩ := List.length_eq_four.1 hret
  simp only [hr, ht, List.forall_mem_cons] at hslots hslots'
  simp only [rillWord, rillWords, hr, ht, List.getD_cons_zero, List.getD_cons_succ, bits, List.cons.injEq, and_true]
  omega

theorem rillWord_seven_bits : bits (rillWord h 7) 15 0 = h.layer ∧ bits (rillWord h 7) 31 16 = h.operator := by
  have hlayer := hf.layer
  have hoperator := hf.operator
  simp only [rillWord, rillWords, List.getD_cons_zero, List.getD_cons_succ, bits]
  omega

theorem rillWord_last_bits : bits (rillWord h 11) 15 0 = h.tag ∧ bits (rillWord h 11) 31 16 = rillHcrc h := by
  have htag := hf.tag
  have hcrc := rillHcrc_lt h
  simp only [rillWord, rillWords, List.getD_cons_zero, List.getD_cons_succ, bits]
  omega

/-- The words that are one field each. -/
theorem rillWord_whole :
    rillWord h 5 = h.handle ∧ rillWord h 6 = h.segment ∧ rillWord h 8 = h.w8 ∧ rillWord h 9 = h.w9 ∧ rillWord h 10 = h.w10 := by
  obtain ⟨h8, h9, h10⟩ := hf.words
  exact ⟨Nat.mod_eq_of_lt hf.handle, Nat.mod_eq_of_lt hf.segment, Nat.mod_eq_of_lt h8, Nat.mod_eq_of_lt h9, Nat.mod_eq_of_lt h10⟩

/-- A header of fields that fit is parsed from its bytes: each field stands in its word, and the reserved bits are zero (R140). -/
theorem parseRill_rillBytes : parseRill (rillBytes h) = h := by
  have hzero := rillWord_zero_bits hf
  have hone := rillWord_one_bits hf
  have hslots := rillWord_slot_bits hf
  have hwhole := rillWord_whole hf
  have hseven := rillWord_seven_bits hf
  have hlast := rillWord_last_bits hf
  simp only [parseRill, leAt_rillBytes, rillBytes_take, crc16_beq_rillHcrc, hzero, hone, hslots, hwhole, hseven, hlast, Nat.add_zero]
  rw [← hf.rsv]

end

/-- Settles O7: a header has 48 bytes, and each of its words reads back as the fields in it (`parseRill_rillBytes`). -/
theorem rillHeaderRoundTrip : Obligations.RillHeaderRoundTrip :=
  fun h hf => ⟨rillBytes_length h, parseRill_rillBytes hf⟩

/-! ### Arrivals, re-entry, adaptation and errors (R151, R157, R163, R165, R194) -/

/-- A packet on a Rill port in service, or one open for recabling, arrives where the landing reserve has room (R163, R174). -/
theorem packetArrival_arrives {s : State} {n used : Nat} (b : List Byte) (startFt : Nat) (hport : s.isPort n = true)
    (hrill : s.get (E.port_mode.n n) = 0) (hserves : s.inService n = true ∨ s.recabled n = true)
    (hroom : landingFull s n used = false) : packetArrival s n b used startFt = arrive s n b none false false startFt := by
  unfold packetArrival
  rw [if_neg (by simpa [hport, hrill, or_iff_not_imp_left] using hserves), if_neg (by simp [hroom])]

/-- The packet of e has left the Eddy, and its bytes are free again (R157). -/
def leftEddy (s : State) (id : Nat) (e : EddyPkt) : State :=
  { s with sw := { s.sw with eddy := s.sw.eddy.filter (fun x => x.pkt.id ≠ id) } }.sub E.rill_eddy_used.s e.bytes

/-- A deflected packet whose lifetime exceeds its charge waits for a new placement (R157, R161). -/
theorem eddyReentry_again {s : State} {id : Nat} {e : EddyPkt} {h : Rill} {payload : List Byte}
    (hfind : s.sw.eddy.find? (fun e => e.pkt.id = id) = some e) (hdue : e.enterFt + 160 ≤ s.ft)
    (hbody : e.pkt.body = .rill h payload)
    (hlife : residenceUnits e.pkt.arrFt s.ft + (leftEddy s id e).get (E.bundle_link_allowance.n e.pkt.bundle) < h.lifetime) :
    eddyReentry s id = (leftEddy s id e).addTry (tryKey e.pkt) (.again e.pkt) := by
  unfold eddyReentry
  rw [hfind]
  dsimp only
  rw [if_neg (Nat.not_lt.2 hdue), hbody]
  exact if_neg (Nat.not_le.2 hlife)

/-- A fault window has ended: the counts of it are cleared and the next one begins (R165). -/
def windowRestarted (s : State) : State := { s with sw := { s.sw with faultCnt := [], faultWin := [(0, s.ft)] } }

theorem arrivalFaultWindow_below {s : State} (hdue : mgetD s.sw.faultWin 0 0 + s.get E.rill_fault_window.s ≤ s.ft)
    (hbelow : s.sw.faultCnt.filter (fun x => decide (s.get E.rill_fault_rate.s < x.2)) = []) :
    arrivalFaultWindow s = windowRestarted s := by
  unfold arrivalFaultWindow
  dsimp only
  rw [if_neg (Nat.not_lt.2 hdue), hbelow]
  rfl

/-- The one check above the rate sets its flag of its port and raises the source of the port's die (R165). -/
theorem arrivalFaultWindow_port {s : State} {x : Nat × Nat}
    (hdue : mgetD s.sw.faultWin 0 0 + s.get E.rill_fault_window.s ≤ s.ft)
    (habove : s.sw.faultCnt.filter (fun x => decide (s.get E.rill_fault_rate.s < x.2)) = [x]) (hport : x.1 < 20000) :
    arrivalFaultWindow s =
      ((windowRestarted s).stick (E.rill_rx_flags.n (x.1 / 16)) (x.1 % 16 - 1)).raise (192 + x.1 / 16 / 256) := by
  unfold arrivalFaultWindow
  dsimp only
  rw [if_neg (Nat.not_lt.2 hdue), habove]
  simp only [List.filter_cons, List.filter_nil, List.map_cons, List.map_nil, hport, decide_true, if_true, List.cons_ne_nil, if_false]
  rfl

/-- The health factors with member c's adapted (R151): one less, to no less than 1, where its packets were delayed past the target
or, over a tunnel, marked; else one more, to no more than 16. -/
def memberAdapted (s : State) (b : Nat) (m : NMap Nat) (c : Nat × Nat) : NMap Nat :=
  if s.inService c.2 = false then m
  else mput m c.2 (if s.get (E.bundle_delay_target.n b) * (mgetD s.sw.delaySum c.2 (0, 0)).2 < (mgetD s.sw.delaySum c.2 (0, 0)).1 ∨
    (s.get (E.port_role.n c.2) = 3 ∧ 0 < mgetD s.sw.ceSeen b 0)
    then max (s.health c.2 - 1) 1 else min (s.health c.2 + 1) 16)

/-- The interval of bundle b has ended with these health factors (R151). -/
def intervalEnded (s : State) (b : Nat) (factor : NMap Nat) : State :=
  { s with sw := { s.sw with
    factor := factor, adaptAt := mput s.sw.adaptAt b s.ft, ceSeen := mput s.sw.ceSeen b 0,
    delaySum := s.sw.delaySum.filter (fun x => !(s.members b).any fun c => c.2 == x.1) } }

/-- An interval that is over adapts the factors of an adaptive bundle's members, and those of no other (R151). -/
theorem bundleAdapt_due {s : State} {b : Nat} (hdue : mgetD s.sw.adaptAt b 0 + s.get (E.bundle_adapt_interval.n b) ≤ s.ft) :
    bundleAdapt s b = intervalEnded s b
      (if s.getB (E.bundle_adaptive.n b) then (s.members b).foldl (memberAdapted s b) s.sw.factor else s.sw.factor) := by
  refine (if_neg (Nat.not_lt.2 hdue)).trans ?_
  simp only [Bool.not_eq_true', Bool.or_eq_true, Bool.and_eq_true, decide_eq_true_eq, beq_iff_eq, gt_iff_lt]
  rfl

theorem reservoirPacket_strikes {s : State} {id : Nat} {x : Pkt} (hfind : s.sw.pkts.find? (fun x => x.id = id) = some x) :
    reservoirPacket s id = (s.sw.pkts.filter fun y => y.id == id || (x.store != 0 && y.store == x.store)).foldl
      (fun (st : State) y => st.strikePkt y) s := by
  unfold reservoirPacket
  rw [hfind]

/-- Settles O35, a lemma for each clause but the two that an error's meaning states itself. -/
theorem switchArrivalCompletes : Obligations.SwitchArrivalCompletes := by
  intro s
  refine ⟨?_, ?_, ?_, ?_, ?_, ?_, ?_, ?_⟩
  · exact fun n b used startFt hport hrill hserves hroom => complete_eq (packetArrival_arrives b startFt hport hrill hserves hroom)
  · exact fun id e h payload hfind hdue hbody hallow hlife => complete_eq (eddyReentry_again hfind hdue hbody (hallow ▸ hlife))
  · exact fun hdue hbelow => complete_eq (arrivalFaultWindow_below hdue hbelow)
  · exact fun x hdue habove hport => complete_eq (arrivalFaultWindow_port hdue habove hport)
  · intro b factor hdue hfixed hadapts
    refine complete_eq ((bundleAdapt_due hdue).trans (congrArg (intervalEnded s b) ?_))
    split
    case isTrue hadaptive => exact (hadapts hadaptive).symm
    case isFalse hadaptive => exact (hfixed (Bool.eq_false_iff.2 hadaptive)).symm
  · exact fun row i k => complete_eq rfl
  · rintro row id k x _ rfl hfind
    refine complete_eq ?_
    rw [reservoirError, reservoirPacket_strikes hfind]
  · exact fun row i k => complete_eq rfl

end Sys2Proof.Machine

/-!
PROOFS of the switch core (spec/07_switch_core.md): what leaves an account (R176), and matching, scheduling and sending with the
planes, the sampler and the division of the Reservoir (R172, R175, R179, R187, R188, R190, R205, R213).
-/

namespace Sys2Proof.Machine

/-! ### Cells that leave an account (R176) -/

@[simp] theorem State.get_sub_self (s : State) (l : Loc) (n : Nat) : (s.sub l n).get l = s.get l - n := s.get_set_self l _

theorem State.get_sub_ne (s : State) (l m : Loc) (n : Nat) (h : m.key ≠ l.key) : (s.sub l n).get m = s.get m :=
  s.get_set_ne l m _ h

/-- What coloured packets hold of a queue moves that note and the pool's two counts of it alone (R184). -/
theorem State.get_setHued_ne (s : State) (f yr r : Nat) (l : Loc) (hyr : l.key ≠ E.rsv_shared_yr.s.key)
    (hr : l.key ≠ E.rsv_shared_r.s.key) : (s.setHued f yr r).get l = s.get l :=
  (State.get_set_ne _ E.rsv_shared_r.s l _ hr).trans (State.get_set_ne _ E.rsv_shared_yr.s l _ hyr)

/-- The same where that may be as before. -/
theorem State.get_ite_setHued_ne {p : Prop} [Decidable p] (s : State) (f yr r : Nat) (l : Loc)
    (hyr : l.key ≠ E.rsv_shared_yr.s.key) (hr : l.key ≠ E.rsv_shared_r.s.key) :
    (if p then s else s.setHued f yr r).get l = s.get l := by
  split
  · rfl
  · exact s.get_setHued_ne f yr r l hyr hr

/-- A place that the release of cells does not touch after it has lowered queue slot f's two uses: none of the pool's counts, and
not the queue's depth. -/
structure ReleaseKeeps (f : Nat) (l : Loc) : Prop where
  shared : l.key ≠ E.rsv_shared_used.s.key
  yellowRed : l.key ≠ E.rsv_shared_yr.s.key
  red : l.key ≠ E.rsv_shared_r.s.key
  depth : l.key ≠ (E.queue_depth_cells.h f).key

section
variable {f : Nat} (hf : f < 2 ^ 20)
include hf

theorem releaseKeeps_queue_shared_used : ReleaseKeeps f (E.queue_shared_used.h f) where
  shared := h_key_ne (j := 0) (by decide) hf (by decide)
  yellowRed := h_key_ne (j := 0) (by decide) hf (by decide)
  red := h_key_ne (j := 0) (by decide) hf (by decide)
  depth := h_key_ne (by decide) hf hf

theorem releaseKeeps_queue_min_used : ReleaseKeeps f (E.queue_min_used.h f) where
  shared := h_key_ne (j := 0) (by decide) hf (by decide)
  yellowRed := h_key_ne (j := 0) (by decide) hf (by decide)
  red := h_key_ne (j := 0) (by decide) hf (by decide)
  depth := h_key_ne (by decide) hf hf

theorem queue_min_used_key_ne_shared_used_key : (E.queue_min_used.h f).key ≠ (E.queue_shared_used.h f).key :=
  h_key_ne (by decide) hf hf

end

/-- Queue slot f's uses after `cells` have left: shared use gives what it has of them, the guaranteed minimum the rest (R176). -/
def usesLowered (s : State) (f cells : Nat) : State :=
  (s.sub (E.queue_shared_used.h f) (min cells (s.get (E.queue_shared_used.h f)))).sub (E.queue_min_used.h f)
    (cells - min cells (s.get (E.queue_shared_used.h f)))

theorem usesLowered_get_shared (s : State) {f : Nat} (cells : Nat) (hf : f < 2 ^ 20) :
    (usesLowered s f cells).get (E.queue_shared_used.h f) =
      s.get (E.queue_shared_used.h f) - min cells (s.get (E.queue_shared_used.h f)) := by
  rw [usesLowered, State.get_sub_ne _ _ _ _ (queue_min_used_key_ne_shared_used_key hf).symm, State.get_sub_self]

theorem usesLowered_get_min (s : State) {f : Nat} (cells : Nat) (hf : f < 2 ^ 20) :
    (usesLowered s f cells).get (E.queue_min_used.h f) =
      s.get (E.queue_min_used.h f) - (cells - min cells (s.get (E.queue_shared_used.h f))) := by
  rw [usesLowered, State.get_sub_self, State.get_sub_ne _ _ _ _ (queue_min_used_key_ne_shared_used_key hf)]

/-- After the queue's uses the release lowers the pool's counts and the depth alone. -/
theorem releaseQ_get_kept (s : State) (n q cells colour : Nat) {l : Loc} (hl : ReleaseKeeps (qSlot n q) l) :
    (s.releaseQ n q cells colour).get l = (usesLowered s (qSlot n q) cells).get l := by
  unfold State.releaseQ
  dsimp only
  rw [State.get_sub_ne _ _ _ _ hl.depth]
  exact (State.get_ite_setHued_ne _ _ _ _ _ hl.yellowRed hl.red).trans (State.get_sub_ne _ _ _ _ hl.shared)

/-- The uses of an internal output after cells have left: shared use gives what it has of them, the minimum the rest (R176). -/
theorem releaseInt_intUsed {s : State} {o mu su : Nat} (cells : Nat) (h : mgetD s.sw.intUsed o (0, 0) = (mu, su)) :
    mgetD (s.releaseInt o cells).sw.intUsed o (0, 0) = (mu - (cells - min cells su), su - min cells su) := by
  unfold State.releaseInt
  rw [h]
  exact mgetD_mput_self _ _ _ _

/-- Settles O23: both uses after a release (`usesLowered_get_shared`, `usesLowered_get_min`, `releaseInt_intUsed`), and arithmetic. -/
theorem accountReleasesSharedFirst : Obligations.AccountReleasesSharedFirst := by
  refine ⟨?_, ?_⟩
  · rintro s n q cells colour _ rfl hn hq hheld
    have hf : qSlot n q < 2 ^ 20 := by
      unfold qSlot
      omega
    rw [releaseQ_get_kept s n q cells colour (releaseKeeps_queue_shared_used hf),
      releaseQ_get_kept s n q cells colour (releaseKeeps_queue_min_used hf), usesLowered_get_shared s cells hf,
      usesLowered_get_min s cells hf]
    omega
  · intro s o cells mu su huses hheld
    rw [releaseInt_intUsed cells huses, Prod.mk.injEq, Prod.mk.injEq]
    omega

/-! ### Matching, scheduling and sending (R172, R175, R179, R187, R205, R213) -/

/-- A port in service whose frame has at most 64 ns to send, with no queue named, names the one that the scheduler picks (R205). -/
theorem schedDecision_names {s b : State} {n q : Nat} (hserves : s.inService n = true) (hunnamed : (s.ptx n).named = none)
    (hnear : (s.ptx n).txPkt = none ∨ (s.ptx n).endAt ≤ s.ft * 1000 + 64000)
    (hpick : (s.gateWaits n (max s.ft (ceilDiv (s.ptx n).endAt 1000))).schedPick n (max s.ft (ceilDiv (s.ptx n).endAt 1000)) =
      some (q, b)) : schedDecision s n = b.modTx n fun x => { x with named := some q } := by
  have hdecides : ¬ ((!s.inService n) = true ∨ (s.ptx n).named.isSome = true ∨
      ((s.ptx n).txPkt.isSome = true ∧ s.ft * 1000 + 64000 < (s.ptx n).endAt)) := by
    rcases hnear with hidle | hlate
    · simp [hserves, hunnamed, hidle]
    · simp [hserves, hunnamed, hlate]
  unfold schedDecision
  dsimp only
  rw [if_neg hdecides, hpick]

/-- The last cell of a packet has left: its frame ends and its account is freed (R175, R176). -/
theorem packetTransmitted_whole {s : State} {n id : Nat} {x : Pkt} (hsends : (s.ptx n).txPkt = some id)
    (hended : (s.ptx n).endAt ≤ s.ft * 1000 + 999) (hfind : s.sw.pkts.find? (fun x => x.id = id) = some x)
    (hcrossed : x.cells ≤ x.crossed) : packetTransmitted s n = (s.endFrame n).dropPkt x := by
  unfold packetTransmitted
  rw [hsends]
  dsimp only
  rw [if_neg (Nat.not_lt.2 hended), hfind]
  exact if_neg (Nat.not_lt.2 hcrossed)

theorem packetTransmitted_idle {s : State} {n : Nat} (hidle : (s.ptx n).txPkt = none) : packetTransmitted s n = s := by
  unfold packetTransmitted
  rw [hidle]

/-- Each multiple of the interval is a sample FT of every queue of every configured port (R213). -/
theorem queueSample_due {s : State} {t : Nat} (hon : s.get E.sched_sample_interval.s ≠ 0)
    (ht : t = s.ft - s.ft % s.get E.sched_sample_interval.s) (hnew : s.qs.sampleAt < t) :
    queueSample s = s.portList.foldl (fun st n => (List.range 16).foldl (fun st q => sampleQueue t st n q) st)
      { s with qs := { s.qs with sampleAt := t } } := by
  unfold queueSample
  dsimp only
  rw [if_neg hon, ← ht, if_neg (by omega)]
  rfl

/-! ### Writes of the planes, the seed and the window region (R172, R188, R190) -/

theorem staticEntry_xbar_plane_enable : StaticEntry E.xbar_plane_enable := by constructor <;> decide

theorem staticEntry_rsv_red_seed : StaticEntry E.rsv_red_seed := by constructor <;> decide

theorem staticEntry_rsv_window_region : StaticEntry E.rsv_window_region := by constructor <;> decide

/-- The rule of `xbar.plane_enable`, by evaluating which chapter's rules name the entry; those below likewise. -/
theorem writeHook_xbar_plane_enable (s : State) (w : Who) (n k i v : Nat) :
    writeHook s w E.xbar_plane_enable n k i v = some (0, planeEnableWrite s v) := rfl

theorem writeHook_rsv_red_seed (s : State) (w : Who) (n k i v : Nat) :
    writeHook s w E.rsv_red_seed n k i v = some (0, redSeedWrite s v) := rfl

theorem writeHook_rsv_window_region (s : State) (w : Who) (n k i v : Nat) :
    writeHook s w E.rsv_window_region n k i v = some (windowRegionWrite s v) := rfl

/-- A region that leaves the shared pool its least is taken while every port is Off, and the packet region follows (R190). -/
theorem windowRegionWrite_fits {s : State} {v : Nat} (hoff : s.portList.any (fun n => s.get (E.port_state.n n) != 0) = false)
    (hshared : 65536 ≤ (s.set E.rsv_window_region.s v).sharedCells) :
    windowRegionWrite s v =
      (0, (s.set E.rsv_window_region.s v).set E.rsv_packet_cells.s (s.set E.rsv_window_region.s v).packetCells) := by
  unfold windowRegionWrite
  rw [if_neg (by simp [hoff])]
  exact if_neg (Nat.not_lt.2 hshared)

/-- Settles O36, a lemma for each clause that its meaning or a test alone does not decide; a write is its entry's rule
(`StaticEntry.taken`). -/
theorem switchSendingCompletes : Obligations.SwitchSendingCompletes := by
  intro s
  refine ⟨?_, ?_, ?_, ?_, ?_, ?_, ?_, ?_, ?_, ?_⟩
  · rintro _ _ _ rfl rfl rfl
    exact complete_eq rfl
  · rintro n q _ b hserves hunnamed hnear rfl hpick
    exact complete_eq (schedDecision_names hserves hunnamed hnear hpick)
  · exact fun n id x hsends hended hfind hcrossed => complete_eq (packetTransmitted_whole hsends hended hfind hcrossed)
  · exact fun n hidle => complete_eq (packetTransmitted_idle hidle)
  · exact fun n q hempty hdue => complete_eq (if_pos ⟨hempty, hdue⟩)
  · rintro p _ _ hserves rfl rfl
    exact complete_eq (if_pos hserves)
  · exact fun t hon ht _ hnew => complete_eq (queueSample_due hon ht hnew)
  · exact fun r w v a => staticEntry_xbar_plane_enable.taken a (writeHook_xbar_plane_enable s w 0 0 _ v)
  · exact fun r w v a => staticEntry_rsv_red_seed.taken a (writeHook_rsv_red_seed s w 0 0 _ v)
  · intro r w v a hoff hshared
    refine staticEntry_rsv_window_region.taken a ?_
    rw [writeHook_rsv_window_region, windowRegionWrite_fits hoff hshared]

end Sys2Proof.Machine

/-!
PROOFS of queues, shapers, policers and gates (spec/08_queues_shapers_policers_gates.md): the two-rate three-colour marker (R209),
and the start, stop, switch and boundaries of gate lists (R215, R217, R218).
-/

namespace Sys2Proof.Machine

/-! ### Writes of a policer's rates (R209) -/

/-- A read-write entry that is not locked and whose rule refuses the value leaves the state, and answers the rule's status. -/
theorem readWrite_refused {s : State} {r : Req} {w : Who} {e : Ent} {n k h v st : Nat} (a : Accepts s r w e n k h v)
    (hplain : e.ty ≠ .domain) (hacc : e.acc = .rw) (hcls : e.cls ≠ .counter) (hreserve : e ≠ E.sequence_reserve)
    (hlocked : locked s e n (hIdx h) = false) (h0 : st ≠ 0) (hwait : st ≠ waitCode)
    (hst : writeHook s w e n k (hIdx h) v = some (st, s)) :
    exec (.write r [writeIt e n k h v]) s = .next (after s (answered s r 0x82 (writeIt e n k h v) st)) :=
  write_refused a.serves h0 hwait (reachesManager_other (managed_readWrite a hacc hreserve))
    ((writeItem_accepts a hplain).trans (writeValue_hook a.still (by simp [hacc]) (by simp [hcls]) hlocked hst))

/-- A flow handle has no created state: its fields are writable in every state (R211, R220). -/
theorem locked_flow {e : Ent} (hidx : e.idx = 0x4100) (s : State) (n i : Nat) : locked s e n i = false := by
  simp [locked, noPort, hidx, typeOfTemplate, cfgState]

/-- The rule of `policer.cir`, by evaluating which chapter's rules name the entry; that of `policer.pir` likewise. -/
theorem writeHook_policer_cir (s : State) (w : Who) (n k i v : Nat) : writeHook s w E.policer_cir n k i v =
    some (gate (decide (s.get (E.policer_pir.h i) < v)) 0x06 s (s.set (E.policer_cir.h i) v)) := rfl

theorem writeHook_policer_pir (s : State) (w : Who) (n k i v : Nat) : writeHook s w E.policer_pir n k i v =
    some (gate (decide (v < s.get (E.policer_cir.h i))) 0x06 s (s.set (E.policer_pir.h i) v)) := rfl

theorem gate_refuses {p : Prop} [Decidable p] (hp : p) (st : Nat) (s t : State) : gate (decide p) st s t = (st, s) :=
  if_pos (decide_eq_true hp)

theorem policerCir_above_pir_refused {s : State} {r : Req} {w : Who} {h v : Nat} (a : Accepts s r w E.policer_cir 0 0 h v)
    (habove : s.get (E.policer_pir.h (hIdx h)) < v) : exec (.write r [writeIt E.policer_cir 0 0 h v]) s =
      .next (after s (answered s r 0x82 (writeIt E.policer_cir 0 0 h v) 0x06)) := by
  refine readWrite_refused a (by decide) rfl (by decide) (by decide) (locked_flow rfl s 0 _) (by decide) (by decide) ?_
  rw [writeHook_policer_cir, gate_refuses habove]

theorem policerPir_below_cir_refused {s : State} {r : Req} {w : Who} {h v : Nat} (a : Accepts s r w E.policer_pir 0 0 h v)
    (hbelow : v < s.get (E.policer_cir.h (hIdx h))) : exec (.write r [writeIt E.policer_pir 0 0 h v]) s =
      .next (after s (answered s r 0x82 (writeIt E.policer_pir 0 0 h v) 0x06)) := by
  refine readWrite_refused a (by decide) rfl (by decide) (by decide) (locked_flow rfl s 0 _) (by decide) (by decide) ?_
  rw [writeHook_policer_pir, gate_refuses hbelow]

/-! ### Refills (R206, R209) -/

theorem refill_remainder_lt (rate rem dt : Nat) : (refill rate rem dt).2 < 15625 := Nat.mod_lt _ (by decide)

/-- What is added and what is carried are together exactly what the rate gives and what was carried before. -/
theorem refill_exact (rate rem dt : Nat) :
    15625 * (refill rate rem dt).1 + (refill rate rem dt).2 = 128 * rate * dt + rem := by
  rw [Nat.mul_comm 128 rate]
  exact Nat.div_add_mod _ _

/-- A refill is the one division with remainder of its sum. -/
theorem refill_eq_of_sum {rate rem dt q x : Nat} (hx : x < 15625) (hsum : 15625 * q + x = 128 * rate * dt + rem) :
    refill rate rem dt = (q, x) := by
  have hexact := refill_exact rate rem dt
  have hlt := refill_remainder_lt rate rem dt
  rw [Prod.ext_iff]
  omega

/-- A refill may be split at any time: the carried remainder makes up for the division of the first part. -/
theorem refill_add (rate rem dt du : Nat) : refill rate rem (dt + du) =
    ((refill rate rem dt).1 + (refill rate (refill rate rem dt).2 du).1, (refill rate (refill rate rem dt).2 du).2) := by
  have hfirst := refill_exact rate rem dt
  have hrest := refill_exact rate (refill rate rem dt).2 du
  refine refill_eq_of_sum (refill_remainder_lt _ _ _) ?_
  rw [Nat.mul_add (128 * rate)]
  omega

/-! ### The colour of a packet (R209) -/

/-- What policer i's committed bucket holds at FT t, before the packet of that FT takes its bytes. -/
def State.committedTokens (s : State) (i t : Nat) : Nat :=
  min (65536 * s.get (E.policer_cbs.h i))
    ((s.pol i).tc + (refill (s.get (E.policer_cir.h i)) (s.pol i).rc (t - (s.pol i).last)).1)

/-- What its peak bucket holds then. -/
def State.peakTokens (s : State) (i t : Nat) : Nat :=
  min (65536 * s.get (E.policer_pbs.h i))
    ((s.pol i).tp + (refill (s.get (E.policer_pir.h i)) (s.pol i).rp (t - (s.pol i).last)).1)

/-- The colour that policer i takes a packet to arrive with: green where it is not aware of colours. -/
def State.arrivingColour (s : State) (i arriving : Nat) : Nat := if s.getB (E.policer_aware.h i) then arriving else 0

/-- s with policer i's buckets refilled up to FT t and left with tc and tp tokens. -/
def State.putBuckets (s : State) (i t tc tp : Nat) : State :=
  { s with qs := { s.qs with pol := mput s.qs.pol i ⟨tc, tp,
    (refill (s.get (E.policer_cir.h i)) (s.pol i).rc (t - (s.pol i).last)).2,
    (refill (s.get (E.policer_pir.h i)) (s.pol i).rp (t - (s.pol i).last)).2, max t (s.pol i).last⟩ } }

section
variable (s : State) (i t tc tp : Nat)

@[simp] theorem State.putBuckets_tc : ((s.putBuckets i t tc tp).pol i).tc = tc := congrArg PolicerRt.tc (mgetD_mput_self _ _ _ _)

@[simp] theorem State.putBuckets_tp : ((s.putBuckets i t tc tp).pol i).tp = tp := congrArg PolicerRt.tp (mgetD_mput_self _ _ _ _)

@[simp] theorem State.putBuckets_last : ((s.putBuckets i t tc tp).pol i).last = max t (s.pol i).last :=
  congrArg PolicerRt.last (mgetD_mput_self _ _ _ _)

@[simp] theorem State.putBuckets_cat : (s.putBuckets i t tc tp).cat = s.cat := rfl

end

section
variable (s : State) (i len t arriving : Nat)

/-- The pseudo-code of R209: a red packet takes no tokens, a yellow one takes them of the peak bucket, a green one of both. -/
theorem mark3_eq : s.mark3 i len t arriving =
    if s.arrivingColour i arriving = 2 ∨ s.peakTokens i t < 65536 * len then
      (2, s.putBuckets i t (s.committedTokens i t) (s.peakTokens i t))
    else if s.arrivingColour i arriving = 1 ∨ s.committedTokens i t < 65536 * len then
      (1, s.putBuckets i t (s.committedTokens i t) (s.peakTokens i t - 65536 * len))
    else (0, s.putBuckets i t (s.committedTokens i t - 65536 * len) (s.peakTokens i t - 65536 * len)) := by
  simp only [State.mark3, State.putBuckets, State.committedTokens, State.peakTokens, State.arrivingColour, Nat.mul_comm 65536]

theorem mark3_puts : ∃ colour tc tp, s.mark3 i len t arriving = (colour, s.putBuckets i t tc tp) := by
  rw [mark3_eq]
  split
  · exact ⟨_, _, _, rfl⟩
  · split <;> exact ⟨_, _, _, rfl⟩

theorem mark3_cat : (s.mark3 i len t arriving).2.cat = s.cat := by
  obtain ⟨colour, tc, tp, hputs⟩ := mark3_puts s i len t arriving
  rw [hputs, State.putBuckets_cat]

end

section
variable {s : State} {i len t arriving : Nat}

theorem mark3_last (hlast : (s.pol i).last ≤ t) : ((s.mark3 i len t arriving).2.pol i).last = t := by
  obtain ⟨colour, tc, tp, hputs⟩ := mark3_puts s i len t arriving
  rw [hputs, State.putBuckets_last, max_eq_left hlast]

theorem mark3_red (hred : s.arrivingColour i arriving = 2 ∨ s.peakTokens i t < 65536 * len) :
    s.mark3 i len t arriving = (2, s.putBuckets i t (s.committedTokens i t) (s.peakTokens i t)) := by
  rw [mark3_eq, if_pos hred]

theorem mark3_yellow (hred : ¬ (s.arrivingColour i arriving = 2 ∨ s.peakTokens i t < 65536 * len))
    (hyellow : s.arrivingColour i arriving = 1 ∨ s.committedTokens i t < 65536 * len) : s.mark3 i len t arriving =
      (1, s.putBuckets i t (s.committedTokens i t) (s.peakTokens i t - 65536 * len)) := by
  rw [mark3_eq, if_neg hred, if_pos hyellow]

theorem mark3_green (hred : ¬ (s.arrivingColour i arriving = 2 ∨ s.peakTokens i t < 65536 * len))
    (hyellow : ¬ (s.arrivingColour i arriving = 1 ∨ s.committedTokens i t < 65536 * len)) : s.mark3 i len t arriving =
      (0, s.putBuckets i t (s.committedTokens i t - 65536 * len) (s.peakTokens i t - 65536 * len)) := by
  rw [mark3_eq, if_neg hred, if_neg hyellow]

/-- The peak bucket never holds more than PBS. -/
theorem mark3_longer_than_pbs (hlong : s.get (E.policer_pbs.h i) < len) : (s.mark3 i len t arriving).1 = 2 := by
  have hpeak : s.peakTokens i t ≤ 65536 * s.get (E.policer_pbs.h i) := min_le_left _ _
  rw [mark3_red (.inr (by omega))]

/-- The committed bucket never holds more than CBS. -/
theorem mark3_longer_than_cbs (hlong : s.get (E.policer_cbs.h i) < len) : (s.mark3 i len t arriving).1 ≠ 0 := by
  have hcommitted : s.committedTokens i t ≤ 65536 * s.get (E.policer_cbs.h i) := min_le_left _ _
  have hyellow : s.arrivingColour i arriving = 1 ∨ s.committedTokens i t < 65536 * len := .inr (by omega)
  rw [mark3_eq, if_pos hyellow]
  split <;> simp

end

/-- A policer that goes live has full buckets (R209). -/
theorem makeLive_buckets (s : State) (i part : Nat) :
    (s.makeLive 4 i part).pol i = (s.makeLive 4 i part).polFull i := mgetD_mput_self _ _ _ _

theorem polFull_tc (s : State) (i : Nat) : (s.polFull i).tc = 65536 * s.get (E.policer_cbs.h i) := Nat.mul_comm _ _

theorem polFull_tp (s : State) (i : Nat) : (s.polFull i).tp = 65536 * s.get (E.policer_pbs.h i) := Nat.mul_comm _ _

/-- Settles O22: the refused rates, the division of a refill (`refill_exact`, `refill_add`), the branches of the pseudo-code
(`mark3_eq`) and the buckets at creation (`makeLive_buckets`). -/
theorem twoRateMarker : Obligations.TwoRateMarker := by
  refine ⟨fun s r w h v => ⟨policerCir_above_pir_refused, policerPir_below_cir_refused⟩, fun rate rem dt du _ => ?_, ?_, ?_⟩
  · exact ⟨refill_exact rate rem dt, refill_remainder_lt rate rem dt, by rw [refill_add], by rw [refill_add]⟩
  · rintro s i len t arriving _ _ _ _ _ _ hlast rfl rfl rfl rfl rfl rfl
    refine ⟨fun hred => ?_, fun hred hyellow => ?_, fun hred hyellow => ?_, mark3_last hlast, mark3_cat s i len t arriving,
      mark3_longer_than_pbs, mark3_longer_than_cbs⟩
    · rw [mark3_red hred]
      exact ⟨rfl, s.putBuckets_tp i t _ _, s.putBuckets_tc i t _ _⟩
    · rw [mark3_yellow hred hyellow]
      exact ⟨rfl, s.putBuckets_tp i t _ _, s.putBuckets_tc i t _ _⟩
    · rw [mark3_green hred hyellow]
      exact ⟨rfl, s.putBuckets_tp i t _ _, s.putBuckets_tc i t _ _⟩
  · rintro s _ i part rfl
    rw [makeLive_buckets]
    exact ⟨polFull_tc _ i, polFull_tp _ i⟩

/-! ### Writes of gate lists (R217, R218) -/

theorem requestEntry_gate_stop : RequestEntry E.gate_stop := by constructor <;> decide

theorem requestEntry_gate_switch_at : RequestEntry E.gate_switch_at := by constructor <;> decide

/-- The rule of `gate.stop`, by evaluating which chapter's rules name the entry; that of `gate.switch_at` likewise. -/
theorem writeHook_gate_stop (s : State) (w : Who) (n k i v : Nat) :
    writeHook s w E.gate_stop n k i v = some (onOne v s (gateStop s i)) := rfl

theorem writeHook_gate_switch_at (s : State) (w : Who) (n k i v : Nat) :
    writeHook s w E.gate_switch_at n k i v = some (gateSwitchAt s i v) := rfl

theorem onOne_one (s : State) (x : Nat × State) : onOne 1 s x = x := rfl

/-- An FT that passes the tests of R77 is taken in the right state. -/
theorem ftTestIn_free {s : State} {ft : Nat} (htest : s.ftTest ft = 0) : s.ftTestIn ft false = 0 := by
  simp [State.ftTestIn, htest]

/-- A Created list of a port that no other list holds is Scheduled for its start (R217). -/
theorem gateStart_taken {s : State} {slot ft : Nat} (hcreated : s.get (E.gate_state.h slot) = 0)
    (hport : s.isPort (s.get (E.gate_port.h slot)) = true)
    (halone : (s.liveIdx 9).any (fun i => i ≠ slot ∧ s.get (E.gate_port.h i) = s.get (E.gate_port.h slot) ∧
      (s.get (E.gate_state.h i) = 1 ∨ s.get (E.gate_state.h i) = 2)) = false) (htest : s.ftTest ft = 0) :
    gateStart s slot ft = (0, (s.schedule ft (.gateStart slot)).hset (E.gate_state.h slot) 9 slot 1) := by
  unfold gateStart
  dsimp only
  rw [hcreated, hport, halone]
  exact if_neg (not_not.2 (ftTestIn_free htest))

/-- A Scheduled list returns to Created (R217). -/
theorem gateStop_scheduled {s : State} {slot : Nat} (hscheduled : (gateCatch s slot).get (E.gate_state.h slot) = 1) :
    gateStop s slot = (0, ((gateCatch s slot).unschedule (.gateStart slot)).hset (E.gate_state.h slot) 9 slot 0) :=
  if_pos hscheduled

/-- A Running list ends (R217). -/
theorem gateStop_running {s : State} {slot : Nat} (hrunning : (gateCatch s slot).get (E.gate_state.h slot) = 2) :
    gateStop s slot = (0, gateEnd (gateCatch s slot) slot) := by
  simp [gateStop, hrunning]

theorem gateEnd_unarmed {s : State} {slot : Nat} (hnone : (s.gateRt slot).pend = none) :
    gateEnd s slot = gateHalt (s.unschedule (.gateSwitch slot)) slot := by
  simp only [gateEnd, hnone]

section
variable {s : State} {slot : Nat} (hrunning : s.get (E.gate_state.h slot) = 2) (hunarmed : (s.gateRt slot).pend = none)
  (hunscheduled : s.schedFt (.gateSwitch slot) = none)
include hrunning hunarmed hunscheduled

/-- A Running list with no switch pending and none scheduled takes a request for now as it lands (R218). -/
theorem gateSwitchAt_now {a : State} (hland : gateLand s slot = some a) : gateSwitchAt s slot 0 = (0, a) := by
  simp [gateSwitchAt, hrunning, hunarmed, hunscheduled, hland]

/-- It schedules a request that names an FT (R218). -/
theorem gateSwitchAt_later {ft : Nat} (hlater : ft ≠ 0) (htest : s.ftTest ft = 0) :
    gateSwitchAt s slot ft = (0, s.schedule ft (.gateSwitch slot)) := by
  simp [gateSwitchAt, hrunning, hunarmed, hunscheduled, hlater, ftTestIn_free htest]

end

/-! ### Starts, switches and boundaries of gate lists (R215, R217, R218) -/

theorem gateStartFire_due {s : State} {ft seq slot : Nat} (hdue : s.dueAct = some ⟨ft, seq, .gateStart slot⟩) :
    gateStartFire s = gateRun (s.unschedule (.gateStart slot)) slot ft none := by
  rw [gateStartFire, hdue]

theorem gateSwitchLand_due {s a : State} {ft seq slot : Nat} (hdue : s.dueAct = some ⟨ft, seq, .gateSwitch slot⟩)
    (hland : gateLand (s.unschedule (.gateSwitch slot)) slot = some a) : gateSwitchLand s = a := by
  rw [gateSwitchLand, hdue]
  dsimp only
  rw [hland]

section
variable {s : State} {n slot : Nat} (hruns : s.portGate n = some slot) (hcome : (s.gateRt slot).boundary ≤ s.ft)
include hruns hcome

/-- Without a pending switch a boundary that has come moves to the list's next entry (R215). -/
theorem gateBoundary_next (hunarmed : (s.gateRt slot).pend = none) :
    gateBoundary s n =
      (((s.touchPort n).set (E.gate_entry.h slot) (s.gateAfter slot (s.get (E.gate_entry.h slot)))).setGate slot
        { s.gateRt slot with boundary := (s.gateRt slot).boundary +
          (s.gateEnt slot (s.gateAfter slot (s.get (E.gate_entry.h slot)))).1 }).touchPort n := by
  simp [gateBoundary, hruns, Nat.not_lt.2 hcome, hunarmed, State.gateNext]

/-- At the end of the segment of a pending switch the alternate takes over (R218). -/
theorem gateBoundary_switch {alt : Nat} (harmed : (s.gateRt slot).pend = some alt)
    (hlast : s.get (E.gate_entry.h slot) = (s.gateRt slot).last) :
    gateBoundary s n = gateRun (gateHalt (s.inc (E.gate_switches.h slot) 1) slot) alt (s.gateRt slot).boundary
      (some (slot, (gateHalt (s.inc (E.gate_switches.h slot) 1) slot).cyc.n)) := by
  simp [gateSwitch, gateBoundary, hruns, Nat.not_lt.2 hcome, harmed, hlast, State.gateNext]

end

/-- Settles O37, a lemma for each rule and each meaning on the clause's case; a write is its entry's rule (`RequestEntry.taken`). -/
theorem gatesComplete : Obligations.GatesComplete := by
  intro s
  refine ⟨?_, ?_, ?_, ?_, ?_, ?_, ?_, ?_, ?_⟩
  · intro r w h v a hcreated hport halone htest
    refine requestEntry_gate_start.taken a ?_
    rw [writeHook_gate_start, gateStart_taken hcreated hport halone htest]
  · rintro r w h _ a rfl hscheduled
    refine requestEntry_gate_stop.taken a ?_
    rw [writeHook_gate_stop, onOne_one, gateStop_scheduled hscheduled]
  · rintro r w h _ a rfl hrunning hunarmed
    refine requestEntry_gate_stop.taken a ?_
    rw [writeHook_gate_stop, onOne_one, gateStop_running hrunning, gateEnd_unarmed hunarmed]
  · intro r w h v a hrunning hunarmed hunscheduled hlater htest
    refine requestEntry_gate_switch_at.taken a ?_
    rw [writeHook_gate_switch_at, gateSwitchAt_later hrunning hunarmed hunscheduled hlater htest]
  · rintro r w h _ b a hrunning hunarmed hunscheduled rfl hland
    refine requestEntry_gate_switch_at.taken a ?_
    rw [writeHook_gate_switch_at, gateSwitchAt_now hrunning hunarmed hunscheduled hland]
  · exact fun ft seq slot hdue => complete_eq (congrArg State.lockFollow (gateStartFire_due hdue))
  · exact fun ft seq slot a hdue hland => complete_eq (congrArg State.lockFollow (gateSwitchLand_due hdue hland))
  · rintro n slot _ _ hruns hcome hunarmed rfl rfl
    exact complete_eq (gateBoundary_next hruns hcome hunarmed)
  · intro n slot alt a hruns hcome harmed hlast ha
    rw [ha]
    exact complete_eq (gateBoundary_switch hruns hcome harmed hlast)

end Sys2Proof.Machine

/-!
PROOFS of the Confluence collectives (spec/09_confluence_collectives.md): arming and disarming (R229, R230), completion of
segments (R241), epilogues (R249, R327) and laggards (R258).
-/

namespace Sys2Proof.Machine

/-! ### Writes of collectives (R229, R230) -/

theorem requestEntry_collective_arm : RequestEntry E.collective_arm := by constructor <;> decide

theorem requestEntry_collective_disarm : RequestEntry E.collective_disarm := by constructor <;> decide

/-- The rule of `collective.arm`, by evaluating which chapter's rules name the entry; that of `collective.disarm` likewise. -/
theorem writeHook_collective_arm (s : State) (w : Who) (n k i v : Nat) :
    writeHook s w E.collective_arm n k i v = some (armWrite s i v) := rfl

theorem writeHook_collective_disarm (s : State) (w : Who) (n k i v : Nat) :
    writeHook s w E.collective_disarm n k i v = some (collectiveDisarm s i v) := rfl

/-- Outside a re-cabling window that stops it, arming is the chapter's own (R559). -/
theorem armWrite_unblocked {s : State} {i : Nat} (hopen : recableBlocks s i = false) (v : Nat) :
    armWrite s i v = collectiveArm s i v := by
  simp [armWrite, hopen]

/-- A template's note of its holders writes two entries of the template (R325, R349). -/
theorem State.get_tmplSync_ne (s : State) (i : Nat) (l : Loc) (hholders : l.key ≠ (E.template_holders.h i).key)
    (hstate : l.key ≠ (E.template_state.h i).key) : (s.tmplSync i).get l = s.get l := by
  unfold State.tmplSync
  extract_lets jobs colls s1 v
  have hs1 : s1.get l = s.get l := s.get_set_ne _ l _ hholders
  split
  · exact hs1
  · exact (State.get_hset_ne _ _ l _ _ _ hstate).trans hs1

/-- The granules free in the Basin region are no entry of a collective or of a template. -/
theorem basinFree_key_ne {e : Ent} (he : E.confluence_basin_free.idx < e.idx) {i : Nat} (hi : i < 2 ^ 20) :
    E.confluence_basin_free.s.key ≠ (e.h i).key := by
  refine h_key_ne (e := E.confluence_basin_free) (i := 0) ?_ (by decide) hi
  simp only [E.confluence_basin_free] at he ⊢
  omega

section
variable (s : State) {e : Ent} (he : E.confluence_basin_free.idx < e.idx) {i : Nat} (hi : i < 2 ^ 20)
include he hi

theorem State.basinFree_set (v : Nat) :
    (s.set (e.h i) v).get E.confluence_basin_free.s = s.get E.confluence_basin_free.s :=
  s.get_set_ne _ _ v (basinFree_key_ne he hi)

theorem State.basinFree_hset (t v : Nat) :
    (s.hset (e.h i) t i v).get E.confluence_basin_free.s = s.get E.confluence_basin_free.s :=
  s.basinFree_set he hi v

end

theorem State.basinFree_tmplSync (s : State) {i : Nat} (hi : i < 2 ^ 20) :
    (s.tmplSync i).get E.confluence_basin_free.s = s.get E.confluence_basin_free.s :=
  s.get_tmplSync_ne i _ (basinFree_key_ne (by decide) hi) (basinFree_key_ne (by decide) hi)

theorem State.basinFree_peak (s : State) (v : Nat) :
    (s.set E.confluence_basin_peak.s v).get E.confluence_basin_free.s = s.get E.confluence_basin_free.s :=
  s.get_set_ne _ _ v (by decide)

section
variable {s b : State} {i x : Nat} {bufs : List (Nat × Nat)}

/-- A Created collective that passes the tests of R230 and gets its Basin is Armed, the Basin's granules taken from the region. -/
theorem collectiveArm_arms (hi : i < 2 ^ 20) (hcreated : s.get (E.collective_state.h i) = 0) (hcheck : s.armCheck i = 0)
    (hbasin : allocBasin s i = (some (x, bufs), b)) :
    ∃ a, collectiveArm s i 1 = (0, a) ∧ a.get (E.collective_state.h i) = 1 ∧
      a.get E.confluence_basin_free.s = b.get E.confluence_basin_free.s - x := by
  unfold collectiveArm
  rw [if_neg one_ne_zero, if_neg (not_not.2 hcreated), hcheck, hbasin]
  dsimp -zeta only
  extract_lets c taken held peak path segments slot basin wide stride result _ run limit armed epi
  have hpeak : peak.get E.confluence_basin_free.s = b.get E.confluence_basin_free.s - x := by
    unfold peak
    split
    · exact (State.basinFree_peak _ _).trans (State.get_sub_self _ _ _)
    · exact State.get_sub_self _ _ _
  have hfree : armed.get E.confluence_basin_free.s = b.get E.confluence_basin_free.s - x := calc
    _ = limit.get E.confluence_basin_free.s := limit.basinFree_hset (by decide) hi 1 1
    _ = run.get E.confluence_basin_free.s := run.basinFree_set (by decide) hi _
    _ = result.get E.confluence_basin_free.s := rfl
    _ = basin.get E.confluence_basin_free.s := basin.basinFree_set (by decide) hi _
    _ = slot.get E.confluence_basin_free.s := slot.basinFree_set (by decide) hi _
    _ = segments.get E.confluence_basin_free.s := segments.basinFree_set (by decide) hi _
    _ = path.get E.confluence_basin_free.s := path.basinFree_set (by decide) hi _
    _ = peak.get E.confluence_basin_free.s := peak.basinFree_set (by decide) hi _
    _ = _ := hpeak
  have hstate : armed.get (E.collective_state.h i) = 1 := State.get_hset_self _ _ _ _ _
  have hj : hIdx epi < 2 ^ 20 := Nat.mod_lt _ (by decide)
  refine ⟨_, rfl, ?_, ?_⟩
  · split
    · exact hstate
    · exact (State.get_tmplSync_ne _ _ _ (h_key_ne (by decide) hi hj) (h_key_ne (by decide) hi hj)).trans hstate
  · split
    · exact hfree
    · exact (State.basinFree_tmplSync _ hj).trans hfree

end

/-- An Armed collective returns to Created and its Basin goes back (R229). -/
theorem collectiveDisarm_armed {s : State} {i : Nat} (harmed : s.get (E.collective_state.h i) = 1) :
    collectiveDisarm s i 1 = (0, collRelease (s.hset (E.collective_state.h i) 1 i 0) i) := by
  simp [collectiveDisarm, harmed]

/-! ### Completion of segments (R241) -/

theorem segmentDone_unreserved {s : State} {i : Nat} (hpart : (s.weirRunning && s.weirPart (s.partOf 1 i)) = false) (seg : Nat) :
    segmentDone s i seg = segmentReductionDone s i seg := by
  simp [segmentDone, hpart]

section
variable {s : State} {i seg : Nat} {g : Seg} (hopen : g.stage = 0) (hlive : (s.liveAt 1 i).isSome = true)
  (hready : s.segReady i g = true)
include hopen hlive hready

/-- An open segment with every contributor's granules passes the test that holds a reduction back. -/
theorem reduction_begins : ¬ (g.stage ≠ 0 ∨ (s.liveAt 1 i).isNone ∨ !s.segReady i g) := by
  simp [hopen, hready, Option.isSome_iff_ne_none.1 hlive]

variable (hfind : s.seg? i seg = some g)
include hfind

/-- A collective that reduces has the result of a segment of its own rounded and sent. -/
theorem segmentReductionDone_owned (hty : s.collTy i ∉ [2, 3, 5, 6, 7]) (howns : s.ownsSeg i seg = true) :
    segmentReductionDone s i seg = s.ownResult i g := by
  simp only [List.mem_cons, List.not_mem_nil, or_false, not_or] at hty
  obtain ⟨h2, h3, h5, h6, h7⟩ := hty
  simp only [segmentReductionDone, hfind, if_neg (reduction_begins hopen hlive hready), if_pos howns]

/-- A segment of an all-gather or of a broadcast ends, and its members are told the limit. -/
theorem segmentReductionDone_copied (hty : s.collTy i = 2 ∨ s.collTy i = 3) :
    segmentReductionDone s i seg = ((s.endSeg i g 0).limitNotes i seg (s.collOut i) 0).checkRun i := by
  rcases hty with hty | hty <;>
    simp only [segmentReductionDone, hfind, if_neg (reduction_begins hopen hlive hready), hty]

/-- The segment of a dispatch ends. -/
theorem segmentReductionDone_dispatched (hty : s.collTy i = 6) :
    segmentReductionDone s i seg = (s.endSeg i g 0).checkRun i := by
  simp only [segmentReductionDone, hfind, if_neg (reduction_begins hopen hlive hready), hty]

end

/-! ### Epilogues and laggards (R249, R258, R327) -/

/-- An epilogue's result that has come back is the segment's. -/
theorem epilogueResult_returned {s : State} {i seg st : Nat} {g : Seg} {o : EpiOut} (hfind : s.seg? i seg = some g)
    (hback : g.stage = 4) (hret : g.ret = some (st, o)) :
    epilogueResult s i seg = s.finish i g st (s.collOut i) (if st = 0 then o.bytes else []) := by
  simp only [epilogueResult, hfind, hback, hret]

/-- An engine with a free place hands over the epilogue it has held longest. -/
theorem epiloguePlaceFree_held {s : State} {e : Nat} {x : Nat × Nat × List Nat} (hroom : s.epiJobs e < 64)
    (hfind : s.epiHeld.find? (fun y => s.get (E.collective_engine.h y.1) == e) = some x) :
    epiloguePlaceFree s e =
      ({ s with epiHeld := s.epiHeld.filter (fun y => y.1 != x.1 || y.2.1 != x.2.1) }.modSeg x.1 x.2.1
        fun y => { y with stage := 1 }).sendEpilogue x.1 x.2.1 x.2.2 := by
  simp only [epiloguePlaceFree, if_neg (Nat.not_le.2 hroom), hfind]

/-- The position that a laggard timeout reports: that of the first contributor that owes granules, 0xFFFF where it is no member or
none owes any. -/
def State.latePos (s : State) (i seg : Nat) (g : Seg) : Nat :=
  match (s.needs i seg).find? (fun y => decide (mgetD g.n y.1 0 < y.2)) with
  | some p => if p.1 < 1024 then p.1 else 0xFFFF
  | none => 0xFFFF

/-- A segment whose timer has run out before its reduction is complete is aborted. -/
theorem laggardTimeout_expired {s : State} {i seg : Nat} {g : Seg} (hfind : s.seg? i seg = some g) (htimer : g.timeout ≠ 0)
    (hdue : g.first + g.timeout ≤ s.ft) (hwaits : g.stage = 0 ∨ g.stage = 3) :
    laggardTimeout s i seg =
      ((s.set (E.collective_timeout_position.h i) (s.latePos i seg g)).inc (E.collective_timeouts.h i) 1).abortSeg i g 0x0D := by
  have hexpired : ¬ (g.timeout = 0 ∨ s.ft < g.first + g.timeout ∨ (g.stage ≠ 0 ∧ g.stage ≠ 3)) := by omega
  simp only [laggardTimeout, hfind, if_neg hexpired]
  rfl

/-- Settles O38, a lemma for each rule and each meaning on the clause's case; a write is its entry's rule (`RequestEntry.taken`). -/
theorem collectivesComplete : Obligations.CollectivesComplete := by
  intro s
  refine ⟨?_, ?_, ?_, ?_, ?_, ?_⟩
  · intro r w h x bufs b hacc hopen hcreated hcheck hbasin
    have hslot : hIdx h < 2 ^ 20 := Nat.mod_lt h (by decide)
    obtain ⟨a, harm, hstate, hfree⟩ := collectiveArm_arms hslot hcreated hcheck hbasin
    refine ⟨a, requestEntry_collective_arm.taken hacc ?_, hstate, hfree⟩
    rw [writeHook_collective_arm, armWrite_unblocked hopen, harm]
  · rintro r w h _ hacc rfl harmed
    refine requestEntry_collective_disarm.taken hacc ?_
    rw [writeHook_collective_disarm, collectiveDisarm_armed harmed]
  · intro i seg g hpart hfind hopen hlive hready
    have hdone := segmentDone_unreserved hpart seg
    exact ⟨fun hty howns => complete_eq (hdone.trans (segmentReductionDone_owned hopen hlive hready hfind hty howns)),
      fun hty => complete_eq (hdone.trans (segmentReductionDone_copied hopen hlive hready hfind hty)),
      fun hty => complete_eq (hdone.trans (segmentReductionDone_dispatched hopen hlive hready hfind hty))⟩
  · exact fun i seg st x o hfind hback hret => complete_eq (epilogueResult_returned hfind hback hret)
  · exact fun e x hroom hfind => complete_eq (epiloguePlaceFree_held hroom hfind)
  · rintro i seg _ x hfind htimer hdue hwaits rfl
    exact complete_eq (laggardTimeout_expired hfind htimer hdue hwaits)

end Sys2Proof.Machine

/-!
PROOFS of the Mills (spec/12_mills.md): the start of a queued job (R327), the completion (R330) and the timeout (R328) of a
job, and the errors that strike a Mill (R346, R347).
-/

namespace Sys2Proof.Machine

/-! ### Jobs (R327, R328, R330) -/

/-- The Mills that a start asks for: the fixed set of a pinned job, those of the dispatcher otherwise. -/
def State.askedMills (s : State) (j : Job) (mills : List Nat) : List Nat :=
  if j.pinned then (s.pinSet (max 1 (dPins j.desc))).getD [] else dedup mills

/-- The queued jobs of no Weir partition that come before job `id` of class `cls`: those of a higher class, and those of its class
that were accepted earlier. -/
def State.jobsBefore (s : State) (id cls : Nat) : List Job :=
  s.mill.jobs.filter fun x => x.state == 0 && x.id != id && s.weirPart x.part == false &&
    (decide (cls < x.cls) || (x.cls == cls && decide (x.id < id)))

/-- Mills that take their shares of a job. -/
def State.takeMills (s : State) (mills : List Nat) : State :=
  mills.foldl (fun (st : State) x => ((st.set (E.mill_state.n x) 2).inc (E.mill_shares.n x) 1).add
    (E.mill_die_queue.n (x / 68)) 1) s

/-- A job in the place of the one with its number. -/
def State.putJob (s : State) (id : Nat) (j : Job) : State :=
  s.modMill fun m => { m with jobs := m.jobs.map fun x => if x.id = id then j else x }

/-- A queued job that asks for free Mills, with no job before it, takes them and begins to haul what it reads. -/
theorem millJobStart_starts {s : State} {id : Nat} {mills want : List Nat} {j : Job}
    (hfind : s.mill.jobs.find? (fun j => j.id = id ∧ j.state = 0) = some j) (hwant : want = s.askedMills j mills)
    (hsome : want ≠ []) (hfree : want.all (fun x => s.millFree x && (s.weirPart j.part || !s.millReserved x)) = true)
    (hweir : s.weirPart j.part = false) (hfirst : s.jobsBefore id j.cls = []) {idle : Nat}
    (hidle : idle = ((List.range 272).filter fun x => s.millFree x).length) :
    millJobStart s id mills =
      ((s.takeMills want).putJob id { j with state := 1, mills := want, free := idle }).haul
        { j with state := 1, mills := want, free := idle } := by
  rw [State.askedMills] at hwant
  rw [State.jobsBefore] at hfirst
  rw [hweir] at hfree
  have hasked : (!decide (want ≠ [] ∧ True)) = false := by simp [hsome]
  simp only [millJobStart, hfind, hweir, ← hwant, ← hidle, hfree, hfirst, hasked, Bool.false_eq_true, if_false, List.any_nil,
    Bool.false_and, or_self]
  rfl

/-- Each Mill of a job counts the cycles of its share. -/
def State.busyMills (s : State) (mills : List Nat) (cycles : Nat) : State :=
  mills.foldl (fun (st : State) x => st.inc (E.mill_busy_cycles.n x) cycles) s

/-- The output of a job, in memory unless the job only sends it. -/
def OpOut.written (o : OpOut) (j : Job) : State :=
  if j.epi.isSome || bitAt (dw j.desc 0) 21 || dOp j.desc == 3 then o.st else o.st.store (dAddr j.desc 8) o.data

/-- A running job whose reads have crossed, and whose memory is there, writes its output and ends with status 0. -/
theorem millJobComplete_completes {s : State} {id : Nat} {j : Job}
    (hfind : s.mill.jobs.find? (fun j => j.id = id ∧ j.state = 1) = some j) (hhaul : s.hauling id = false)
    (hmem : ∀ r ∈ s.rangesOf j, s.retained r.1 r.2.1 = false ∧ s.diesDown r.1 r.2.1 = false ∧ s.cxlDown r.1 r.2.1 = false)
    (shares : List Share) (cycles : Nat) {o : OpOut} (hrun : o = runOp (s.busyMills j.mills cycles) j shares) :
    millJobComplete s id shares cycles = (o.written j).endJob j 0 o.ev o.data o.data.length o.fmt o.ops := by
  have hretained : (s.rangesOf j).any (fun r => s.retained r.1 r.2.1) = false :=
    List.any_eq_false.2 fun r hr => by simp [(hmem r hr).1]
  have hup : (s.rangesOf j).any (fun r => s.diesDown r.1 r.2.1 || s.cxlDown r.1 r.2.1) = false :=
    List.any_eq_false.2 fun r hr => by simp [(hmem r hr).2]
  rw [State.busyMills] at hrun
  simp only [millJobComplete, hfind, hhaul, hretained, hup, ← hrun, Bool.false_eq_true, or_self, if_false]
  rfl

/-- A job that is not done within the timeout, where one is set, ends with 0x0A. -/
theorem millJobTimeout_expired {s : State} {id : Nat} {j : Job} (hfind : s.mill.jobs.find? (fun j => j.id = id) = some j)
    (hset : s.get E.mill_job_timeout.s ≠ 0) (hdue : j.at_ + s.get E.mill_job_timeout.s ≤ s.ft) :
    millJobTimeout s id = s.abortJob j 0x0A := by
  have hexpired : ¬ (s.get E.mill_job_timeout.s = 0 ∨ s.ft < j.at_ + s.get E.mill_job_timeout.s) := by omega
  simp only [millJobTimeout, hfind, if_neg hexpired]

/-! ### Errors of a Mill (R346, R347) -/

/-- Mill x fails: it is retired, the jobs that hold it end with 0x0B, the queued jobs pinned to it with 0x0C, and the source of
its die is raised. -/
def State.loseMill (s : State) (x : Nat) : State :=
  let a := (s.set (E.mill_state.n x) 3).repairNote
  let b := a.abortJobs (fun j => j.mills.contains x) 0x0B
  (b.abortJobs (fun j => j.state == 0 && j.pinned && ((b.pinSet (max 1 (dPins j.desc))).getD []).contains x) 0x0C).raise
    (384 + x / 68)

/-- An enabled Mill that has not failed does so; where the error is one of its SRAM it is counted first. -/
theorem millFailure_fails {s : State} {x : Nat} (hup : s.get (E.mill_state.n x) ≠ 3)
    (hused : s.get (E.mill_logical.n x) ≠ 0xFFFF) (ecc : Bool) :
    millFailure s x ecc = (if ecc then s.inc (E.mill_ecc_uncorrectable.n x) 1 else s).loseMill x := by
  have hfails : ¬ (s.get (E.mill_state.n x) = 3 ∨ s.get (E.mill_logical.n x) = 0xFFFF) := not_or.2 ⟨hup, hused⟩
  simp only [millFailure, if_neg hfails, State.loseMill]

theorem millStruck_selfCheck {s : State} {x : Nat} (hup : s.get (E.mill_state.n x) ≠ 3)
    (hused : s.get (E.mill_logical.n x) ≠ 0xFFFF) : millStruck s x .selfCheck = s.loseMill x :=
  millFailure_fails hup hused false

theorem millStruck_doubleBit {s : State} {x : Nat} (hup : s.get (E.mill_state.n x) ≠ 3)
    (hused : s.get (E.mill_logical.n x) ≠ 0xFFFF) (row : Nat) :
    millStruck s x (.doubleBit row) =
      ((s.inc (E.mill_ecc_uncorrectable.n x) 1).loseMill x).rowPending (millRow x row) := by
  rw [millStruck, millFailure_fails hup hused true, if_pos rfl]

theorem millStruck_corrected {s : State} {x : Nat} (hused : s.get (E.mill_logical.n x) ≠ 0xFFFF) (row : Nat) :
    millStruck s x (.corrected row) = (s.inc (E.mill_ecc_corrected.n x) 1).rowError (millRow x row) :=
  if_neg hused

/-- Settles O39, a lemma for each command's effect on the clause's case. -/
theorem millJobsComplete : Obligations.MillJobsComplete := by
  intro s
  refine ⟨?_, ?_, ?_, ?_, ?_, ?_⟩
  · intro id mills j want idle hfind hwant hsome hfree hweir hfirst hidle
    exact complete_eq (millJobStart_starts hfind hwant hsome hfree hweir hfirst hidle)
  · rintro id shares cycles j _ o hfind hhaul hmem rfl hrun
    exact complete_eq (millJobComplete_completes hfind hhaul hmem shares cycles hrun)
  · exact fun id j hfind hset hdue => complete_eq (millJobTimeout_expired hfind hset hdue)
  · rintro x _ _ hup hused rfl rfl
    exact complete_eq (millStruck_selfCheck hup hused)
  · rintro x row _ _ hup hused rfl rfl
    exact complete_eq (millStruck_doubleBit hup hused row)
  · exact fun x row hused => complete_eq (millStruck_corrected hused row)

end Sys2Proof.Machine

/-!
PROOFS of windows and memory tiers (spec/13_memory_tiers_and_visibility.md): what a store leaves in memory (R352, R362), accesses
and their serialisation points (R362 to R367), windows (R358, R359), lines of the read cache (R370, R372, R373), the CXL ports
(R373 to R379) and the loss of a stack (R381).
-/

namespace Sys2Proof.Machine

/-! ### The bytes of memory (R352, R362) -/

theorem find?_address_none {m : List Host.Cell} {x : Nat} (h : ∀ c ∈ m, c.1 ≠ x) : m.find? (fun c => c.1 = x) = none :=
  List.find?_eq_none.2 fun c hc => by simpa using h c hc

/-- An address that no cell of a memory has reads as unlisted. -/
theorem memByte_unlisted {m : List Host.Cell} {x : Nat} (h : ∀ c ∈ m, c.1 ≠ x) : memByte m x = unlisted := by
  rw [memByte, find?_address_none h]
  rfl

/-- Cells of other addresses in front of a memory do not change what it reads. -/
theorem memByte_append_of_not_left {m : List Host.Cell} {x : Nat} (h : ∀ c ∈ m, c.1 ≠ x) (n : List Host.Cell) :
    memByte (m ++ n) x = memByte n x := by
  rw [memByte, List.find?_append, find?_address_none h, Option.none_or, memByte]

/-- Nor do cells of other addresses behind it. -/
theorem memByte_append_of_not_right {n : List Host.Cell} {x : Nat} (h : ∀ c ∈ n, c.1 ≠ x) (m : List Host.Cell) :
    memByte (m ++ n) x = memByte m x := by
  rw [memByte, List.find?_append, find?_address_none h, Option.or_none, memByte]

/-- Dropping cells of other addresses does not change what an address reads. -/
theorem memByte_filter {q : Host.Cell → Bool} {x : Nat} (h : ∀ b, q (x, b) = true) (m : List Host.Cell) :
    memByte (m.filter q) x = memByte m x := by
  have hfind : (m.filter q).find? (fun c => c.1 = x) = m.find? (fun c => c.1 = x) := by
    rw [List.find?_filter]
    congr 1
    funext ⟨y, b⟩
    by_cases hy : y = x
    · subst hy
      simp [h b]
    · simp [hy]
  rw [memByte, hfind, memByte]

theorem cellsOf_ne {a x : Nat} {bs : List Byte} (h : x < a ∨ a + bs.length ≤ x) : ∀ c ∈ cellsOf a bs, c.1 ≠ x := by
  intro c hc
  have := (cellsOf_wf bs a).2 c hc
  omega

/-- The cells of bytes read as the bytes: one that is not listed is the one that an unlisted address reads as. -/
theorem memByte_cellsOf {bs : List Byte} {i : Nat} (h : i < bs.length) (a : Nat) :
    memByte (cellsOf a bs) (a + i) = bs.getD i 0 := by
  induction bs generalizing a i with
  | nil => cases h
  | cons b bs ih =>
    cases i with
    | zero =>
      rw [cellsOf]
      split
      next hb => exact (memByte_unlisted (cellsOf_ne (by omega))).trans hb.symm
      next hb => simp [memByte]
    | succ i =>
      have hrest : memByte (cellsOf (a + 1) bs) (a + (i + 1)) = (b :: bs).getD (i + 1) 0 := by
        rw [← Nat.add_assoc, Nat.add_right_comm]
        exact ih (Nat.lt_of_succ_lt_succ h) (a + 1)
      rw [cellsOf]
      split
      next => exact hrest
      next => exact (memByte_append_of_not_left (m := [(a, b)]) (by simp) _).trans hrest

/-- A filter that drops an address leaves no cell of it. -/
theorem filter_ne {q : Host.Cell → Bool} {x : Nat} (h : ∀ b, q (x, b) = false) (m : List Host.Cell) :
    ∀ c ∈ m.filter q, c.1 ≠ x := by
  rintro ⟨y, b⟩ hc rfl
  have hkept : q (y, b) = true := (List.mem_filter.1 hc).2
  rw [h b] at hkept
  cases hkept

theorem below_ne {a x : Nat} (h : a ≤ x) (m : List Host.Cell) : ∀ c ∈ m.filter (fun c => decide (c.1 < a)), c.1 ≠ x :=
  filter_ne (fun _ => decide_eq_false (Nat.not_lt.2 h)) m

theorem above_ne {a x : Nat} (h : x < a) (m : List Host.Cell) : ∀ c ∈ m.filter (fun c => decide (a ≤ c.1)), c.1 ≠ x :=
  filter_ne (fun _ => decide_eq_false (Nat.not_le.2 h)) m

theorem memByte_memPut_below (m : List Host.Cell) {a x : Nat} (bs : List Byte) (h : x < a) :
    memByte (memPut m a bs) x = memByte m x := by
  rw [memPut, memByte_append_of_not_right (above_ne (by omega) m), memByte_append_of_not_right (cellsOf_ne (.inl h)),
    memByte_filter fun _ => decide_eq_true h]

theorem memByte_memPut_inside (m : List Host.Cell) (a : Nat) {bs : List Byte} {i : Nat} (h : i < bs.length) :
    memByte (memPut m a bs) (a + i) = bs.getD i 0 := by
  rw [memPut, memByte_append_of_not_right (above_ne (by omega) m), memByte_append_of_not_left (below_ne (by omega) m),
    memByte_cellsOf h]

theorem memByte_memPut_above (m : List Host.Cell) {a x : Nat} {bs : List Byte} (h : a + bs.length ≤ x) :
    memByte (memPut m a bs) x = memByte m x := by
  rw [memPut, List.append_assoc, memByte_append_of_not_left (below_ne (by omega) m),
    memByte_append_of_not_left (cellsOf_ne (.inr h)), memByte_filter fun _ => decide_eq_true h]

/-- Settles O27: a store is three parts of addresses apart, and each address reads in its own (`memByte_memPut_inside` and its two
neighbours). -/
theorem memoryReadBack : Obligations.MemoryReadBack := by
  refine fun m a bs => ⟨fun i hi => memByte_memPut_inside m a hi, fun x hx => ?_⟩
  rcases hx with hbelow | habove
  · exact memByte_memPut_below m bs hbelow
  · exact memByte_memPut_above m habove

/-! ### Accesses at their serialisation points (R363, R364, R367, R380) -/

/-- An access noted as having reached its serialisation points on this core cycle: the expanders that it touches have answered, so
their time-outs in a row begin anew. -/
def State.reachAcc (s : State) (id : Nat) (chk : EccCheck) (h : Rill) : State :=
  (s.cxlsOf (rillAddr h) (accLen h)).foldl (fun (st : State) c => st.modMs fun m => { m with toRow := mdel m.toRow c })
    (s.modMs fun m => { m with accs := m.accs.map fun z => if z.id = id then { z with reach := some chk } else z })

/-- An access whose lines have returned, whose delay has passed and whose memory is there reaches its serialisation points. -/
theorem memAccessComplete_reaches {s : State} {id : Nat} {x : MemAcc}
    (hfind : s.ms.accs.find? (fun a => a.id = id ∧ a.reach.isNone) = some x) (hfills : x.fills.any (fun f => !f.done) = false)
    (hdue : x.due ≤ s.ft) (hretained : s.retained (rillAddr x.h) (accLen x.h) = false) (hfail : x.fail = false)
    (hup : s.diesDown (rillAddr x.h) (accLen x.h) = false) (chk : EccCheck) :
    memAccessComplete s id chk = s.reachAcc id chk x.h := by
  have hready : ¬ (x.fills.any (fun f => !f.done) = true ∨ s.ft < x.due ∨ s.retained (rillAddr x.h) (accLen x.h) = true) := by
    simp [hfills, hretained, hdue]
  have hserved : ¬ (x.fail || s.diesDown (rillAddr x.h) (accLen x.h)) = true := by simp [hfail, hup]
  simp only [memAccessComplete, hfind, if_neg hready, if_neg hserved]
  rfl

/-- Where one access alone has reached its serialisation points, the end of the core cycle is its effect. -/
theorem memEffects_single {s : State} {y : MemAcc} {chk : EccCheck}
    (h : s.ms.accs.filterMap (fun z => z.reach.map fun c => (z, c)) = [(y, chk)]) : s.memEffects = s.accEffect y chk := by
  rw [State.memEffects, h]
  by_cases hkind : y.h.kind = 2
  · simp [hkind, sortBy, insertBy]
  · simp [hkind, sortBy]

theorem accEffect_write {y : MemAcc} (hkind : y.h.kind = 2) (s : State) (chk : EccCheck) :
    s.accEffect y chk = (s.store (rillAddr y.h) y.payload).endAcc y 0 [] := if_pos hkind

section
variable {y : MemAcc} (hkind : y.h.kind ≠ 2)
include hkind

theorem accEffect_clean (hgood : y.bad = false) (s : State) :
    s.accEffect y .clean = (s.readData y).2.endAcc y 0 (s.readData y).1 := by
  simp [State.accEffect, hkind, hgood]

theorem accEffect_corrected (hgood : y.bad = false) (s : State) :
    s.accEffect y .corrected =
      ((s.readCorrected (rillAddr y.h)).readData y).2.endAcc y 0 ((s.readCorrected (rillAddr y.h)).readData y).1 := by
  simp [State.accEffect, hkind, hgood]

theorem accEffect_uncorrected (hgood : y.bad = false) (s : State) :
    s.accEffect y .bad = (s.readBad (rillAddr y.h) (accLen y.h)).endAcc y 0x0B [] := by
  simp [State.accEffect, hkind, hgood]

/-- A read one of whose lines came poisoned fails whatever its own data show. -/
theorem accEffect_poisoned (hbad : y.bad = true) (s : State) (chk : EccCheck) :
    s.accEffect y chk = s.endAcc y 0x0B [] := by
  simp [State.accEffect, hkind, hbad]

end

/-! ### Windows (R358, R359) -/

theorem requestEntry_window_open : RequestEntry E.window_open := by constructor <;> decide

/-- The rule of `window.open`, by evaluating which chapter's rules name the entry. -/
theorem writeHook_window_open (s : State) (w : Who) (n k i v : Nat) :
    writeHook s w E.window_open n k i v = some (windowOpenWrite s i v) := rfl

/-- A Created window that passes the open checks is Open, on the tier of its base. -/
theorem windowOpenWrite_opens {s : State} {i tier lo hi : Nat} (hcreated : s.get (E.window_state.h i) = 0)
    (hregion : s.regionOf (s.get (E.window_base.h i)) = some (tier, lo, hi)) (hrights : s.get (E.window_rights.h i) ≠ 0)
    (hbase : s.get (E.window_base.h i) % 4096 = 0) (hsize : s.get (E.window_size.h i) % 4096 = 0)
    (hsome : s.get (E.window_size.h i) ≠ 0) (hfits : s.get (E.window_base.h i) + s.get (E.window_size.h i) ≤ hi)
    (hbacked : s.backed (s.get (E.window_base.h i)) (s.get (E.window_size.h i)) = true)
    (hup : s.rangeDown (s.get (E.window_base.h i)) (s.get (E.window_size.h i)) = false)
    (hweir : tier ≠ 4 ∨ s.weirPart (s.partOf 8 i) = false) :
    windowOpenWrite s i 1 = (0, (s.set (E.window_tier.h i) tier).hset (E.window_state.h i) 8 i 1) := by
  have hform : ¬ (s.get (E.window_rights.h i) = 0 ∨ s.get (E.window_base.h i) % 4096 ≠ 0 ∨
      s.get (E.window_size.h i) % 4096 ≠ 0 ∨ s.get (E.window_size.h i) = 0 ∨ hi < s.get (E.window_base.h i) + s.get (E.window_size.h i)) := by omega
  have hpart : ¬ (tier = 4 ∧ s.weirPart (s.partOf 8 i) = true) := by
    rcases hweir with h | h <;> simp [h]
  unfold windowOpenWrite
  dsimp only
  rw [if_neg one_ne_zero, if_neg (not_not.2 hcreated), hregion]
  dsimp only
  rw [if_neg hform, if_neg (by simp [hbacked]), if_neg (by simp [hup]), if_neg hpart]

/-- An Open window that no pool holds begins to close. -/
theorem windowOpenWrite_closes {s : State} {i : Nat} (hopen : s.get (E.window_state.h i) = 1) (hpools : s.poolHolds i = false) :
    windowOpenWrite s i 0 = (0, s.hset (E.window_state.h i) 8 i 2) := by
  simp [windowOpenWrite, hopen, hpools]

/-- A Closing window that is quiet, and is not to be destroyed, is Created again. -/
theorem windowClosingEnd_ends {s : State} {i : Nat} {x : HRec} (hlive : s.liveAt 8 i = some x)
    (hclosing : s.get (E.window_state.h i) = 2) (hquiet : s.winQuiet i = true) (hkept : s.ms.dying.contains i = false) :
    windowClosingEnd s i = s.hset (E.window_state.h i) 8 i 0 := by
  have hends : ¬ ((s.liveAt 8 i).isNone = true ∨ s.get (E.window_state.h i) ≠ 2 ∨ (!s.winQuiet i) = true) := by
    simp [hlive, hclosing, hquiet]
  rw [windowClosingEnd, if_neg hends, hkept, if_neg Bool.false_ne_true]

/-! ### Lines of the read cache and stacks (R370, R372, R381) -/

/-- A line that has returned for an access: its expander has answered, and the line's bytes are counted. -/
def State.lineReturned (s : State) (id line : Nat) (poisoned : Bool) : State :=
  (s.modMs fun m => { m with toRow := mdel m.toRow (lineCxl line), accs := m.accs.map fun (y : MemAcc) =>
    if y.id = id then { y with bad := y.bad || poisoned, fills := y.fills.map fun (z : Fill) =>
      if z.line = line then { z with done := true } else z } else y }).inc (E.cxl_read_bytes.n (lineCxl line)) 256

/-- A good line that no write and no invalidation has met is installed. -/
theorem t2FillReturn_installs {s : State} {id line : Nat} {x : MemAcc} {f : Fill}
    (hacc : s.ms.accs.find? (fun a => a.id = id) = some x) (hfill : x.fills.find? (fun f => f.line = line ∧ !f.done) = some f)
    (hkept : f.drop = false) : t2FillReturn s id line false = (s.lineReturned id line false).touchLine line := by
  simp only [t2FillReturn, hacc, hfill, hkept, Bool.false_eq_true, if_false]
  rfl

/-- A fitted stack that has not failed does so. -/
theorem hbmStackFail_fails {s : State} {k : Nat} (hfitted : hbmFitted s.part k = true) (hup : s.get (E.hbm_state.n k) ≠ 3) :
    hbmStackFail s k = ((s.set (E.hbm_state.n k) 3).raise (461 + k)).later (.stackFailed k) :=
  if_neg (by simp [hfitted, hup])

/-- Settles O40, a lemma for each command's effect on the clause's case; what an access does as the core cycle ends is
`memEffects_single`, by the kind of the access and what its data show. -/
theorem memoryCompletes : Obligations.MemoryCompletes := by
  intro s
  refine ⟨?_, ?_, ?_, ?_, ?_, ?_⟩
  · rintro id chk x y a hfind hfills hdue hretained hfail hup ha hone
    have heffect := memEffects_single hone
    refine ⟨complete_eq ((memAccessComplete_reaches hfind hfills hdue hretained hfail hup chk).trans ha.symm), ?_, ?_, ?_⟩
    · exact fun hkind => heffect.trans (accEffect_write hkind a chk)
    · intro hkind hgood
      refine ⟨?_, ?_, ?_⟩
      · rintro d b rfl hdata
        rw [heffect, accEffect_clean hkind hgood, hdata]
      · rintro d b rfl hdata
        rw [heffect, accEffect_corrected hkind hgood, hdata]
      · rintro rfl
        rw [heffect, accEffect_uncorrected hkind hgood]
    · exact fun hkind hbad => heffect.trans (accEffect_poisoned hkind hbad a chk)
  · rintro r w h _ tier lo hi a rfl hcreated hregion hrights hbase hsize hsome hfits hbacked hup hweir
    refine requestEntry_window_open.taken a ?_
    rw [writeHook_window_open,
      windowOpenWrite_opens hcreated hregion hrights hbase hsize hsome hfits hbacked hup hweir]
  · rintro r w h _ a rfl hopen hpools
    refine requestEntry_window_open.taken a ?_
    rw [writeHook_window_open, windowOpenWrite_closes hopen hpools]
  · exact fun i x hlive hclosing hquiet hkept => complete_eq (windowClosingEnd_ends hlive hclosing hquiet hkept)
  · rintro id line x f _ hacc hfill hkept rfl
    exact complete_eq (t2FillReturn_installs hacc hfill hkept)
  · exact fun k hfitted hup => complete_eq (hbmStackFail_fails hfitted hup)

/-! ### Writes of a CXL port's entries (R373, R378, R379) -/

theorem requestEntry_cxl_invalidate : RequestEntry E.cxl_invalidate := by constructor <;> decide

theorem requestEntry_cxl_resume : RequestEntry E.cxl_resume := by constructor <;> decide

theorem staticEntry_cxl_enable : StaticEntry E.cxl_enable := by constructor <;> decide

/-- The rule of `cxl.invalidate`, by evaluating which chapter's rules name the entry; those below likewise. -/
theorem writeHook_cxl_invalidate (s : State) (w : Who) (n k i v : Nat) :
    writeHook s w E.cxl_invalidate n k i v = some (0, cxlInvalidate s n v) := rfl

theorem writeHook_cxl_resume (s : State) (w : Who) (n k i v : Nat) :
    writeHook s w E.cxl_resume n k i v = some (cxlResume s n v) := rfl

theorem writeHook_cxl_enable (s : State) (w : Who) (n k i v : Nat) :
    writeHook s w E.cxl_enable n k i v = some (0, cxlEnable s n v) := rfl

theorem cxlInvalidate_one (s : State) (c : Nat) : cxlInvalidate s c 1 = s.dropLines c := rfl

/-- A Held port becomes Active without the lines it had. -/
theorem cxlResume_held {s : State} {c : Nat} (hheld : s.get (E.cxl_state.n c) = 4) :
    cxlResume s c 1 = (0, (s.dropLines c).set (E.cxl_state.n c) 2) := by
  simp [cxlResume, hheld]

theorem cxlState_key_ne_cxlEnable_key (c : Nat) : (E.cxl_state.n c).key ≠ (E.cxl_enable.n c).key := by
  have hplace : (0x7010 + c) * 256 + 0x10 ≠ (0x7010 + c) * 256 + 1 := by omega
  exact catKey_ne hplace (by decide) (by decide) (by decide) (by decide)

/-- A change of the window logic's state that changes nothing. -/
theorem State.modMs_eq_self {s : State} {f : MemSt → MemSt} (h : f s.ms = s.ms) : s.modMs f = s := by
  rw [State.modMs, h]

/-- A Disabled port that is enabled trains, without the lines it had. -/
theorem cxlEnable_disabled {s : State} {c : Nat} (hstate : s.get (E.cxl_state.n c) = 5) (hnone : s.ms.disabling = []) :
    cxlEnable s c 1 = ((s.set (E.cxl_enable.n c) 1).set (E.cxl_state.n c) 1).dropLines c := by
  have hsame : (s.set (E.cxl_enable.n c) 1).modMs (fun m => { m with disabling := m.disabling.filter (· != c) }) =
      s.set (E.cxl_enable.n c) 1 := by
    have hfilter : s.ms.disabling.filter (· != c) = s.ms.disabling := by rw [hnone, List.filter_nil]
    exact State.modMs_eq_self (congrArg (fun l => { s.ms with disabling := l }) hfilter)
  have hkept : (s.set (E.cxl_enable.n c) 1).get (E.cxl_state.n c) = 5 := by
    rw [State.get_set_ne _ _ _ _ (cxlState_key_ne_cxlEnable_key c), hstate]
  unfold cxlEnable
  dsimp only
  rw [if_neg one_ne_zero, hsame, if_pos (.inl hkept)]

/-- A port that is not being disabled begins to be. -/
theorem cxlEnable_zero {s : State} {c : Nat} (hnew : s.ms.disabling.contains c = false) :
    cxlEnable s c 0 = ({ s.set (E.cxl_enable.n c) 0 with
      ms := { s.ms with disabling := c :: s.ms.disabling } } : State).cxlQuiesce := by
  have hbegins : ¬ (s.set (E.cxl_enable.n c) 0).ms.disabling.contains c = true := by
    rw [State.set_ms, hnew]
    exact Bool.false_ne_true
  unfold cxlEnable State.cxlDisable
  dsimp only
  rw [if_pos rfl, if_neg hbegins]
  rfl

/-! ### Time-outs, losses and devices of a CXL port (R375 to R378) -/

/-- A request on port c that is not answered in time, with fewer than three before it in a row, is counted and ends with 0x0A. -/
theorem cxlUnanswered_kept {s a : State} {x : MemAcc} {c : Nat} (ha : a = (s.inc (E.cxl_timeouts.n c) 1).cxlFlag c 2)
    (hfew : mgetD a.ms.toRow c 0 + 1 < 4) : cxlUnanswered s x c =
      (a.modMs fun m => { m with toRow := mput m.toRow c (mgetD a.ms.toRow c 0 + 1) }).endAcc x 0x0A [] := by
  subst ha
  exact if_neg (Nat.not_le.2 hfew)

/-- An access whose time-out has passed is unanswered on the first port that it touches. -/
theorem cxlTimeout_late {s : State} {id c : Nat} {cs : List Nat} {x : MemAcc}
    (hfind : s.ms.accs.find? (fun a => a.id = id) = some x) (hports : s.cxlsOf (rillAddr x.h) (accLen x.h) = c :: cs)
    (hlate : x.at_ + s.get (E.cxl_timeout.n c) ≤ s.ft) : cxlTimeout s id = cxlUnanswered s x c := by
  simp only [cxlTimeout, hfind, cxlLateAcc, hports, if_neg (Nat.not_lt.2 hlate)]

/-- The accesses on port c that are outstanding end with 0x0B. -/
def State.failAccs (s : State) (c : Nat) : State :=
  (s.ms.accs.filter fun x => !x.fail && (s.cxlsOf (rillAddr x.h) (accLen x.h)).contains c).foldl
    (fun (st : State) x => st.endAcc x 0x0B []) s

/-- An Active port is lost. -/
theorem cxlPortLost_active {s : State} {c : Nat} (hactive : s.get (E.cxl_state.n c) = 2) :
    cxlPortLost s c = ((((((s.set (E.cxl_state.n c) 3).inc (E.cxl_losses.n c) 1).cxlFlag c 0).dropLines c).modMs
      fun m => { m with toRow := mdel m.toRow c }).failAccs c).later (.cxlLost c) :=
  if_neg fun h => h.1 hactive

/-- A device that trains on an enabled, powered port after start-up has its memory mapped, and the port is Held. -/
theorem cxlDeviceAppear_held {s a : State} {c : Nat} {d : CxlDev} (hon : s.get (E.cxl_enable.n c) ≠ 0)
    (hstate : s.get (E.cxl_state.n c) = 0 ∨ s.get (E.cxl_state.n c) = 1 ∨ s.get (E.cxl_state.n c) = 3)
    (hdom : s.domOn (49 + c) = true)
    (ha : a = (cxlMap { s with mem := memDrop s.mem (baseT2 + c * cxlBytes) (baseT2 + (c + 1) * cxlBytes) } c d).dropLines c)
    (hready : a.get E.device_ready.s ≠ 0) (hold : a.pwr.fresh.contains c = false) :
    cxlDeviceAppear s c d = (a.set (E.cxl_state.n c) 4).cxlFlag c 1 := by
  have htrains : ¬ (s.get (E.cxl_enable.n c) = 0 ∨
      (s.get (E.cxl_state.n c) ≠ 0 ∧ s.get (E.cxl_state.n c) ≠ 1 ∧ s.get (E.cxl_state.n c) ≠ 3) ∨
      (!s.domOn (49 + c)) = true) := by
    rw [hdom, Bool.not_true]
    simp only [hon, Bool.false_eq_true, or_false, false_or]
    omega
  have hlater : ¬ (a.get E.device_ready.s = 0 ∨ a.pwr.fresh.contains c = true) := by
    simp only [hready, hold, Bool.false_eq_true, or_self, not_false_iff]
  subst ha
  unfold cxlDeviceAppear
  dsimp only
  rw [if_neg htrains, if_neg hlater]

/-- Settles O41, a lemma for each rule and each meaning on the clause's case; a write is its entry's rule (`RequestEntry.taken`,
`StaticEntry.taken`). -/
theorem expandersComplete : Obligations.ExpandersComplete := by
  intro s
  refine ⟨?_, ?_, ?_, ?_, ?_, ?_, ?_⟩
  · rintro r w c _ a rfl
    refine requestEntry_cxl_invalidate.taken a ?_
    rw [writeHook_cxl_invalidate, cxlInvalidate_one]
  · rintro r w c _ a rfl hheld
    refine requestEntry_cxl_resume.taken a ?_
    rw [writeHook_cxl_resume, cxlResume_held hheld]
  · rintro r w c _ a rfl hstate hnone
    refine staticEntry_cxl_enable.taken a ?_
    rw [writeHook_cxl_enable, cxlEnable_disabled hstate hnone]
  · rintro r w c _ a rfl hnew
    refine staticEntry_cxl_enable.taken a ?_
    rw [writeHook_cxl_enable, cxlEnable_zero hnew]
  · rintro id c cs x a hfind hports hlate ha hfew
    exact complete_eq ((cxlTimeout_late hfind hports hlate).trans (cxlUnanswered_kept ha hfew))
  · rintro c _ _ hactive rfl rfl
    exact complete_eq (cxlPortLost_active hactive)
  · intro c width size ident slow a hserves hon hstate hdom ha hready hold
    refine complete_eq ?_
    rw [if_neg (by simp [hserves])]
    exact cxlDeviceAppear_held hon hstate hdom ha hready hold

end Sys2Proof.Machine

/-!
PROOFS of what one step runs (spec/95_what_each_step_holds.md).
-/

namespace Sys2Proof.Machine

/-- Settles O1: `step` looks at the queue's front only. -/
theorem stepRunsFront : Obligations.StepRunsFront := by
  refine fun s => ⟨fun c cs hfront => ?_, fun hempty => ?_⟩
  · rw [step, hfront]
  · rw [step, hempty]

end Sys2Proof.Machine

/-!
PROOFS of pools and holdings (spec/14_pools_and_holdings.md): requests that wait for their turn at the buffer pool manager (R391,
R393), pools (R389, R392, R394, R396) and sequences (R404, R406, R407, R409).
-/

namespace Sys2Proof.Machine

/-! ### Turns at the buffer pool manager (R391, R393) -/

/-- A request of one item to the manager waits for its turn. -/
theorem serve_waits {s : State} {r : Req} {w : Who} {op : Nat} {it : Item} (v : Serves s r w) (hop : op = 1 ∨ op = 2)
    (hm : reachesManager s w r op it = true) : serve s .plain r op [it] = waiting s r op it := by
  rw [serve_items v (by omega), runItems, if_pos hm]
  rfl

/-- Where no work is left, a request that waits changes nothing else. -/
theorem complete_waiting {s : State} (hidle : Idle s) (r : Req) (op : Nat) (it : Item) :
    complete s (waiting s r op it) = .next (waiting s r op it) := by
  have htodo : (waiting s r op it).todo = [] := hidle
  rw [complete, settle_idle htodo]
  rfl

/-- The turn of the only request that waits runs its item on the state without it. -/
theorem poolTurns_waiting {s : State} {r : Req} {w : Who} {op : Nat} {it : Item} (hnone : s.mgmt.parked = [])
    (hwho : whoOf s r = some w) (hm : managed r op it = true) :
    poolTurns (waiting s r op it) = mctpFlush (settleItems .plain r op (runTurn w r op it [] [] s)) := by
  have hparked : (waiting s r op it).mgmt.parked = [⟨r, op, .plain, [it], [], s.cyc.n⟩] := by
    show s.mgmt.parked ++ _ = _
    rw [hnone, List.nil_append]
  have htaken : (waiting s r op it).modMgmt (fun m => { m with parked := m.parked.erase ⟨r, op, .plain, [it], [], s.cyc.n⟩ }) = s := by
    have hparkedOne : [(⟨r, op, .plain, [it], [], s.cyc.n⟩ : Parked)].erase ⟨r, op, .plain, [it], [], s.cyc.n⟩ = s.mgmt.parked := by
      rw [hnone, List.erase_cons_head]
    have hmgmt : ({ s.mgmt with
        parked := (waiting s r op it).mgmt.parked.erase ⟨r, op, .plain, [it], [], s.cyc.n⟩ } : MgmtSt) = s.mgmt := by
      rw [hparked, hparkedOne]
    exact congrArg (fun m => { s with mgmt := m }) hmgmt
  have hturn : takeTurn (waiting s r op it) ⟨r, op, .plain, [it], [], s.cyc.n⟩ =
      settleItems .plain r op (runTurn w r op it [] [] s) := by
    simp only [takeTurn, htaken, hwho]
  unfold poolTurns
  rw [hparked]
  simp only [List.filterMap_cons, List.filterMap_nil, turnKey, hm, if_true, Option.map_some, List.cons_ne_nil, if_false,
    sortBy, insertBy, List.foldl_cons, List.foldl_nil]
  split
  · simp [mgetD, mget?, hturn]
  · simp [hturn]

/-- An item that is answered 0 on its turn ends its request. -/
theorem runTurn_answered {s u : State} {r : Req} {w : Who} {op h : Nat} {it : Item} {d : List Byte}
    (hserve : serveItem s w r op it = (0, d, h, u)) (hfits : overflows r op [] d 0 = false) :
    runTurn w r op it [] [] s = ([], [⟨it.index, it.sub, 0, h, d⟩], u) := by
  have hitem : oneItem w r op it [] [] s = .ok ([⟨it.index, it.sub, 0, h, d⟩], u) := by
    unfold oneItem
    rw [List.length_nil, serveBounded_fits hserve hfits]
    rfl
  rw [runTurn, hitem]
  rfl

/-- An entry whose WRITE is a request to the manager, which is locked in no state. -/
structure ManagerEntry (e : Ent) : Prop where
  plain : e.ty ≠ .domain
  unsticky : e.acc ≠ .w1c
  uncounted : e.cls ≠ .counter
  unlocked : e.acc = .wo ∨ e = E.sequence_reserve
  place : (e.idx = 0x7300 ∧ (e.sub = 0x0A ∨ e.sub = 0x0B)) ∨ (e.idx = 0x7400 ∧ (e.sub = 4 ∨ e.sub = 5))

theorem ManagerEntry.managed {e : Ent} (he : ManagerEntry e) {r : Req} (htx : r.tx = 0) (h v : Nat) :
    managed r 2 (writeIt e 0 0 h v) = true := by
  rcases he.place with ⟨hidx, hsub | hsub⟩ | ⟨hidx, hsub | hsub⟩ <;> simp [Machine.managed, writeIt, htx, hidx, hsub, begunMark]

theorem ManagerEntry.writeItem_rule {s u : State} {r : Req} {w : Who} {e : Ent} {h v : Nat} (he : ManagerEntry e)
    (a : Accepts s r w e 0 0 h v) (hu : writeHook s w e 0 0 (hIdx h) v = some (0, u)) :
    writeItem s w (writeIt e 0 0 h v) = (0, keepTouched s u) := by
  have hportless : e.idx ≠ 0x2000 ∧ e.idx ≠ 0x4C00 := by
    rcases he.place with ⟨hidx, -⟩ | ⟨hidx, -⟩ <;> simp [hidx]
  have hunlocked : locked s e 0 (hIdx h) = false := by
    rcases he.unlocked with hwo | rfl
    · simp [locked, noPort, hportless, hwo]
    · simp [locked, noPort, hportless]
  rw [writeItem_accepts a he.plain,
    writeValue_hook a.still (by simp [he.unsticky]) (by simp [he.uncounted]) hunlocked hu]

/-- A write to the manager waits for its turn, and its turn does what the entry's rule says and answers 0. -/
theorem ManagerEntry.waits {s u : State} {r : Req} {w : Who} {e : Ent} {h v : Nat} (he : ManagerEntry e) (hidle : Idle s)
    (hnone : s.mgmt.parked = []) (a : Accepts s r w e 0 0 h v) (hu : writeHook s w e 0 0 (hIdx h) v = some (0, u)) :
    complete s (writeCmd s r e 0 0 h v) = .next (waitsWrite s r e h v) ∧
      poolTurns (waitsWrite s r e h v) = mctpFlush (accepted s u r (writeIt e 0 0 h v)) := by
  have hm := he.managed a.serves.noTx h v
  have hreach : reachesManager s w r 2 (writeIt e 0 0 h v) = true := by
    rw [reachesManager, hm, if_neg (by decide), a.gate]
    rfl
  have hserve : serveItem s w r 2 (writeIt e 0 0 h v) =
      (0, [], h, (keepTouched s u).dirtyEntry 0 (writeIt e 0 0 h v)) := by
    simp [serveItem, a.serves.named, a.serves.noTx, he.writeItem_rule a hu]
    rfl
  refine ⟨?_, ?_⟩
  · rw [writeCmd, serve_waits a.serves (.inr rfl) hreach]
    exact complete_waiting hidle r 2 _
  · rw [waitsWrite, poolTurns_waiting hnone a.serves.who hm, runTurn_answered hserve (overflows_nil r 2 [] 0), settleItems_plain,
      a.serves.noTx]
    rfl

/-! ### Pools (R389, R392, R394, R396) -/

theorem requestEntry_pool_enable : RequestEntry E.pool_enable := by constructor <;> decide

theorem managerEntry_pool_free : ManagerEntry E.pool_free := by constructor <;> decide

theorem managerEntry_pool_share : ManagerEntry E.pool_share := by constructor <;> decide

/-- The rule of `pool.enable`, by evaluating which chapter's rules name the entry; those below likewise. -/
theorem writeHook_pool_enable (s : State) (w : Who) (n k i v : Nat) :
    writeHook s w E.pool_enable n k i v = some (poolEnable s i v) := rfl

theorem writeHook_pool_free (s : State) (w : Who) (n k i v : Nat) :
    writeHook s w E.pool_free n k i v = some (poolFree s i v) := rfl

theorem writeHook_pool_share (s : State) (w : Who) (n k i v : Nat) :
    writeHook s w E.pool_share n k i v = some (poolShare s i v) := rfl

/-- The form of a pool that may be enabled (R386, R389): its sizes, and where its two areas begin. -/
structure PoolForm (s : State) (i : Nat) : Prop where
  least : 256 ≤ s.get (E.pool_buffer_size.h i)
  most : s.get (E.pool_buffer_size.h i) ≤ 2097152
  power : 2 ^ Nat.log2 (s.get (E.pool_buffer_size.h i)) = s.get (E.pool_buffer_size.h i)
  some : s.get (E.pool_count.h i) ≠ 0
  few : s.get (E.pool_count.h i) ≤ 16777216
  buffers : (s.bufArea i).1 % 4096 = 0
  ring : (s.ringArea i).1 % 4096 = 0

/-- The areas of a pool that may be enabled lie in the Open windows bw and rw, the ring in a tier above 1, apart, and usable. -/
structure PoolPlace (s : State) (i bw rw : Nat) : Prop where
  bufWin : s.poolWin i (s.get (E.pool_buffer_window.h i)) = some bw
  ringWin : s.poolWin i (s.get (E.pool_ring_window.h i)) = some rw
  bufOpen : s.get (E.window_state.h bw) = 1
  ringOpen : s.get (E.window_state.h rw) = 1
  bufIn : s.inWin bw (s.bufArea i) = true
  ringIn : s.inWin rw (s.ringArea i) = true
  tier : 2 ≤ s.get (E.window_tier.h rw)
  apart : overlap (s.bufArea i) (s.ringArea i) = false
  bufUp : s.rangeDown (s.bufArea i).1 (s.bufArea i).2 = false
  ringUp : s.rangeDown (s.ringArea i).1 (s.ringArea i).2 = false

/-- A Created pool of the right form and place, while no other is up, is Filling. -/
theorem poolEnable_fills {s : State} {i bw rw : Nat} (hcreated : s.get (E.pool_state.h i) = 0) (hform : PoolForm s i)
    (hplace : PoolPlace s i bw rw) (halone : (s.liveIdx 3).filter (fun j => j ≠ i && s.poolUp j) = []) :
    poolEnable s i 1 = (0, s.hset (E.pool_state.h i) 3 i 1) := by
  have hsizes : ¬ (s.get (E.pool_buffer_size.h i) < 256 ∨ 2097152 < s.get (E.pool_buffer_size.h i) ∨
      2 ^ Nat.log2 (s.get (E.pool_buffer_size.h i)) ≠ s.get (E.pool_buffer_size.h i) ∨ s.get (E.pool_count.h i) = 0 ∨
      16777216 < s.get (E.pool_count.h i) ∨ (s.bufArea i).1 % 4096 ≠ 0 ∨ (s.ringArea i).1 % 4096 ≠ 0) := by
    simp [hform.power, hform.some, hform.buffers, hform.ring, hform.least, hform.most, hform.few]
  unfold poolEnable
  dsimp only
  rw [if_neg one_ne_zero, if_neg (not_not.2 hcreated), if_neg hsizes, hplace.bufWin, hplace.ringWin]
  dsimp only
  rw [if_neg (by simp [hplace.bufOpen, hplace.ringOpen]), halone,
    if_neg (by simp [hplace.bufIn, hplace.ringIn, hplace.apart, Nat.lt_of_succ_le hplace.tier]),
    if_neg (by simp [hplace.bufUp, hplace.ringUp])]

/-- A live Filling pool whose ring and state words are written is Active. -/
theorem poolFillDone_filled {s : State} {i : Nat} {x : HRec} (hlive : s.liveAt 3 i = some x) (hfilling : s.get (E.pool_state.h i) = 1) :
    poolFillDone s i =
      ((((((s.store (s.get (E.pool_ring_base.h i)) ((List.range (s.get (E.pool_count.h i))).flatMap (fun j => leBytes 4 j) ++
        List.replicate (4 * s.get (E.pool_count.h i)) 0)).modPool i fun _ => ⟨[], [], 0, 0, false, true⟩).set
        (E.pool_ring_count.h i) (s.get (E.pool_count.h i))).set (E.pool_low_free.h i) (s.get (E.pool_count.h i))).hset
        (E.pool_state.h i) 3 i 2).poolSync i) :=
  if_neg (by simp [hlive, hfilling])

/-- A READ of `pool.alloc` on an Active pool with a cached buffer answers the buffer's address. -/
theorem readItem_poolAlloc {s a : State} {w : Who} {h j : Nat} {js : List Nat}
    (hgate : itemGate s w ⟨0x7300, 9, 0, h, 0, []⟩ false 1 = 0) (hcap : notCaptured s w ⟨0x7300, 9, 0, h, 0, []⟩ = false)
    (hup : s.poolRetained (hIdx h) = false) (hactive : s.get (E.pool_state.h (hIdx h)) = 2) (hhead : (s.pool (hIdx h)).head = j :: js)
    (ha : a = ((s.modPool (hIdx h) fun x => { x with head := js }).handOut (hIdx h) j).2) :
    readItem s w ⟨0x7300, 9, 0, h, 0, []⟩ =
      (0, leBytes 8 (a.get (E.pool_buffer_base.h (hIdx h)) + j * a.get (E.pool_buffer_size.h (hIdx h))), a) := by
  subst ha
  have halloc : poolAlloc s (hIdx h) = (s.modPool (hIdx h) fun x => { x with head := js }).handOut (hIdx h) j := by
    simp [poolAlloc, hactive, hhead]
  unfold readItem
  simp only [hgate, entOf_pool_alloc, hcap, hup, halloc]
  rfl

/-- On an Active pool with a buffer in its head cache, an allocation waits, and its turn answers the buffer's address. -/
theorem poolAlloc_waits {s a : State} {r : Req} {w : Who} {h j : Nat} {js : List Nat} (hidle : Idle s) (hnone : s.mgmt.parked = [])
    (v : Serves s r w) (hgate : itemGate s w ⟨0x7300, 9, 0, h, 0, []⟩ false 1 = 0)
    (hcap : notCaptured s w ⟨0x7300, 9, 0, h, 0, []⟩ = false) (hup : s.poolRetained (hIdx h) = false)
    (hactive : s.get (E.pool_state.h (hIdx h)) = 2) (hhead : (s.pool (hIdx h)).head = j :: js)
    (ha : a = ((s.modPool (hIdx h) fun x => { x with head := js }).handOut (hIdx h) j).2) :
    complete s (serve s .plain r 1 [⟨0x7300, 9, 0, h, 0, []⟩]) = .next (waiting s r 1 ⟨0x7300, 9, 0, h, 0, []⟩) ∧
      poolTurns (waiting s r 1 ⟨0x7300, 9, 0, h, 0, []⟩) =
        mctpFlush (a.emit (.response r 0x81 0 0 [⟨0x7300, 9, 0, h, leBytes 8
          (a.get (E.pool_buffer_base.h (hIdx h)) + j * a.get (E.pool_buffer_size.h (hIdx h)))⟩])) := by
  have hm : managed r 1 ⟨0x7300, 9, 0, h, 0, []⟩ = true := by simp [managed, v.noTx, begunMark]
  have hserve : serveItem s w r 1 ⟨0x7300, 9, 0, h, 0, []⟩ = (0, leBytes 8
      (a.get (E.pool_buffer_base.h (hIdx h)) + j * a.get (E.pool_buffer_size.h (hIdx h))), h, a) := by
    simp [serveItem, v.named, readItem_poolAlloc hgate hcap hup hactive hhead ha]
  have hfits := overflows_value (r := r) 1
    (a.get (E.pool_buffer_base.h (hIdx h)) + j * a.get (E.pool_buffer_size.h (hIdx h))) (entOf_mem entOf_pool_alloc) (by decide)
  refine ⟨?_, ?_⟩
  · rw [serve_waits v (.inl rfl) (by simp [reachesManager, hm, hgate])]
    exact complete_waiting hidle r 1 _
  · rw [poolTurns_waiting hnone v.who hm, runTurn_answered hserve hfits, settleItems_plain, v.noTx]

/-- A free of a buffer with more references takes one away. -/
theorem poolFree_shared {s : State} {i v j : Nat} (hcheck : s.poolCheck i v = (.ok j, s)) (hmore : 1 < s.bufWord i j % 65536) :
    poolFree s i v = (0, s.setWord i j (2 ^ 31 + (s.bufWord i j % 65536 - 1))) := by
  simp only [poolFree, hcheck, if_pos hmore]

/-- A free of the last reference takes the buffer back and counts. -/
theorem poolFree_last {s : State} {i v j : Nat} (hcheck : s.poolCheck i v = (.ok j, s)) (hlast : s.bufWord i j % 65536 ≤ 1) :
    poolFree s i v = (0, (((s.setWord i j 0).takeBack i j).inc (E.pool_frees.h i) 1).poolSync i) := by
  simp only [poolFree, hcheck, if_neg (Nat.not_lt.2 hlast)]

/-- A share of a buffer that can take one reference more adds it. -/
theorem poolShare_counts {s : State} {i v j : Nat} (hcheck : s.poolCheck i v = (.ok j, s)) (hroom : s.bufWord i j % 65536 < 65535) :
    poolShare s i v = (0, s.setWord i j (2 ^ 31 + (s.bufWord i j % 65536 + 1))) := by
  simp only [poolShare, hcheck, if_neg (Nat.not_le.2 hroom)]

/-- The refill of a live Active pool that is due completes. -/
theorem poolRefillDone_refills {s : State} {i : Nat} {x : HRec} (hlive : s.liveAt 3 i = some x) (hactive : s.get (E.pool_state.h i) = 2)
    (hdue : (s.pool i).refill = true) : poolRefillDone s i = (s.refillPool i).later .upkeep :=
  if_pos ⟨by simp [hlive], hactive, hdue⟩

/-- Settles O42: a write to the manager is `ManagerEntry.waits` with its rule, an allocation `poolAlloc_waits`, and the others are
each the effect on the clause's case. -/
theorem poolsComplete : Obligations.PoolsComplete := by
  intro s
  refine ⟨?_, ?_, ?_, ?_, ?_, ?_, ?_⟩
  · rintro r w h _ size bw rw a rfl hcreated rfl hleast hmost hpower hsome hfew hbuf hring hbufWin hringWin hbufOpen hringOpen hbufIn
      hringIn htier hapart halone hbufUp hringUp
    refine requestEntry_pool_enable.taken a ?_
    rw [writeHook_pool_enable, poolEnable_fills hcreated ⟨hleast, hmost, hpower, hsome, hfew, hbuf, hring⟩
      ⟨hbufWin, hringWin, hbufOpen, hringOpen, hbufIn, hringIn, htier, hapart, hbufUp, hringUp⟩ halone]
  · rintro i _ x _ hlive hfilling rfl rfl
    exact complete_eq (poolFillDone_filled hlive hfilling)
  · exact fun r w h j js a hidle hnone v hgate hcap hup hactive hhead ha =>
      poolAlloc_waits hidle hnone v hgate hcap hup hactive hhead ha
  · rintro r w h v j _ hidle hnone a hcheck rfl hmore
    refine managerEntry_pool_free.waits hidle hnone a ?_
    rw [writeHook_pool_free, poolFree_shared hcheck hmore]
  · intro r w h v j hidle hnone a hcheck hlast
    refine managerEntry_pool_free.waits hidle hnone a ?_
    rw [writeHook_pool_free, poolFree_last hcheck hlast]
  · rintro r w h v j _ hidle hnone a hcheck rfl hroom
    refine managerEntry_pool_share.waits hidle hnone a ?_
    rw [writeHook_pool_share, poolShare_counts hcheck hroom]
  · exact fun i x hlive hactive hdue => complete_eq (poolRefillDone_refills hlive hactive hdue)

/-! ### Sequences (R404, R406, R407, R409) -/

theorem managerEntry_sequence_activate : ManagerEntry E.sequence_activate := by constructor <;> decide

theorem managerEntry_sequence_reserve : ManagerEntry E.sequence_reserve := by constructor <;> decide

theorem writeHook_sequence_activate (s : State) (w : Who) (n k i v : Nat) : writeHook s w E.sequence_activate n k i v =
    some (if (sequenceActivate s i v).2.1 then waitCode else (sequenceActivate s i v).1, (sequenceActivate s i v).2.2) := rfl

/-- A Created sequence of usable pools that shares no other's pages takes its root and is Active with nothing in it. -/
theorem sequenceActivate_unprefixed {s a : State} {i root : Nat} (hcreated : s.get (E.sequence_state.h i) = 0)
    (hstill : mget? s.copying i = none) (hpools : s.seqPoolsCheck i (s.seqTmpl i) = 0) (hsource : s.prefixCheck i (s.seqTmpl i) = 0)
    (hfree : s.prefixFree i = true) (hroot : takeTable s (s.seqTmpl i) = (some root, a)) (hno : a.prefixTokens i = 0) :
    sequenceActivate s i 1 =
      (0, false, ((a.set (E.sequence_root.h i) root).inc (E.sequence_pages_taken.h i) 0).seqActive i 0 0) := by
  unfold sequenceActivate
  dsimp only
  rw [if_neg one_ne_zero, if_neg (by simp [hcreated, hstill]), if_neg (not_not.2 hpools), if_neg (not_not.2 hsource),
    if_neg (by simp [hfree]), hroot]
  simp only [hno]
  rfl

/-- The copy of a partial page that it shares ends: the sequence is Active with the tokens shared. -/
theorem prefixCopyDone_ends {s a : State} {i x y : Nat} (hcopy : mget? s.copying i = some (x, y)) (ha : a = copyPage s i x y) :
    prefixCopyDone s i =
      (((({ a with copying := mdel a.copying i } : State).inc E.holdings_copies.s 1).seqActive i (a.prefixTokens i)
        (roundUp (a.prefixTokens i) 64)).later .upkeep) := by
  subst ha
  simp only [prefixCopyDone, hcopy]

/-- The entries of a sequence's reserve r: the tokens, the capacity in whole pages, and the pages (R406). -/
def State.putReserve (s : State) (i r : Nat) : State :=
  ((s.set (E.sequence_reserve.h i) r).set (E.sequence_capacity.h i) (roundUp r 64)).set (E.sequence_pages.h i) (roundUp r 64 / 64)

section
variable {s : State} {i r : Nat} (hactive : s.get (E.sequence_state.h i) = 1) (hmost : r ≤ 16777216)
  (hheld : s.get (E.sequence_length.h i) ≤ r)
include hactive hmost hheld

/-- An Active sequence that no job holds shrinks to what it holds or more. -/
theorem sequenceReserve_shrinks (hless : roundUp r 64 < s.get (E.sequence_capacity.h i))
    (hunheld : s.get (E.sequence_holders.h i) = 0) :
    sequenceReserve s i r = (0, (shrink s i (roundUp r 64)).putReserve i r) := by
  unfold sequenceReserve
  dsimp only
  rw [if_neg (not_not.2 hactive), if_neg (by omega), if_pos hless, if_neg (not_not.2 hunheld)]
  rfl

/-- An Active sequence whose table takes every page that it grows by has them. -/
theorem sequenceReserve_grows {x : Grown} {a : State} (hmore : s.get (E.sequence_capacity.h i) ≤ roundUp r 64)
    (hgrow : ((List.range (roundUp r 64 / 64)).filter (fun p => decide (s.get (E.sequence_capacity.h i) / 64 ≤ p))).foldl
      (fun acc p => addPage (s.seqTmpl i) (s.get (E.sequence_root.h i)) p none acc) ((⟨true, [], []⟩ : Grown), s) = (x, a))
    (hok : x.ok = true) :
    sequenceReserve s i r = (0, (a.putReserve i r).inc (E.sequence_pages_taken.h i) x.pages.length) := by
  unfold sequenceReserve
  dsimp only
  rw [if_neg (not_not.2 hactive), if_neg (by omega), if_neg (Nat.not_lt.2 hmore), hgrow]
  exact if_pos hok

end

/-- An Active sequence takes a length up to its capacity. -/
theorem sequenceLength_fits {s : State} {i v : Nat} (hactive : s.get (E.sequence_state.h i) = 1)
    (hfits : v ≤ s.get (E.sequence_capacity.h i)) :
    sequenceLength s i v = (0, (s.noteOld (E.sequence_length.h i)).set (E.sequence_length.h i) v) := by
  rw [sequenceLength, if_neg (not_not.2 hactive), if_neg (Nat.not_lt.2 hfits)]

/-- A length that the rule of `sequence.length` takes, in whatever state the sequence is, leaves what the rule gives. -/
theorem sequenceLength_taken {s u : State} {r : Req} {w : Who} {h v : Nat} (a : Accepts s r w E.sequence_length 0 0 h v)
    (hu : sequenceLength s (hIdx h) v = (0, u)) :
    complete s (writeCmd s r E.sequence_length 0 0 h v) = .next (wrote s u r E.sequence_length 0 0 h v) := by
  have hrule : writeHook s w E.sequence_length 0 0 (hIdx h) v = some (0, u) := by rw [writeHook_sequence_length, hu]
  exact complete_eq (writeCmd_accepted a (by decide) (managed_readWrite a rfl (by decide))
    (writeValue_hook a.still rfl rfl rfl hrule))

/-- Settles O43: a write to the manager is `ManagerEntry.waits` with its rule; the copy and the length are their effects. -/
theorem sequencesComplete : Obligations.SequencesComplete := by
  intro s
  refine ⟨?_, ?_, ?_, ?_, ?_⟩
  · rintro r w h _ root b hidle hnone a rfl hcreated hstill hpools hsource hfree hroot hno
    refine managerEntry_sequence_activate.waits hidle hnone a ?_
    rw [writeHook_sequence_activate, sequenceActivate_unprefixed hcreated hstill hpools hsource hfree hroot hno]
    rfl
  · exact fun i x y a hcopy ha => complete_eq (prefixCopyDone_ends hcopy ha)
  · intro r w h v hidle hnone a hactive hmost hheld hless hunheld
    refine managerEntry_sequence_reserve.waits hidle hnone a ?_
    rw [writeHook_sequence_reserve, sequenceReserve_shrinks hactive hmost hheld hless hunheld]
    rfl
  · intro r w h v x b hidle hnone a hactive hmost hheld hmore hgrow hok
    refine managerEntry_sequence_reserve.waits hidle hnone a ?_
    rw [writeHook_sequence_reserve, sequenceReserve_grows hactive hmost hheld hmore hgrow hok]
    rfl
  · exact fun r w h v a hactive hfits => sequenceLength_taken a (sequenceLength_fits hactive hfits)

end Sys2Proof.Machine

/-!
PROOFS of Weir mode and lock-step (spec/15_weir_mode_and_lock_step.md): the Weir schedule (R420, R423 to R425), its engines and
Mills (R431, R433), and lock-step (R437, R438, R441).
-/

namespace Sys2Proof.Machine

/-! ### Writes of Weir's and lock-step's entries -/

theorem staticEntry_weir_clock_mode : StaticEntry E.weir_clock_mode := by constructor <;> decide

theorem staticEntry_weir_engines : StaticEntry E.weir_engines := by constructor <;> decide

theorem staticEntry_weir_mills : StaticEntry E.weir_mills := by constructor <;> decide

theorem requestEntry_weir_start_on_launch : RequestEntry E.weir_start_on_launch := by constructor <;> decide

theorem requestEntry_weir_stop : RequestEntry E.weir_stop := by constructor <;> decide

theorem requestEntry_lockstep_start : RequestEntry E.lockstep_start := by constructor <;> decide

theorem requestEntry_lockstep_start_on_launch : RequestEntry E.lockstep_start_on_launch := by constructor <;> decide

theorem requestEntry_lockstep_stop : RequestEntry E.lockstep_stop := by constructor <;> decide

/-- The rule of `weir.clock_mode`, by evaluating which chapter's rules name the entry; those below likewise. -/
theorem writeHook_weir_clock_mode (s : State) (w : Who) (n k i v : Nat) :
    writeHook s w E.weir_clock_mode n k i v = some (0, weirClockMode s v) := rfl

theorem writeHook_weir_engines (s : State) (w : Who) (n k i v : Nat) :
    writeHook s w E.weir_engines n k i v = some (weirEngines s v) := rfl

theorem writeHook_weir_mills (s : State) (w : Who) (n k i v : Nat) :
    writeHook s w E.weir_mills n k i v = some (weirMills s v) := rfl

theorem writeHook_weir_start_on_launch (s : State) (w : Who) (n k i v : Nat) :
    writeHook s w E.weir_start_on_launch n k i v = some (weirStartOnLaunch s v) := rfl

theorem writeHook_weir_stop (s : State) (w : Who) (n k i v : Nat) :
    writeHook s w E.weir_stop n k i v = some (0, weirStop s v) := rfl

theorem writeHook_lockstep_start (s : State) (w : Who) (n k i v : Nat) :
    writeHook s w E.lockstep_start n k i v = some (lockstepStart s v) := rfl

theorem writeHook_lockstep_start_on_launch (s : State) (w : Who) (n k i v : Nat) :
    writeHook s w E.lockstep_start_on_launch n k i v = some (lockstepStartOnLaunch s v) := rfl

theorem writeHook_lockstep_stop (s : State) (w : Who) (n k i v : Nat) :
    writeHook s w E.lockstep_stop n k i v = some (0, lockstepStop s v) := rfl

/-! ### The Weir schedule -/

theorem weirClockMode_changes {s : State} {v : Nat} (hnew : v ≠ s.get E.weir_clock_mode.s) :
    weirClockMode s v = (s.set E.weir_clock_mode.s v).set E.weir_clock_locked.s 0 := if_neg hnew

section
variable {s : State} (hstopped : s.get E.weir_state.s = 0) (hlocked : s.get E.weir_clock_locked.s ≠ 0)
include hstopped hlocked

theorem weirStart_taken {v : Nat} (htest : s.ftTest v = 0) :
    weirStart s v = (0, (s.schedule v .weirStart).set E.weir_state.s 1) := by
  have hright : (s.get E.weir_state.s != 0 || s.get E.weir_clock_locked.s == 0) = false := by simp [hstopped, hlocked]
  simp only [weirStart, hright, ftTestIn_free htest]
  exact if_neg (not_not.2 rfl)

theorem weirStartOnLaunch_taken : weirStartOnLaunch s 1 = (0, s.set E.weir_state.s 2) := by
  have hright : ¬ (s.get E.weir_state.s ≠ 0 ∨ s.get E.weir_clock_locked.s = 0) := by simp [hstopped, hlocked]
  rw [weirStartOnLaunch, if_neg one_ne_zero, if_neg hright]

end

theorem weirStartFire_due {s : State} (hdue : s.isDue .weirStart = true) :
    weirStartFire s = (s.unschedule .weirStart).weirGo := if_pos hdue

section
variable {a : State} (hruns : a.weirRunning = true) (hplaced : a.weir.realign = none) (hends : a.weir.base + a.weir.s ≤ a.cyc.n)
include hruns hplaced hends

/-- At the end of a cycle the next one begins, where no stop is noted. -/
theorem weirCycleBoundary_next (hstays : a.weir.stopping = false) : weirCycleBoundary a =
    (((a.weirHold (a.get E.weir_cycle.s + 1)).weirBegin (a.get E.weir_cycle.s + 1)).lockBoundary) := by
  simp [weirCycleBoundary, hruns, hplaced, hstays, Nat.not_lt.2 hends]

/-- A noted stop takes effect at the end of the cycle. -/
theorem weirCycleBoundary_halts (hstops : a.weir.stopping = true) : weirCycleBoundary a = a.weirHalt := by
  simp [weirCycleBoundary, hruns, hplaced, hstops, Nat.not_lt.2 hends]

end

/-- The stop of a Scheduled schedule drops its start. -/
theorem weirStop_scheduled {s : State} (hscheduled : s.get E.weir_state.s = 1) :
    weirStop s 1 = (s.unschedule .weirStart).set E.weir_state.s 0 := by
  simp [weirStop, hscheduled]

/-- The stop of a Running schedule is noted. -/
theorem weirStop_running {s : State} (hrunning : s.get E.weir_state.s = 3) :
    weirStop s 1 = { s with weir := { s.weir with stopping := true } } := by
  simp [weirStop, hrunning]

/-- A noted stop of a Running schedule. -/
theorem exec_weirStop_running {s : State} {r : Req} {w : Who} (a : Accepts s r w E.weir_stop 0 0 0 1)
    (hrunning : s.get E.weir_state.s = 3) : exec (.weirStop r 1) s =
      .next (wrote s { s with weir := { s.weir with stopping := true } } r E.weir_stop 0 0 0 1) := by
  refine requestEntry_weir_stop.taken a ?_
  rw [writeHook_weir_stop, weirStop_running hrunning]

/-- No change of `weir.engines` that concerns a live handle's engine is taken as it is. -/
theorem weirEngines_taken {s : State} {v : Nat} (hkept : (s.liveIdx 1).any (fun i =>
      bitAt (s.get E.weir_engines.s) (s.get (E.collective_engine.h i)) != bitAt v (s.get (E.collective_engine.h i))) = false) :
    weirEngines s v = (0, s.set E.weir_engines.s v) := if_neg (by simp [hkept])

theorem weirMills_stopped {s : State} {v : Nat} (hstopped : s.weirRunning = false) :
    weirMills s v = (0, s.set E.weir_mills.s v) := if_neg (by simp [hstopped])

/-- Settles O44, a lemma for each rule and each meaning on the clause's case; a write is its entry's rule (`RequestEntry.taken`,
`StaticEntry.taken`). -/
theorem weirCompletes : Obligations.WeirCompletes := by
  intro s
  refine ⟨?_, ?_, ?_, ?_, ?_, ?_, ?_, ?_, ?_, ?_, ?_⟩
  · intro r w v a hnew
    refine staticEntry_weir_clock_mode.taken a ?_
    rw [writeHook_weir_clock_mode, weirClockMode_changes hnew]
  · intro r w v a hstopped hlocked htest
    refine requestEntry_weir_start.taken a ?_
    rw [writeHook_weir_start, weirStart_taken hstopped hlocked htest]
  · rintro r w _ a rfl hstopped hlocked
    refine requestEntry_weir_start_on_launch.taken a ?_
    rw [writeHook_weir_start_on_launch, weirStartOnLaunch_taken hstopped hlocked]
  · exact fun hdue => complete_eq (congrArg State.lockFollow (weirStartFire_due hdue))
  · rintro _ rfl hruns hplaced hends hstays
    exact complete_eq (weirCycleBoundary_next hruns hplaced hends hstays)
  · rintro _ rfl hruns hplaced hends hstops
    exact complete_eq (weirCycleBoundary_halts hruns hplaced hends hstops)
  · rintro r w _ a rfl hscheduled
    refine requestEntry_weir_stop.taken a ?_
    rw [writeHook_weir_stop, weirStop_scheduled hscheduled]
  · rintro r w _ a rfl hrunning
    exact exec_weirStop_running a hrunning
  · intro r w v a hkept
    refine staticEntry_weir_engines.taken a ?_
    rw [writeHook_weir_engines, weirEngines_taken hkept]
  · intro r w v a hstopped
    refine staticEntry_weir_mills.taken a ?_
    rw [writeHook_weir_mills, weirMills_stopped hstopped]
  · exact fun hmode => complete_eq (if_pos hmode)

/-! ### A queue number outside the 16 of its port (R425) -/

/-- The number of a queue of port 0 whose `queue.shared_used` would stand where `weir.hold_drops` does. -/
def aliasQueue : Nat := (E.weir_hold_drops.s.key - (E.queue_shared_used.h 0).key) / 2 ^ 32

/-- A Weir packet of one cell that waits in that queue. -/
def aliasPkt : Pkt :=
  { mkPkt (.inner (.operand 0) []) 88 0xFFFF 8 0 1 0 with weir := 1, id := 1, queue := aliasQueue }

/-- The reset state with that packet. -/
def aliasState : State := { State.reset with sw := { State.reset.sw with pkts := [aliasPkt] } }

theorem aliasQueue_key : (E.queue_shared_used.h (qSlot 0 aliasQueue)).key = E.weir_hold_drops.s.key := by decide

theorem aliasState_waiting : aliasState.weirWaiting.length = 1 := by decide

theorem aliasState_holdDrops : aliasState.get E.weir_hold_drops.s = 0 := rfl

/-- The drop is counted, and the release of the packet's cell takes the count away again. -/
theorem aliasState_weirHalt_holdDrops : aliasState.weirHalt.get E.weir_hold_drops.s = 0 := by decide +kernel

/-- Refutes O24: its third clause speaks of every state, and a packet's queue number is any number; in a state whose one Weir
packet names `aliasQueue`, the queue's account stands at the key of `weir.hold_drops` (`aliasQueue_key`), and a stop leaves the
count at 0, not 1. The first two clauses hold (`exec_weirStop_running`, `weirCycleBoundary_halts`). -/
theorem not_weirStopsAtCycleEnd : ¬ Obligations.WeirStopsAtCycleEnd := by
  rintro ⟨-, -, hhalt⟩
  have hroom : aliasState.get E.weir_hold_drops.s < 2 ^ 64 := by
    rw [aliasState_holdDrops]
    decide
  obtain ⟨-, -, hcount, -⟩ := hhalt aliasState hroom
  rw [aliasState_weirHalt_holdDrops, aliasState_holdDrops, aliasState_waiting] at hcount
  exact absurd hcount (by decide)

/-! ### Lock-step -/

theorem lockstepStart_taken {s : State} {v : Nat} (hready : s.lockReady false = true) (hlong : s.lockShort = false)
    (htest : s.ftTest v = 0) : lockstepStart s v = (0, (s.schedule v .lockstep).set E.lockstep_state.s 1) := by
  simp [lockstepStart, hready, hlong, ftTestIn_free htest]

theorem lockstepStartOnLaunch_taken {s : State} (hready : s.lockReady true = true) (hlong : s.lockShort = false) :
    lockstepStartOnLaunch s 1 = (0, s.set E.lockstep_state.s 2) := by
  simp [lockstepStartOnLaunch, hready, hlong]

/-- The oldest window that has ended is closed: its frames are sent, and windows that are complete are compared. -/
theorem lockstepWindowClose_closes {s a b : State} {x : Nat} (hruns : s.get E.lockstep_state.s = 3)
    (hwindow : s.lockWindow = some x) (hended : s.lock.closed < x)
    (ha : a = (s.digestFrames s.lock.closed).foldl (fun st f => mrSend st (s.get E.lockstep_peer_port.s) 0 (.digest f)) s)
    (hb : b = ({ a with lock := { a.lock with closed := s.lock.closed + 1 } }).lockScan) (hstays : b.lock.stopAfter = none) :
    lockstepWindowClose s = b := by
  unfold lockstepWindowClose
  rw [hruns, hwindow]
  refine (if_neg (Nat.not_le.2 hended)).trans ?_
  dsimp only
  rw [← ha, ← hb, hstays]

/-- The stop of a Running lock-step is noted for the end of its window. -/
theorem lockstepStop_running {s : State} {x : Nat} (hruns : s.get E.lockstep_state.s = 3) (hwindow : s.lockWindow = some x) :
    lockstepStop s 1 = { s with lock := { s.lock with stopAfter := some x } } := by
  simp [lockstepStop, hruns, hwindow]

/-- The stop of a Scheduled lock-step drops its start. -/
theorem lockstepStop_scheduled {s : State} (hscheduled : s.get E.lockstep_state.s = 1) :
    lockstepStop s 1 = (s.unschedule .lockstep).set E.lockstep_state.s 0 := by
  simp [lockstepStop, hscheduled]

/-- Settles O45, a lemma for each rule on the clause's case; a write is its entry's rule (`RequestEntry.taken`). -/
theorem lockStepCompletes : Obligations.LockStepCompletes := by
  intro s
  refine ⟨?_, ?_, ?_, ?_, ?_⟩
  · intro r w v a hready hlong htest
    refine requestEntry_lockstep_start.taken a ?_
    rw [writeHook_lockstep_start, lockstepStart_taken hready hlong htest]
  · rintro r w _ a rfl hready hlong
    refine requestEntry_lockstep_start_on_launch.taken a ?_
    rw [writeHook_lockstep_start_on_launch, lockstepStartOnLaunch_taken hready hlong]
  · exact fun x a b hruns hwindow hended ha hb hstays =>
      complete_eq (lockstepWindowClose_closes hruns hwindow hended ha hb hstays)
  · rintro r w _ x a rfl hruns hwindow
    refine requestEntry_lockstep_stop.taken a ?_
    rw [writeHook_lockstep_stop, lockstepStop_running hruns hwindow]
  · rintro r w _ a rfl hscheduled
    refine requestEntry_lockstep_stop.taken a ?_
    rw [writeHook_lockstep_stop, lockstepStop_scheduled hscheduled]

end Sys2Proof.Machine

/-!
PROOFS of snapshots, attribution and the Archive (spec/16_counters_histograms_archive.md): the attribution table's reset (R448),
snapshots (R449, R450) and trace sessions (R454, R455).
-/

namespace Sys2Proof.Machine

/-! ### Writes of snapshot, attribution and session entries -/

theorem requestEntry_snap_at : RequestEntry E.snap_at := by constructor <;> decide

theorem requestEntry_attr_reset : RequestEntry E.attr_reset := by constructor <;> decide

theorem requestEntry_trace_open_at : RequestEntry E.trace_open_at := by constructor <;> decide

theorem requestEntry_trace_close_at : RequestEntry E.trace_close_at := by constructor <;> decide

/-- The rule of `snap.at`, by evaluating which chapter's rules name the entry; those below likewise. -/
theorem writeHook_snap_at (s : State) (w : Who) (n k i v : Nat) : writeHook s w E.snap_at n k i v = some (snapAt s v) := rfl

theorem writeHook_attr_reset (s : State) (w : Who) (n k i v : Nat) :
    writeHook s w E.attr_reset n k i v = some (0, attrReset s v) := rfl

theorem writeHook_trace_open_at (s : State) (w : Who) (n k i v : Nat) :
    writeHook s w E.trace_open_at n k i v = some (traceOpenAt s i v) := rfl

theorem writeHook_trace_close_at (s : State) (w : Who) (n k i v : Nat) :
    writeHook s w E.trace_close_at n k i v = some (traceCloseAt s i v) := rfl

/-! ### The attribution table's reset (R448) -/

/-- The table with every record cleared and records 1 to 4,094 free. -/
def State.attrCleared (s : State) : State := { s with attr := [] }.set E.attr_used.s 1

/-- A reset clears the table; the events of its cycle count in the new one. -/
theorem attrReset_one (s : State) : attrReset s 1 = s.cyc.attrs.foldl State.attrCount s.attrCleared := rfl

theorem State.attrCleared_attr (s : State) : s.attrCleared.attr = [] := rfl

theorem State.attrCleared_used (s : State) : s.attrCleared.get E.attr_used.s = 1 := State.get_set_self _ _ _

/-- A reset at once. -/
theorem exec_attrReset_one {s : State} {r : Req} {w : Who} (a : Accepts s r w E.attr_reset 0 0 0 1) :
    exec (.attrReset r 1) s = .next (wrote s (s.cyc.attrs.foldl State.attrCount s.attrCleared) r E.attr_reset 0 0 0 1) := by
  refine requestEntry_attr_reset.taken a ?_
  rw [writeHook_attr_reset, attrReset_one]

/-- A request in a transaction waits for no domain and no stack: its commit does. -/
theorem holdSrc_inTx {w : Who} (htx : w.inTx = true) (s : State) (e : Ent) (i v : Nat) : holdSrc s w e i v = none := if_pos htx

/-- A reset that a commit carries out. -/
theorem writeItem_attrReset {s : State} {w : Who} (htx : w.inTx = true)
    (hgate : writeGate5 s w (writeIt E.attr_reset 0 0 0 1) = .ok (E.attr_reset, 0, 0, 0)) :
    writeItem s w (writeIt E.attr_reset 0 0 0 1) = (0, keepTouched s (s.cyc.attrs.foldl State.attrCount s.attrCleared)) := by
  have hvalue : writeValue s w E.attr_reset 0 0 0 1 = (0, keepTouched s (attrReset s 1)) :=
    writeValue_hook rfl rfl rfl (requestEntry_attr_reset.unlocked s 0 0) (writeHook_attr_reset s w 0 0 0 1)
  have hlen : (writeIt E.attr_reset 0 0 0 1).data.length = E.attr_reset.len := leBytes_length _ _
  have hone : ofLe (writeIt E.attr_reset 0 0 0 1).data = 1 := by decide
  have hrange : E.attr_reset.rng.ok 1 = true := by decide
  have hfree : ¬ (w.inTx = true ∧ (E.attr_reset = E.pool_free ∨ E.attr_reset = E.pool_share)) :=
    fun h => h.2.elim requestEntry_attr_reset.unmanaged.1 requestEntry_attr_reset.unmanaged.2.1
  unfold writeItem
  rw [hgate]
  dsimp only
  rw [if_neg (by simp [requestEntry_attr_reset.plain, hlen]), hone, if_neg (by simp [hrange]), if_neg hfree, holdSrc_inTx htx]
  exact hvalue

/-- A Tenant holds no right on the attribution entries. -/
theorem rightOf_tenant_attr (s : State) (sub : Nat) : rightOf s 3 0xC200 sub = 0 := by
  have hstated : statedRight s 3 0xC200 sub = some 0 := by simp [statedRight]
  rw [rightOf, hstated]
  rfl

/-- A snapshot fires before a commit of the same FT (R80). -/
theorem snap_before_commit (ft sa sb id : Nat) : Act.before ⟨ft, sa, .snap⟩ ⟨ft, sb, .commit id⟩ = true := by
  simp [Act.before, ActKind.rank]

/-- Settles O25: what `attrReset` leaves, at once and at a commit, and who comes before it. -/
theorem attributionReset : Obligations.AttributionReset := by
  refine ⟨?_, ?_, fun s d => rfl, snap_before_commit, rightOf_tenant_attr⟩
  · rintro s _ r w a rfl
    refine ⟨exec_attrReset_one a, fun hnone => ?_⟩
    rw [hnone]
    exact ⟨s.attrCleared_attr, s.attrCleared_used, fun i => rfl⟩
  · intro s w htx hgate
    rw [writeItem_attrReset htx hgate]
    exact ⟨rfl, rfl⟩

/-! ### Snapshots (R449, R450) -/

/-- A snapshot that is at least 4,000 ns from every other is scheduled for its FT. -/
theorem snapAt_taken {s : State} {v : Nat} (hsome : v ≠ 0) (htest : s.ftTest v = 0)
    (hapart : s.snaps.any (fun x => near4000 x.ft v) = false) (hlast : ∀ l, s.snap.lastFt = some l → near4000 l v = false) :
    snapAt s v = (0, s.schedule v .snap) := by
  unfold snapAt
  dsimp only
  rw [if_neg hsome, if_neg hsome, htest, if_neg (not_not.2 rfl), hapart, Bool.false_or]
  refine if_neg ?_
  cases hl : s.snap.lastFt with
  | none => exact Bool.false_ne_true
  | some l => simp [hlast l hl]

/-- The pending actions without the first snapshot. -/
def State.snapTaken (s : State) : State :=
  { s with sched := match s.sched.find? (fun a => a.kind == .snap) with
      | some a => s.sched.erase a
      | none => s.sched }

/-- A snapshot that is due captures, and clears nothing where `snap.clear` is 0. -/
theorem snapshotFire_due {s : State} (hdue : s.isDue .snap = true) (hkept : s.getB E.snap_clear.s = false) :
    snapshotFire s = { s.snapTaken with snap := { s.snap with
      cap := some (s.capDerived.foldl (fun (m : NMap Nat) (x : Nat × Nat) => mput m x.1 x.2) s.capStored),
      capAttr := attrBefore s.attr s.cyc.attrs, capLive := s.liveKeys, capFt := s.ft, lastFt := some s.ft } } := by
  unfold snapshotFire
  rw [hdue]
  exact if_neg fun h => absurd (hkept.symm.trans h) Bool.false_ne_true

/-- A capture reaches the shadows. -/
theorem snapshotReady_captured {s : State} {m : NMap Nat} (hcap : s.snap.cap = some m) :
    snapshotReady s = ({ s with snap := { s.snap with
      cap := none, shadow := m, attr := s.snap.capAttr, live := s.snap.capLive, taken := true } }.set E.snap_seq.s
        ((s.get E.snap_seq.s + 1) % 2 ^ 32)).set E.snap_ft.s s.snap.capFt := by
  unfold snapshotReady
  rw [hcap]
  rfl

/-! ### Trace sessions (R454, R455) -/

/-- A Created or Closed session whose pool is fit is Scheduled to open. -/
theorem traceOpenAt_taken {s : State} {i v : Nat} (hstate : s.get (E.trace_state.h i) = 0 ∨ s.get (E.trace_state.h i) = 3)
    (hsome : v ≠ 0) (htest : s.ftTest v = 0) (hfit : s.traceCheck i = 0) :
    traceOpenAt s i v = (0, (s.schedule v (.traceOpen i)).hset (E.trace_state.h i) 7 i 1) := by
  have hright : (s.get (E.trace_state.h i) != 0 && s.get (E.trace_state.h i) != 3) = false := by rcases hstate with h | h <;> simp [h]
  simp [traceOpenAt, hright, hsome, ftTestIn_free htest, hfit]

/-- A session whose open is due is Open, and its marker written. -/
theorem traceOpenFire_due {s a : State} {ft seq i : Nat} (hdue : s.dueAct = some ⟨ft, seq, .traceOpen i⟩)
    (hfit : (s.unschedule (.traceOpen i)).traceCheck i = 0)
    (ha : a = (((s.unschedule (.traceOpen i)).traceFinish i).hset (E.trace_state.h i) 7 i 2).add E.archive_sessions_open.s 1) :
    traceOpenFire s = a.markWindow i a.ft 0 := by
  have hgo : (s.unschedule (.traceOpen i)).traceGo i = (0, a.markWindow i a.ft 0) := by
    rw [ha, State.traceGo, hfit]
    rfl
  simp only [traceOpenFire, hdue, hgo]

section
variable {s : State} {i : Nat} (hstate : s.get (E.trace_state.h i) = 1 ∨ s.get (E.trace_state.h i) = 2)
include hstate

/-- The close of a Scheduled or Open session is scheduled for its FT. -/
theorem traceCloseAt_later {v : Nat} (hsome : v ≠ 0) (htest : s.ftTest v = 0) :
    traceCloseAt s i v = (0, (s.unschedule (.traceClose i)).schedule v (.traceClose i)) := by
  have hright : (s.get (E.trace_state.h i) != 1 && s.get (E.trace_state.h i) != 2) = false := by rcases hstate with h | h <;> simp [h]
  simp [traceCloseAt, hright, hsome, ftTestIn_free htest]

/-- A Scheduled or Open session closes at once. -/
theorem traceCloseAt_now : traceCloseAt s i 0 = (0, (s.unschedule (.traceClose i)).traceStop i) := by
  have hright : (s.get (E.trace_state.h i) != 1 && s.get (E.trace_state.h i) != 2) = false := by rcases hstate with h | h <;> simp [h]
  simp [traceCloseAt, hright]

end

theorem traceCloseFire_due {s : State} {ft seq i : Nat} (hdue : s.dueAct = some ⟨ft, seq, .traceClose i⟩) :
    traceCloseFire s = (s.unschedule (.traceClose i)).traceStop i := by
  simp only [traceCloseFire, hdue]

/-- The oldest published buffer is answered and removed. -/
theorem traceNext_queued {s : State} {i x : Nat} {xs : List Nat} (hqueue : (s.trace i).queue = x :: xs) :
    traceNext s i = (x, s.modTrace i fun t => { t with queue := t.queue.drop 1 }) := by
  simp only [traceNext, hqueue]

theorem entOf_trace_next : entOf 0xC800 E.trace_next.sub = some E.trace_next := by decide +kernel

/-- The item of a READ of a session's `trace.next`. -/
def traceNextItem (h : Nat) : Item := ⟨0xC800, E.trace_next.sub, 0, h, 0, []⟩

/-- A READ of `trace.next` that the item checks pass takes the oldest published buffer. -/
theorem readItem_trace_next {s : State} {w : Who} {h x : Nat} {xs : List Nat} (hgate : itemGate s w (traceNextItem h) false 1 = 0)
    (hseen : notCaptured s w (traceNextItem h) = false) (hqueue : (s.trace (hIdx h)).queue = x :: xs) :
    readItem s w (traceNextItem h) =
      (0, leBytes 8 x, s.modTrace (hIdx h) fun t => { t with queue := t.queue.drop 1 }) := by
  have hsub : ¬ (traceNextItem h).sub = 0 := by
    change ¬ E.trace_next.sub = 0
    decide
  have hentry : entOf (traceNextItem h).index (traceNextItem h).sub = some E.trace_next := entOf_trace_next
  have hplain : ¬ (E.trace_next.ty = .domain ∨ (traceNextItem h).data ≠ []) := not_or.2 ⟨by decide, not_not.2 rfl⟩
  unfold readItem
  dsimp only
  rw [hgate, if_neg (not_not.2 rfl), if_neg hsub, hentry]
  dsimp only
  rw [if_neg hplain, hseen, if_neg Bool.false_ne_true, if_neg (by decide), if_neg (by decide), if_neg (by decide), if_pos rfl]
  have htake : traceNext s (hIdx (traceNextItem h).handle) =
      (x, s.modTrace (hIdx h) fun t => { t with queue := t.queue.drop 1 }) := traceNext_queued hqueue
  rw [htake]

/-- Settles O46, a lemma for each rule and each meaning on the clause's case; a write is its entry's rule (`RequestEntry.taken`),
the read of `trace.next` the one of its item (`read_answers`). -/
theorem archiveCompletes : Obligations.ArchiveCompletes := by
  intro s
  refine ⟨?_, ?_, ?_, ?_, ?_, ?_, ?_, ?_, ?_, ?_⟩
  · intro r w v a hsome htest hapart hlast
    refine requestEntry_snap_at.taken a ?_
    rw [writeHook_snap_at, snapAt_taken hsome htest hapart fun l hl => by simpa only [hl] using hlast]
  · rintro _ hdue hkept rfl
    exact complete_eq (congrArg State.lockFollow (snapshotFire_due hdue hkept))
  · exact fun m hcap => complete_eq (snapshotReady_captured hcap)
  · rintro r w _ a rfl
    exact exec_attrReset_one a
  · intro r w h v a hstate hsome htest hfit
    refine requestEntry_trace_open_at.taken a ?_
    rw [writeHook_trace_open_at, traceOpenAt_taken hstate hsome htest hfit]
  · exact fun ft seq i a hdue hfit ha => complete_eq (traceOpenFire_due hdue hfit ha)
  · intro r w h v a hstate hsome htest
    refine requestEntry_trace_close_at.taken a ?_
    rw [writeHook_trace_close_at, traceCloseAt_later hstate hsome htest]
  · rintro r w h _ a hstate rfl
    refine requestEntry_trace_close_at.taken a ?_
    rw [writeHook_trace_close_at, traceCloseAt_now hstate]
  · exact fun ft seq i hdue => complete_eq (traceCloseFire_due hdue)
  · intro r w h x xs hserves hgate hseen hqueue
    have hroom : overflows r 1 [] (leBytes 8 x) 0 = false :=
      overflows_value (e := E.trace_next) 1 x (entOf_mem entOf_trace_next) (by decide)
    have hother : reachesManager s w r 1 (traceNextItem h) = false :=
      reachesManager_other (managed_read entOf_trace_next (by decide))
    exact read_answers hserves (by decide) hroom hother (readItem_trace_next hgate hseen hqueue)

end Sys2Proof.Machine

/-!
PROOFS of Spring and Gauge (spec/17_spring_and_gauge.md): Spring's streams (R463, R465, R466) and Gauge's checks (R469).
-/

namespace Sys2Proof.Machine

/-! ### Writes of Spring's and Gauge's entries -/

theorem requestEntry_spring_start : RequestEntry E.spring_start := by constructor <;> decide

theorem requestEntry_spring_start_on_launch : RequestEntry E.spring_start_on_launch := by constructor <;> decide

theorem requestEntry_spring_stop : RequestEntry E.spring_stop := by constructor <;> decide

theorem requestEntry_gauge_enable : RequestEntry E.gauge_enable := by constructor <;> decide

/-- The rule of `spring.start`, by evaluating which chapter's rules name the entry; those below likewise. -/
theorem writeHook_spring_start (s : State) (w : Who) (n k i v : Nat) :
    writeHook s w E.spring_start n k i v = some (springStart s i v) := rfl

theorem writeHook_spring_start_on_launch (s : State) (w : Who) (n k i v : Nat) :
    writeHook s w E.spring_start_on_launch n k i v = some (springBind s i v) := rfl

theorem writeHook_spring_stop (s : State) (w : Who) (n k i v : Nat) :
    writeHook s w E.spring_stop n k i v = some (springStop s i v) := rfl

theorem writeHook_gauge_enable (s : State) (w : Who) (n k i v : Nat) :
    writeHook s w E.gauge_enable n k i v = some (0, gaugeEnable s i v) := rfl

/-! ### Spring's streams -/

section
variable {s : State} {i : Nat} (hstate : s.get (E.spring_state.h i) = 0 ∨ s.get (E.spring_state.h i) = 4)
  (hvalid : springOk s i = true)
include hstate hvalid

/-- A Created or Done stream that is valid is Scheduled for its start. -/
theorem springStart_taken {v : Nat} (htest : s.ftTest v = 0) :
    springStart s i v = (0, (s.schedule v (.springStart i)).hset (E.spring_state.h i) 5 i 1) := by
  have hright : (s.get (E.spring_state.h i) != 0 && s.get (E.spring_state.h i) != 4) = false := by rcases hstate with h | h <;> simp [h]
  simp [springStart, hright, ftTestIn_free htest, hvalid]

/-- A Created or Done stream that is valid is Bound to a launch. -/
theorem springBind_taken : springBind s i 1 = (0, s.hset (E.spring_state.h i) 5 i 2) := by
  have hright : ¬ (s.get (E.spring_state.h i) ≠ 0 ∧ s.get (E.spring_state.h i) ≠ 4) := by rcases hstate with h | h <;> simp [h]
  simp only [springBind, if_neg one_ne_zero, if_neg hright, hvalid, Bool.not_true, Bool.false_eq_true, if_false]

end

theorem springStartFire_due {s : State} {ft seq i : Nat} (hdue : s.dueAct = some ⟨ft, seq, .springStart i⟩) :
    springStartFire s = springGo (s.unschedule (.springStart i)) i := by
  simp only [springStartFire, hdue]

/-- A stream whose packet is due in time, and is not its last, creates it. -/
theorem springPacketCreate_creates {s : State} {i due : Nat} {p : Pkt} {a b c d : State} (hfirst : s.spring.lastCyc ≠ some s.cyc.n)
    (hnext : springNext s = some i) (hbuild : springBuild s i = (p, a)) (hdue : due = springDue s i (s.stream i).made)
    (hintime : s.ft ≤ due) (halone : (s.spring.lastCyc.isSome && s.spring.lastDue == due) = false)
    (hb : b = { a with spring := { a.spring with
      wait := a.spring.wait ++ [(⟨i, a.cyc.n, p⟩ : SpringPkt)], lastCyc := some a.cyc.n, lastDue := due,
      rt := mput a.spring.rt i { a.stream i with made := (a.stream i).made + 1 } } })
    (hc : c = (b.inc (E.spring_sent.h i) 1).inc (E.spring_bytes.h i) (48 + b.get (E.spring_length.h i)))
    (hd : d = c.set (E.spring_next_seq.h i) ((c.get (E.spring_next_seq.h i) + 1) % 2 ^ 32))
    (hmore : d.get (E.spring_count.h i) ≠ (d.stream i).made) : springPacketCreate s = d := by
  have hlate : (decide (due < s.ft) || (s.spring.lastCyc.isSome && s.spring.lastDue == due)) = false := by
    rw [halone, Bool.or_false, decide_eq_false (Nat.not_lt.2 hintime)]
  unfold springPacketCreate
  rw [if_neg hfirst, hnext]
  dsimp only
  rw [← hdue, hlate, hbuild]
  dsimp only
  rw [← hb, ← hc, if_neg Bool.false_ne_true, ← hd, if_neg hmore]

/-- The stop of a stream that is Scheduled, Bound or Running ends it. -/
theorem springStop_ends {s : State} {i : Nat} (hcreated : s.get (E.spring_state.h i) ≠ 0) (hdone : s.get (E.spring_state.h i) ≠ 4) :
    springStop s i 1 = (0, springDone (s.unschedule (.springStart i)) i 0x0B true) := by
  simp [springStop, hcreated, hdone]

/-! ### Gauge's checks -/

theorem gaugeEnable_zero (s : State) (i : Nat) : gaugeEnable s i 0 = s.hset (E.gauge_state.h i) 6 i 0 := rfl

/-- The statistics of a check that an enable sets to 0, but for the rules' counts and the histogram. -/
def gaugeStats : List Ent :=
  [E.gauge_expected, E.gauge_missing, E.gauge_latency_max, E.gauge_latency_sum, E.gauge_received, E.gauge_out_of_order,
    E.gauge_duplicates, E.gauge_stale, E.gauge_payload_errors, E.gauge_bit_errors, E.gauge_negative, E.gauge_copy_lost]

/-- Check i with those statistics at 0 and its least latency at its greatest value. -/
def State.gaugeCleared (s : State) (i : Nat) : State :=
  (gaugeStats.foldl (fun st e => st.set (e.h i) 0) s).set (E.gauge_latency_min.h i) 0xFFFFFFFF

theorem State.get_withSpring (s : State) (x : SpringSt) (l : Loc) : ({ s with spring := x } : State).get l = s.get l := rfl

/-- A place that is no place of the check's rules' counts, histogram or state reads as it does once the others are cleared. -/
theorem gaugeEnable_one_get (s : State) {i : Nat} {l : Loc} (hstate : l.key ≠ (E.gauge_state.h i).key)
    (hhistogram : ∀ o < 512, l.key ≠ (E.gauge_histogram.loc 0 0 i o).key) (hrules : ∀ k < 12, l.key ≠ (E.gauge_rule.hk i k).key) :
    (gaugeEnable s i 1).get l = (s.gaugeCleared i).get l := by
  have hput : ∀ o < 0 + (List.replicate 512 (0 : Byte)).length, l.key ≠ (E.gauge_histogram.loc 0 0 i o).key := fun o ho =>
    hhistogram o (by rwa [List.length_replicate, Nat.zero_add] at ho)
  unfold gaugeEnable
  rw [if_neg one_ne_zero]
  dsimp only
  rw [State.get_hset_ne _ _ _ _ _ _ hstate, State.get_withSpring, State.get_domPut_ne _ _ _ _ _ _ _ hput,
    get_foldl_hk _ _ _ _ _ fun k hk => hrules k (List.mem_range.1 hk)]
  rfl

/-- A field of check i at an offset 0 that is none of those reads so. -/
theorem gaugeEnable_one_field (s : State) {e : Ent} {i : Nat} (hi : i < 2 ^ 20)
    (hstate : e.idx * 256 + e.sub ≠ E.gauge_state.idx * 256 + E.gauge_state.sub)
    (hhistogram : e.idx * 256 + e.sub ≠ E.gauge_histogram.idx * 256 + E.gauge_histogram.sub)
    (hrules : ∀ k < 12, e.idx * 256 + e.sub ≠ E.gauge_rule.idx * 256 + (E.gauge_rule.sub + k * E.gauge_rule.subStep)) :
    (gaugeEnable s i 1).get (e.h i) = (s.gaugeCleared i).get (e.h i) := by
  refine gaugeEnable_one_get s (h_key_ne hstate hi hi) (fun o ho => ?_) (fun k hk => ?_)
  · show catKey (e.idx + 0) (e.sub + 0 * e.subStep) i 0 ≠ catKey (E.gauge_histogram.idx + 0) (E.gauge_histogram.sub + 0 * _) i o
    exact catKey_ne (by simpa only [Nat.add_zero, Nat.zero_mul] using hhistogram) hi hi (by norm_num) (by omega)
  · show catKey (e.idx + 0) (e.sub + 0 * e.subStep) i 0 ≠ catKey (E.gauge_rule.idx + 0) (E.gauge_rule.sub + k * E.gauge_rule.subStep) i 0
    exact catKey_ne (by simpa only [Nat.add_zero, Nat.zero_mul] using hrules k hk) hi hi (by norm_num) (by norm_num)

/-- A place that reads 0 reads 0 where any place is set to 0. -/
theorem State.get_set_zero {s : State} {l : Loc} (hzero : s.get l = 0) (m : Loc) : (s.set m 0).get l = 0 := by
  by_cases hkey : l.key = m.key
  · unfold State.get State.set
    rw [hkey]
    exact mgetD_mput_self _ _ _ _
  · rw [State.get_set_ne _ _ _ _ hkey, hzero]

/-- Every field of a list that is set to 0 in turn reads 0 in the end. -/
theorem get_foldl_set_zero {e : Ent} {i : Nat} (es : List Ent) (s : State) (h : s.get (e.h i) = 0 ∨ e ∈ es) :
    (es.foldl (fun st f => st.set (f.h i) 0) s).get (e.h i) = 0 := by
  induction es generalizing s with
  | nil => exact h.resolve_right List.not_mem_nil
  | cons f es ih =>
    refine ih _ ?_
    rcases h with hzero | hmem
    · exact .inl (State.get_set_zero hzero _)
    · rcases List.mem_cons.1 hmem with rfl | hmem
      · exact .inl (State.get_set_self _ _ _)
      · exact .inr hmem

section
variable (s : State) {i : Nat} (hi : i < 2 ^ 20)

theorem gaugeEnable_one_state (i : Nat) : (gaugeEnable s i 1).get (E.gauge_state.h i) = 1 := by
  unfold gaugeEnable
  rw [if_neg one_ne_zero]
  exact State.get_hset_self _ _ _ _ _

theorem gaugeEnable_one_seen (i : Nat) : mget? (gaugeEnable s i 1).spring.seen i = none := by
  unfold gaugeEnable
  rw [if_neg one_ne_zero]
  dsimp only
  rw [State.hset_spring, mget?_mdel_self]

include hi

theorem gaugeEnable_one_received : (gaugeEnable s i 1).get (E.gauge_received.h i) = 0 := by
  have hmem : E.gauge_received ∈ gaugeStats := by decide
  rw [gaugeEnable_one_field s hi (by decide) (by decide) (by decide), State.gaugeCleared,
    State.get_set_ne _ _ _ _ (h_key_ne (by decide) hi hi)]
  exact get_foldl_set_zero _ _ (.inr hmem)

theorem gaugeEnable_one_latencyMin : (gaugeEnable s i 1).get (E.gauge_latency_min.h i) = 0xFFFFFFFF := by
  rw [gaugeEnable_one_field s hi (by decide) (by decide) (by decide), State.gaugeCleared, State.get_set_self]

end

theorem hIdx_lt (h : Nat) : hIdx h < 2 ^ 20 := Nat.mod_lt _ (by decide)

/-- Settles O47, a lemma for each rule and each meaning on the clause's case; a write is its entry's rule
(`RequestEntry.taken`). -/
theorem springCompletes : Obligations.SpringCompletes := by
  intro s
  refine ⟨?_, ?_, ?_, ?_, ?_, ?_, ?_⟩
  · intro r w h v a hstate htest hvalid
    refine requestEntry_spring_start.taken a ?_
    rw [writeHook_spring_start, springStart_taken hstate hvalid htest]
  · rintro r w h _ a rfl hstate hvalid
    refine requestEntry_spring_start_on_launch.taken a ?_
    rw [writeHook_spring_start_on_launch, springBind_taken hstate hvalid]
  · exact fun ft seq i hdue => complete_eq (congrArg State.lockFollow (springStartFire_due hdue))
  · exact fun i due p a b c d hfirst hnext hbuild hdue hintime halone hb hc hd hmore =>
      complete_eq (springPacketCreate_creates hfirst hnext hbuild hdue hintime halone hb hc hd hmore)
  · rintro r w h _ a rfl hcreated hdone
    refine requestEntry_spring_stop.taken a ?_
    rw [writeHook_spring_stop, springStop_ends hcreated hdone]
  · rintro r w h _ a rfl
    refine requestEntry_gauge_enable.taken a ?_
    rw [writeHook_gauge_enable, gaugeEnable_zero]
  · intro r w h a
    exact ⟨gaugeEnable s (hIdx h) 1, requestEntry_gauge_enable.taken a (writeHook_gauge_enable s w 0 0 (hIdx h) 1),
      gaugeEnable_one_state s _, gaugeEnable_one_received s (hIdx_lt h), gaugeEnable_one_latencyMin s (hIdx_lt h),
      gaugeEnable_one_seen s _⟩

end Sys2Proof.Machine

/-!
PROOFS of the Curator and the host (spec/18_host_management_curator.md): the Curator (R476, R477), firmware (R479, R480), the life
cycle (R482), the management transports (R486 to R489) and the host port (R491 to R493, R496).
-/

namespace Sys2Proof.Machine

/-! ### Writes of firmware, life-cycle, sideband and ring entries -/

theorem requestEntry_fw_verify : RequestEntry E.fw_verify := by constructor <;> decide

theorem requestEntry_fw_commit : RequestEntry E.fw_commit := by constructor <;> decide

theorem requestEntry_lc_advance : RequestEntry E.lc_advance := by constructor <;> decide

theorem requestEntry_mctp_restart : RequestEntry E.mctp_restart := by constructor <;> decide

theorem staticEntry_hring_enable : StaticEntry E.hring_enable := by constructor <;> decide

/-- The rule of `fw.verify`, by evaluating which chapter's rules name the entry; those below likewise. -/
theorem writeHook_fw_verify (s : State) (w : Who) (n k i v : Nat) :
    writeHook s w E.fw_verify n k i v = some (0, fwVerify s v) := rfl

theorem writeHook_fw_commit (s : State) (w : Who) (n k i v : Nat) :
    writeHook s w E.fw_commit n k i v = some (0, fwCommit s v) := rfl

theorem writeHook_lc_advance (s : State) (w : Who) (n k i v : Nat) :
    writeHook s w E.lc_advance n k i v = some (lcAdvance s w.role v) := rfl

theorem writeHook_mctp_restart (s : State) (w : Who) (n k i v : Nat) :
    writeHook s w E.mctp_restart n k i v = some (0, mctpRestart s v) := rfl

theorem writeHook_hring_enable (s : State) (w : Who) (n k i v : Nat) :
    writeHook s w E.hring_enable n k i v = some (0, hringEnable s n v) := rfl

/-! ### The Curator and its firmware (R476 to R480) -/

theorem curatorReady_restarted {s : State} (hrestarting : s.mgmt.restarting = true) :
    curatorReady s = (s.set E.device_ready.s 1).modMgmt fun m => { m with restarting := false, fwWatch := none } :=
  if_pos hrestarting

theorem fwVerify_one (s : State) : fwVerify s 1 = s.set E.fw_verify_status.s (fwTest s (1 - s.fwSlot)) := rfl

/-- The activation of a verified slot is scheduled. -/
theorem fwActivate_taken {s : State} {v : Nat} (htest : s.ftTest v = 0) (hgood : s.get E.fw_verify_status.s = 0) :
    fwActivate s v = (0, s.schedule v (.fwActivate 0)) := by
  simp [fwActivate, hgood, ftTestIn_free htest]

/-- An activation that is due runs the other slot, and the cores or the chip restart. -/
theorem fwActivateFire_due {s a b : State} {ft seq m : Nat} (hdue : s.dueAct = some ⟨ft, seq, .fwActivate m⟩)
    (hb : b = (s.unschedule (.fwActivate m)).runSlot (1 - s.fwSlot)) (hft : b.ft = s.ft)
    (ha : a = (b.set E.fw_verify_status.s 0x0C).modMgmt fun x => { x with fwWatch := some (s.ft, s.fwSlot) })
    (hslot : (s.unschedule (.fwActivate m)).fwSlot = s.fwSlot) :
    fwActivateFire s = if a.get E.fw_activate_mode.s = 0 then a.restartCores else a.later (.chipReset 3) := by
  have hclock : (b.set E.fw_verify_status.s 0x0C).ft = s.ft := hft
  unfold fwActivateFire
  rw [hdue]
  dsimp only
  rw [hslot, ← hb, hclock, ← ha]

/-- A slot that is not ready in 10 s gives way to the one before it. -/
theorem fwFallback_late {s : State} {t old : Nat} (hwatch : s.mgmt.fwWatch = some (t, old)) (hlate : t + 10000000000 ≤ s.ft)
    (hunready : s.get E.device_ready.s = 0) : fwFallback s =
      ((((s.runSlot old).modMgmt fun m => { m with fwWatch := none }).stick E.fw_flags.s 0).raise 896).restartCores := by
  unfold fwFallback
  rw [hwatch]
  exact if_pos ⟨hlate, hunready⟩

theorem fwCommit_one (s : State) : fwCommit s 1 =
    (s.set E.fw_min_security.s (max (s.get E.fw_min_security.s) (s.get E.fw_running.s / 2 ^ 64 % 2 ^ 32))).modMgmt fun m =>
      { m with fwWatch := none } := rfl

/-! ### The life cycle (R482) -/

section
variable {s : State} {v : Nat} (hnext : v = s.get E.lc_state.s + 1)
include hnext

/-- The Factory role ends Factory once the identity key exists. -/
theorem lcAdvance_factory (hstate : s.get E.lc_state.s = 1) (hidentity : s.mgmt.identity = true) :
    lcAdvance s 0 v = (0, s.set E.lc_pending.s v) := by
  simp [lcAdvance, hnext, hstate, hidentity]

/-- The Owner ends Provisioned once its key is set. -/
theorem lcAdvance_provisioned (hstate : s.get E.lc_state.s = 2) (hkeys : bitAt (s.get E.sec_keys_set.s) 0 = true) :
    lcAdvance s 1 v = (0, s.set E.lc_pending.s v) := by
  simp [lcAdvance, hnext, hstate, hkeys]

/-- The Owner ends Deployed after its confirmation. -/
theorem lcAdvance_deployed (hstate : s.get E.lc_state.s = 3) (hconfirmed : s.get E.lc_confirm.s = 0x52455455) :
    lcAdvance s 1 v = (0, s.set E.lc_pending.s v) := by
  simp [lcAdvance, hnext, hstate, hconfirmed]

end

/-- Settles O48, a lemma for each rule and each meaning on the clause's case; a write is its entry's rule
(`RequestEntry.taken`). -/
theorem curatorCompletes : Obligations.CuratorCompletes := by
  intro s
  refine ⟨complete_eq rfl, complete_eq rfl, ?_, ?_, ?_, ?_, ?_, ?_, ?_, ?_, ?_⟩
  · exact fun hrestarting => complete_eq (curatorReady_restarted hrestarting)
  · rintro r w _ a rfl
    refine requestEntry_fw_verify.taken a ?_
    rw [writeHook_fw_verify, fwVerify_one]
  · intro r w v a htest hgood
    refine requestEntry_fw_activate.taken a ?_
    rw [writeHook_fw_activate, fwActivate_taken htest hgood]
  · exact fun ft seq m a hdue ha hslot _ hft => complete_eq (fwActivateFire_due hdue rfl hft ha hslot)
  · exact fun t old hwatch hlate hunready => complete_eq (fwFallback_late hwatch hlate hunready)
  · rintro r w _ a rfl
    refine requestEntry_fw_commit.taken a ?_
    rw [writeHook_fw_commit, fwCommit_one]
  · intro r w v a hnext hstate hrole hkeys
    refine requestEntry_lc_advance.taken a ?_
    rw [writeHook_lc_advance, hrole, lcAdvance_provisioned hnext hstate hkeys]
  · intro r w v a hnext hstate hrole hidentity
    refine requestEntry_lc_advance.taken a ?_
    rw [writeHook_lc_advance, hrole, lcAdvance_factory hnext hstate hidentity]
  · intro r w v a hnext hstate hrole hconfirmed
    refine requestEntry_lc_advance.taken a ?_
    rw [writeHook_lc_advance, hrole, lcAdvance_deployed hnext hstate hconfirmed]

/-! ### The management transports (R486 to R489) -/

/-- GET_VERSION is answered in every state but Blank. -/
theorem spdmRequest_version {s : State} {b : List Byte} (eid : Nat) (hlive : s.get E.lc_state.s ≠ 0)
    (hup : s.mgmt.sbFailed = false) (hcode : leAt b 1 1 = 0x84) :
    spdmRequest s eid b = (s.modMgmt fun m => { m with spdm := 1 }).emit (.mctp eid (leBytes 1 0x05 ++ leBytes 1 0x10 ++
      leBytes 1 0x04 ++ leBytes 2 0 ++ leBytes 1 0 ++ leBytes 1 1 ++ leBytes 2 0x1200)) := by
  have hserves : ¬ (s.get E.lc_state.s = 0 ∨ s.mgmt.sbFailed = true) := by simp [hlive, hup]
  unfold spdmRequest
  rw [if_neg hserves]
  exact if_pos hcode

section
variable {s : State} (hup : s.mgmt.sbFailed = false)
include hup

theorem setEndpointId_taken {eid : Nat} (hsome : eid ≠ 0) (hunicast : eid < 255) : setEndpointId s eid = s.set E.mctp_eid.s eid := by
  have hvalid : ¬ (s.mgmt.sbFailed = true ∨ eid = 0 ∨ 255 ≤ eid) := by simp [hup, hsome, hunicast]
  exact if_neg hvalid

/-- A line found stuck is noted from when it was, and recovery begins. -/
theorem sidebandStuck_first (hfree : s.mgmt.stuckAt = none) : sidebandStuck s =
    ((s.modMgmt fun m => { m with stuckAt := some (s.ft - 10000000), recoverAt := s.ft + 5000000 }).inc
      E.mctp_recoveries.s 1).emit (.device 1 [9]) :=
  if_neg (by simp [hup, hfree])

section
variable {t : Nat} (hstuck : s.mgmt.stuckAt = some t)
include hstuck

/-- Another round while the line is low. -/
theorem sidebandRound_low (hturn : s.mgmt.recoverAt ≤ s.ft) (hintime : s.ft < t + 35000000) : sidebandRound s true =
    (s.modMgmt fun m => { m with recoverAt := m.recoverAt + 5000000 }).emit (.device 1 [9]) := by
  have hnow : ¬ (s.ft < s.mgmt.recoverAt ∨ t + 35000000 ≤ s.ft) := by omega
  simp only [sidebandRound, hstuck, hup, Bool.not_true, Bool.false_eq_true, if_false, if_neg hnow]

/-- A line that is released is stuck no more. -/
theorem sidebandRound_released : sidebandRound s false = s.modMgmt fun m => { m with stuckAt := none } := by
  simp only [sidebandRound, hstuck, hup, Bool.not_false, Bool.false_eq_true, if_false, if_true]

end

/-- The sideband is given up: its sessions close. -/
theorem sidebandFailed_clock : sidebandFailed s true =
    ((((s.modMgmt fun m => { m with sbFailed := true, stuckAt := none }).stick E.mctp_flags.s 0).raise 2).closeVia .mctp).emit
      (.device 1 [0]) :=
  if_neg (by simp [hup])

end

theorem mctpRestart_one (s : State) : mctpRestart s 1 = s.modMgmt fun m => { m with sbFailed := false, stuckAt := none } := rfl

/-- An ARP request for the port's own address is answered. -/
theorem mgmtFrame_arp {s : State} {b ip : List Byte} (htype : beAt b 12 2 = 0x0806)
    (hip : ip = (leBytes 12 (s.get E.comm_ipv4.s)).take 4) (hrequest : beAt b 20 2 = 1) (hmine : slice b 38 4 = ip)
    (hsome : ofLe ip ≠ 0) : mgmtFrame s b = s.emit (.mgmtFrame (mgmtEth b 0x0806 ++ slice b 14 6 ++ beBytes 2 2 ++
      leBytes 6 Config.commMac ++ ip ++ slice b 22 10)) := by
  unfold mgmtFrame
  dsimp only
  rw [← hip, if_pos htype, if_pos ⟨hrequest, hmine, hsome⟩]

/-- A frame of no type that the port serves is dropped and counted. -/
theorem mgmtFrame_other {s : State} {b : List Byte} (harp : beAt b 12 2 ≠ 0x0806) (hip4 : beAt b 12 2 ≠ 0x0800)
    (hip6 : beAt b 12 2 ≠ 0x86DD) : mgmtFrame s b = s.inc E.comm_dropped.s 1 := by
  unfold mgmtFrame
  dsimp only
  rw [if_neg harp, if_neg hip4, if_neg hip6]

/-- Settles O49, a lemma for each meaning on the clause's case; a write is its entry's rule (`RequestEntry.taken`). -/
theorem managementPortsComplete : Obligations.ManagementPortsComplete := by
  intro s
  refine ⟨?_, ?_, ?_, ?_, ?_, ?_, ?_, ?_, ?_⟩
  · exact fun eid b hlive hup hcode => complete_eq (spdmRequest_version eid hlive hup hcode)
  · exact fun eid hup hsome hunicast => complete_eq (setEndpointId_taken hup hsome hunicast)
  · exact fun hup hfree => complete_eq (sidebandStuck_first hup hfree)
  · exact fun t hstuck hup hturn hintime => complete_eq (sidebandRound_low hup hstuck hturn hintime)
  · exact fun t hstuck hup => complete_eq (sidebandRound_released hup hstuck)
  · exact fun hup => complete_eq (sidebandFailed_clock hup)
  · rintro r w _ a rfl
    refine requestEntry_mctp_restart.taken a ?_
    rw [writeHook_mctp_restart, mctpRestart_one]
  · exact fun b ip htype hip hrequest hmine hsome => complete_eq (mgmtFrame_arp htype hip hrequest hmine hsome)
  · exact fun b harp hip4 hip6 => complete_eq (mgmtFrame_other harp hip4 hip6)

/-! ### The aperture (R491) -/

/-- A host write through the aperture that is in its range, not held and covered is a store. -/
theorem apertureAccess_write {s : State} {off : Nat} {data : List Byte} (len : Nat) (hon : s.hostOn = true)
    (hin : off + data.length ≤ 1073741824) (hheld : s.ms.apHeld = [])
    (hup : s.retained (s.get E.host_aperture_base.s + off) data.length = false)
    (hok : apertureOk s (s.get E.host_aperture_base.s + off) data.length 1 = true) :
    apertureAccess s true off len data = s.store (s.get E.host_aperture_base.s + off) data := by
  have hgoes : ¬ ((!s.hostOn) = true ∨ 1073741824 < off + (if true = true then data.length else len)) := by simp [hon, hin]
  have hnow : ¬ (s.ms.apHeld ≠ [] ∨
      s.retained (s.get E.host_aperture_base.s + off) (if true = true then data.length else len) = true) := by simp [hheld, hup]
  unfold apertureAccess
  dsimp only
  rw [if_neg hgoes, if_neg hnow, if_pos rfl, if_pos hok]

/-- A host read through the aperture that is in its range, not held and covered answers what is loaded. -/
theorem apertureAccess_read {s a : State} {off len : Nat} {d : List Byte} (data : List Byte) (hon : s.hostOn = true)
    (hin : off + len ≤ 1073741824) (hheld : s.ms.apHeld = [])
    (hup : s.retained (s.get E.host_aperture_base.s + off) len = false)
    (hok : apertureOk s (s.get E.host_aperture_base.s + off) len 0 = true)
    (hload : s.load (s.get E.host_aperture_base.s + off) len = (d, a)) :
    apertureAccess s false off len data = a.emit (.hostReadData d) := by
  have hgoes : ¬ ((!s.hostOn) = true ∨ 1073741824 < off + (if false = true then data.length else len)) := by simp [hon, hin]
  have hnow : ¬ (s.ms.apHeld ≠ [] ∨
      s.retained (s.get E.host_aperture_base.s + off) (if false = true then data.length else len) = true) := by simp [hheld, hup]
  unfold apertureAccess
  dsimp only
  rw [if_neg hgoes, if_neg hnow, if_neg Bool.false_ne_true, if_pos hok, hload]

/-! ### The host's rings (R492, R493, R496) -/

/-- The host posts entries of a ring, and clears flags of it. -/
theorem ringTail_posts {s : State} {k size new : Nat} {post : Post} {entries : List (List Byte)} (hon : s.hostOn = true)
    (hsize : size = max 1 (s.get (E.hring_size.n k))) (hnew : new = (post.tail % size + size - (s.ring k).tail % size) % size) :
    ringTail s k post entries = s.modRing k fun t => { t with
      flags := t.flags &&& (7 ^^^ (post.clear % 8)), tail := post.tail % size,
      posted := t.posted ++ (entries ++ List.replicate new (leBytes 16 0)).take new } := by
  subst hsize hnew
  exact if_neg (by simp [hon])

theorem hringEnable_one (s : State) (k : Nat) :
    hringEnable s k 1 = (s.set (E.hring_enable.n k) 1).modRing k fun x => { x with stopped := false } := rfl

/-- A ring that stops gives back what it holds, but ring 3 still sends a frame that has begun. -/
theorem hringEnable_zero (s : State) (k : Nat) : hringEnable s k 0 =
    if k = 3 then (s.set (E.hring_enable.n k) 0).modRing k fun x => { x with stopped := false }
    else ((s.set (E.hring_enable.n k) 0).modRing k fun x => { x with stopped := false }).ringClear k := by
  by_cases hk : k = 3 <;> simp [hringEnable, hk]

section
variable {s : State} {k : Nat} {x : RingRec} {xs : List RingRec} (hon : s.ringOn k = true) (hstaged : (s.ring k).staged = x :: xs)
include hstaged

theorem ringFits_iff : ringFits s k = true ↔ (s.ring k).posted ≠ [] ∧ (fillBuffers (s.ring k).posted x.bytes).2 = [] := by
  simp [ringFits, hstaged]

/-- A record for which the posted entries do not do is judged as the core cycle ends. -/
theorem ringDeliver_short (hk : k ≠ 2) (hshort : (s.ring k).posted = [] ∨ (fillBuffers (s.ring k).posted x.bytes).2 ≠ [])
    (hfirst : s.cyc.rings.contains k = false) :
    ringDeliver s k = { s with cyc := { s.cyc with rings := s.cyc.rings ++ [k] } } := by
  have hmisfit : ¬ ringFits s k = true := fun h =>
    hshort.elim (fun hnone => ((ringFits_iff hstaged).1 h).1 hnone) fun hleft => hleft ((ringFits_iff hstaged).1 h).2
  rw [ringDeliver, if_neg hk, if_neg hmisfit, hfirst, if_neg Bool.false_ne_true]

include hon

theorem ringTake_front : ringTake s k = ringWrite s k x := by
  simp [ringTake, hon, hstaged]

/-- A record for which the posted entries do is written. -/
theorem ringDeliver_fits (hk : k ≠ 2) (hposted : (s.ring k).posted ≠ [])
    (hwhole : (fillBuffers (s.ring k).posted x.bytes).2 = []) : ringDeliver s k = ringWrite s k x := by
  rw [ringDeliver, if_neg hk, if_pos ((ringFits_iff hstaged).2 ⟨hposted, hwhole⟩), ringTake_front hon hstaged]

end

/-- The holdoff's end raises the ring's vector. -/
theorem ringIrq_due {s : State} {k t : Nat} (hirq : (s.ring k).irqAt = some t)
    (hdue : t + s.get (E.hring_irq_holdoff.n k) ≤ s.ft) (hon : s.hostOn = true) :
    ringIrq s k = (s.modRing k fun x => { x with irqAt := none }).emit (.irq (1 + k)) := by
  unfold ringIrq
  rw [hirq]
  exact if_pos ⟨hdue, hon⟩

/-- The first descriptor of a frame that goes on is kept with its bytes. -/
theorem txDescriptor_first {s : State} {d : List Byte} {ds : List (List Byte)} (data : List Byte) (hposted : (s.ring 3).posted = d :: ds)
    (hruns : s.ringOn 3 = true ∨ (s.hostOn = true ∧ (s.ring 3).acc ≠ [])) (hfirst : bitAt (leAt d 12 1) 1 = true)
    (hmore : bitAt (leAt d 12 1) 2 = false) : txDescriptor s data =
      s.modRing 3 fun t => { t with
        head := (t.head + 1) % max 1 (s.get (E.hring_size.n 3)), posted := ds, acc := [((s.ring 3).head, d)],
        accBytes := (data ++ List.replicate (leAt d 8 2) 0).take (leAt d 8 2) } := by
  have hgoes : (s.ringOn 3 || (s.hostOn && (s.ring 3).acc != [])) = true := by
    rcases hruns with h | ⟨h, hacc⟩
    · simp [h]
    · simp [h, hacc]
  unfold txDescriptor
  dsimp only
  rw [hposted]
  dsimp only
  rw [hgoes, hfirst, hmore]
  rfl

/-- Settles O50, a lemma for each meaning on the clause's case; a write is its entry's rule (`StaticEntry.taken`). -/
theorem hostPortCompletes : Obligations.HostPortCompletes := by
  intro s
  refine ⟨?_, ?_, ?_, ?_, ?_, ?_, ?_, ?_, ?_, ?_⟩
  · exact fun off len data hon hin hheld hup hok => complete_eq (apertureAccess_write len hon hin hheld hup hok)
  · exact fun off len data d a hon hin hheld hup hok hload => complete_eq (apertureAccess_read data hon hin hheld hup hok hload)
  · exact fun k size new post entries hon hsize hnew => complete_eq (ringTail_posts hon hsize hnew)
  · rintro r w k _ a rfl
    refine staticEntry_hring_enable.taken a ?_
    rw [writeHook_hring_enable, hringEnable_one]
  · rintro r w k _ _ a rfl rfl
    refine staticEntry_hring_enable.taken a ?_
    rw [writeHook_hring_enable, hringEnable_zero]
  · exact fun k x xs hk hon hstaged hposted hwhole => complete_eq (ringDeliver_fits hon hstaged hk hposted hwhole)
  · exact fun k x xs hk hon hstaged hshort hfirst =>
      ⟨complete_eq (ringDeliver_short hstaged hk hshort hfirst), ringTake_front hon hstaged⟩
  · exact complete_eq rfl
  · exact fun k t hirq hdue hon => complete_eq (ringIrq_due hirq hdue hon)
  · exact fun data d ds hposted hruns hfirst hmore => complete_eq (txDescriptor_first data hposted hruns hfirst hmore)

end Sys2Proof.Machine

/-!
PROOFS of fault sources (spec/19_faults_and_reactions.md): a raised source sets once (R503), the chip-reset reaction and block
resets (R506), the FAULT_N pin (R508, R509) and injection (R513).
-/

namespace Sys2Proof.Machine

/-! ### Bits of a word -/

theorem bitAt_eq_testBit (n i : Nat) : bitAt n i = n.testBit i := by
  rw [bitAt, Nat.testBit_eq_decide_div_mod_eq]
  rfl

theorem bitAt_setBitAt (n i j : Nat) : bitAt (setBitAt n i) j = (bitAt n j || decide (i = j)) := by
  rw [bitAt_eq_testBit, bitAt_eq_testBit, setBitAt, Nat.testBit_or, Nat.testBit_two_pow]

/-! ### What the reactions of a setting leave (R506)

The reactions answer, note and schedule; of the entries they write only the counts of lost notifications and traps and the last
trap. -/

/-- The entries that the reactions of a setting write. -/
def reactionKeys : List Nat := [E.fault_notify_lost.s.key, E.fault_last_trap.s.key, E.fault_traps.s.key]

/-- Every entry but those of `reactionKeys` reads the same in two states. -/
def SameButReactions (s t : State) : Prop := ∀ l : Loc, l.key ∉ reactionKeys → t.get l = s.get l

theorem SameButReactions.refl (s : State) : SameButReactions s s := fun _ _ => rfl

theorem SameButReactions.trans {s t u : State} (h : SameButReactions s t) (g : SameButReactions t u) : SameButReactions s u :=
  fun l hl => (g l hl).trans (h l hl)

theorem SameButReactions.of_cat {s t : State} (h : t.cat = s.cat) : SameButReactions s t := fun l _ => by
  rw [State.get, State.get, h]

theorem SameButReactions.foldl_proj {α β : Type} (g : β → State) {f : β → α → β} (h : ∀ b a, SameButReactions (g b) (g (f b a)))
    (l : List α) (b : β) : SameButReactions (g b) (g (l.foldl f b)) := by
  induction l generalizing b with
  | nil => exact .refl _
  | cons a l ih => exact (h b a).trans (ih (f b a))

theorem SameButReactions.foldl {α : Type} {f : State → α → State} (h : ∀ s a, SameButReactions s (f s a)) (l : List α) (s : State) :
    SameButReactions s (l.foldl f s) :=
  .foldl_proj id h l s

theorem later_sameButReactions (s : State) (t : Todo) : SameButReactions s (s.later t) := .of_cat rfl

theorem set_sameButReactions (s : State) {l : Loc} (hl : l.key ∈ reactionKeys) (v : Nat) : SameButReactions s (s.set l v) :=
  fun m hm => s.get_set_ne l m v (ne_of_mem_of_not_mem hl hm).symm

theorem inc_sameButReactions (s : State) {l : Loc} (hl : l.key ∈ reactionKeys) (n : Nat) : SameButReactions s (s.inc l n) :=
  fun m hm => s.get_inc_ne l m n (ne_of_mem_of_not_mem hl hm).symm

theorem notifyMctp_cat (s : State) (eid : Nat) (pdu : List Byte) : (s.notifyMctp eid pdu).cat = s.cat := by
  unfold State.notifyMctp
  dsimp only
  split <;> rfl

theorem notify_sameButReactions (s : State) (srcs : List Nat) : SameButReactions s (s.notify srcs).1 := by
  unfold State.notify
  extract_lets step
  have hstep : ∀ acc x, SameButReactions acc.1 (step acc x).1 := by
    intro acc x
    refine .of_cat ?_
    dsimp only [step]
    split
    · rfl
    · split
      · rfl
      · rfl
      · exact notifyMctp_cat _ _ _
      · rfl
  have hsessions := SameButReactions.foldl_proj Prod.fst hstep s.mgmt.sessions (s, [], 0)
  exact hsessions.trans (.trans (.of_cat rfl) (inc_sameButReactions _ (by decide) _))

/-- The trap of a setting, the first of a cycle or one of a lower source (R506). -/
theorem trap_sameButReactions (s : State) (v : Nat) :
    SameButReactions s { (s.set E.fault_last_trap.s v).inc E.fault_traps.s 1 with
      cyc := { ((s.set E.fault_last_trap.s v).inc E.fault_traps.s 1).cyc with trapped := true } } :=
  (set_sameButReactions s (by decide) v).trans ((inc_sameButReactions _ (by decide) 1).trans (.of_cat rfl))

theorem react_sameButReactions (s : State) (settings : List Nat) : SameButReactions s (s.react settings).1 := by
  unfold State.react
  extract_lets masked nots
  have hnotify : SameButReactions s (if nots = [] then (s, false) else s.notify nots).1 := by
    split
    · exact .refl s
    · exact notify_sameButReactions s nots
  generalize (if nots = [] then (s, false) else s.notify nots) = p at hnotify ⊢
  obtain ⟨t, lost⟩ := p
  dsimp -zeta only
  extract_lets irq old trapped flt reset blocks records
  have hirq : SameButReactions t irq := by
    dsimp only [irq]
    split <;> exact .of_cat rfl
  have htrap : SameButReactions irq trapped := by
    dsimp only [trapped]
    split
    · exact .refl _
    · split
      · split
        · exact set_sameButReactions _ (by decide) _
        · exact .refl _
      · exact trap_sameButReactions _ _
  have hreset : SameButReactions trapped reset := by
    dsimp only [reset]
    split
    · exact .refl _
    · split <;> exact .of_cat rfl
  have hblocks : SameButReactions reset blocks := by
    refine .foldl (fun st src => ?_) _ _
    split
    · exact later_sameButReactions _ _
    · exact .refl _
  have hrecords : SameButReactions blocks records := .foldl (fun _ _ => later_sameButReactions _ _) _ _
  exact ((((hnotify.trans hirq).trans htrap).trans hreset).trans hblocks).trans hrecords

/-! ### One source raised (R503) -/

/-- The place of a source's sticky bit. -/
def stickyLoc (src : Nat) : Loc := E.fault_sticky.n (src / 64)

theorem stickyLoc_key_ne {a b : Nat} (h : a / 64 ≠ b / 64) : (stickyLoc a).key ≠ (stickyLoc b).key := by
  have hplace : (0xA400 + a / 64) * 256 + 1 ≠ (0xA400 + b / 64) * 256 + 1 := by omega
  exact catKey_ne hplace (by decide) (by decide) (by decide) (by decide)

theorem stickyLoc_key_ne_sets (a b : Nat) : (stickyLoc a).key ≠ (E.fault_sets.n b).key := by
  have hplace : (0xA400 + a / 64) * 256 + 1 ≠ (0xA000 + b) * 256 + 3 := by omega
  exact catKey_ne hplace (by decide) (by decide) (by decide) (by decide)

theorem setsLoc_key_ne {a b : Nat} (h : a ≠ b) : (E.fault_sets.n a).key ≠ (E.fault_sets.n b).key := by
  have hplace : (0xA000 + a) * 256 + 3 ≠ (0xA000 + b) * 256 + 3 := by omega
  exact catKey_ne hplace (by decide) (by decide) (by decide) (by decide)

theorem stickyLoc_not_reaction (src : Nat) : (stickyLoc src).key ∉ reactionKeys := by
  have hlost : (0xA400 + src / 64) * 256 + 1 ≠ (0xA800 + 0) * 256 + 0x14 := by omega
  have hlast : (0xA400 + src / 64) * 256 + 1 ≠ (0xA800 + 0) * 256 + 0x05 := by omega
  have htraps : (0xA400 + src / 64) * 256 + 1 ≠ (0xA800 + 0) * 256 + 0x10 := by omega
  simp only [reactionKeys, List.mem_cons, List.not_mem_nil, or_false, not_or]
  exact ⟨catKey_ne hlost (by decide) (by decide) (by decide) (by decide),
    catKey_ne hlast (by decide) (by decide) (by decide) (by decide),
    catKey_ne htraps (by decide) (by decide) (by decide) (by decide)⟩

theorem setsLoc_not_reaction (src : Nat) : (E.fault_sets.n src).key ∉ reactionKeys := by
  have hlost : (0xA000 + src) * 256 + 3 ≠ (0xA800 + 0) * 256 + 0x14 := by omega
  have hlast : (0xA000 + src) * 256 + 3 ≠ (0xA800 + 0) * 256 + 0x05 := by omega
  have htraps : (0xA000 + src) * 256 + 3 ≠ (0xA800 + 0) * 256 + 0x10 := by omega
  simp only [reactionKeys, List.mem_cons, List.not_mem_nil, or_false, not_or]
  exact ⟨catKey_ne hlost (by decide) (by decide) (by decide) (by decide),
    catKey_ne hlast (by decide) (by decide) (by decide) (by decide),
    catKey_ne htraps (by decide) (by decide) (by decide) (by decide)⟩

/-- The state with a source's sticky bit set, and the raise noted for a clear on the same cycle where the bit was set before. -/
def State.stuck (s : State) (src : Nat) (already : List Nat) : State :=
  { s.stick (stickyLoc src) (src % 64) with cyc := { (s.stick (stickyLoc src) (src % 64)).cyc with again := already ++ s.cyc.again } }

theorem sortBy_dedup_one (src : Nat) : sortBy (fun a b => decide (a < b)) (dedup [src]) = [src] := rfl

theorem raiseSet_one_set {s : State} {src : Nat} (h : s.srcSet src = true) : s.raiseSet [src] = (s.stuck src [src], false) := by
  have halready : [src].filter (fun x => s.srcSet x) = [src] := by simp [h]
  have hsettings : [src].filter (fun x => !s.srcSet x) = [] := by simp [h]
  unfold State.raiseSet
  dsimp only
  rw [sortBy_dedup_one, halready, hsettings]
  exact if_pos rfl

theorem raiseSet_one_clear {s : State} {src : Nat} (h : s.srcSet src = false) :
    s.raiseSet [src] = ((s.stuck src []).inc (E.fault_sets.n src) 1).react [src] := by
  have halready : [src].filter (fun x => s.srcSet x) = [] := by simp [h]
  have hsettings : [src].filter (fun x => !s.srcSet x) = [src] := by simp [h]
  unfold State.raiseSet
  dsimp only
  rw [sortBy_dedup_one, halready, hsettings]
  exact if_neg (List.cons_ne_nil _ _)

theorem stuck_get_ne (s : State) {src : Nat} {l : Loc} (already : List Nat) (h : l.key ≠ (stickyLoc src).key) :
    (s.stuck src already).get l = s.get l := s.get_stick_ne _ _ _ h

/-- A source's bit is set, and no other is cleared. -/
theorem stuck_srcSet (s : State) (src x : Nat) (already : List Nat) :
    (s.stuck src already).srcSet x = (s.srcSet x || decide (src = x)) := by
  by_cases hword : x / 64 = src / 64
  · have hget : (s.stuck src already).get (stickyLoc x) = setBitAt (s.get (stickyLoc x)) (src % 64) := by
      have hplace : stickyLoc x = stickyLoc src := by rw [stickyLoc, hword, stickyLoc]
      rw [hplace]
      exact s.get_stick_self _ _
    have hbit : (src % 64 = x % 64) = (src = x) := by
      refine propext ⟨fun hb => ?_, fun h => by rw [h]⟩
      omega
    show bitAt ((s.stuck src already).get (stickyLoc x)) (x % 64) = _
    rw [hget, bitAt_setBitAt]
    simp only [hbit]
    rfl
  · have hne : src ≠ x := fun h => hword (by rw [h])
    show bitAt ((s.stuck src already).get (stickyLoc x)) (x % 64) = _
    rw [stuck_get_ne _ _ (stickyLoc_key_ne hword), decide_eq_false hne, Bool.or_false]
    rfl

/-- A source is set after it is raised, and sources that were set stay so. -/
theorem raiseSet_one_srcSet {s : State} {src x : Nat} (h : s.srcSet x = true ∨ src = x) : (s.raiseSet [src]).1.srcSet x = true := by
  have hstuck : ∀ already, (s.stuck src already).srcSet x = true := fun already => by
    rw [stuck_srcSet, Bool.or_eq_true, decide_eq_true_iff]
    exact h
  cases hsrc : s.srcSet src with
  | true =>
    rw [raiseSet_one_set hsrc]
    exact hstuck _
  | false =>
    have hkept : (((s.stuck src []).inc (E.fault_sets.n src) 1).react [src]).1.get (stickyLoc x) =
        (s.stuck src []).get (stickyLoc x) :=
      (react_sameButReactions _ _ _ (stickyLoc_not_reaction x)).trans (State.get_inc_ne _ _ _ _ (stickyLoc_key_ne_sets x src))
    rw [raiseSet_one_clear hsrc]
    show bitAt ((((s.stuck src []).inc (E.fault_sets.n src) 1).react [src]).1.get (stickyLoc x)) (x % 64) = true
    rw [hkept]
    exact hstuck []

/-- A raise of another source, or of one that is set, counts no setting of source x. -/
theorem raiseSet_one_sets_kept {s : State} {src x : Nat} (h : s.srcSet src = true ∨ x ≠ src) :
    (s.raiseSet [src]).1.get (E.fault_sets.n x) = s.get (E.fault_sets.n x) := by
  have hstuck : ∀ already, (s.stuck src already).get (E.fault_sets.n x) = s.get (E.fault_sets.n x) :=
    fun already => stuck_get_ne s already (stickyLoc_key_ne_sets src x).symm
  cases hsrc : s.srcSet src with
  | true =>
    rw [raiseSet_one_set hsrc]
    exact hstuck _
  | false =>
    have hother : x ≠ src := h.resolve_left (by simp [hsrc])
    rw [raiseSet_one_clear hsrc, react_sameButReactions _ _ _ (setsLoc_not_reaction x),
      State.get_inc_ne _ _ _ _ (setsLoc_key_ne hother), hstuck]

/-- A setting counts once. -/
theorem raiseSet_one_sets_counts {s : State} {src : Nat} (h : s.srcSet src = false) (hroom : s.get (E.fault_sets.n src) < 2 ^ 64) :
    (s.raiseSet [src]).1.get (E.fault_sets.n src) = (s.get (E.fault_sets.n src) + 1) % 2 ^ 64 := by
  have hstuck := stuck_get_ne s [] (stickyLoc_key_ne_sets src src).symm
  rw [raiseSet_one_clear h, react_sameButReactions _ _ _ (setsLoc_not_reaction src),
    State.get_inc_self _ _ _ (by rw [hstuck]; exact hroom), hstuck]

/-- A raise is the raise of its source, and of source 643 where a notification was lost (R511). -/
theorem raise_cases (s : State) (src : Nat) :
    s.raise src = (s.raiseSet [src]).1 ∨ s.raise src = ((s.raiseSet [src]).1.raiseSet [643]).1 := by
  unfold State.raise State.raiseAll
  dsimp only
  split
  · exact .inr rfl
  · exact .inl rfl

theorem raise_srcSet (s : State) (src : Nat) : (s.raise src).srcSet src = true := by
  have hset : (s.raiseSet [src]).1.srcSet src = true := raiseSet_one_srcSet (.inr rfl)
  rcases raise_cases s src with h | h
  · rw [h, hset]
  · rw [h, raiseSet_one_srcSet (.inl hset)]

theorem raise_sets_counts {s : State} {src : Nat} (h : s.srcSet src = false) (hroom : s.get (E.fault_sets.n src) < 2 ^ 64) :
    (s.raise src).get (E.fault_sets.n src) = (s.get (E.fault_sets.n src) + 1) % 2 ^ 64 := by
  have hcounts := raiseSet_one_sets_counts h hroom
  rcases raise_cases s src with hr | hr
  · rw [hr, hcounts]
  · have hlost : (s.raiseSet [src]).1.srcSet 643 = true ∨ src ≠ 643 := by
      by_cases h643 : src = 643
      · exact .inl (raiseSet_one_srcSet (.inr h643))
      · exact .inr h643
    rw [hr, raiseSet_one_sets_kept hlost, hcounts]

/-- The raise of a source that is set only notes it. -/
theorem raise_set {s : State} {src : Nat} (h : s.srcSet src = true) : s.raise src = s.stuck src [src] := by
  rw [State.raise, State.raiseAll, raiseSet_one_set h]
  rfl

/-- Settles O18: a raise sets its source's bit (`raise_srcSet`), a setting counts once (`raise_sets_counts`), and the raise of a set
source only notes it (`raise_set`). -/
theorem sourceSetsOnce : Obligations.SourceSetsOnce := by
  intro s src _
  refine ⟨raise_srcSet s src, raise_sets_counts, fun hset => ?_⟩
  rw [raise_set hset]
  exact ⟨fun x => stuck_get_ne s _ (stickyLoc_key_ne_sets src x).symm, rfl, rfl, rfl, rfl⟩

/-! ### Faults and reactions (R506 to R513) -/

theorem requestEntry_fault_pin_rearm : RequestEntry E.fault_pin_rearm := by constructor <;> decide

theorem requestEntry_fault_inject : RequestEntry E.fault_inject := by constructor <;> decide

/-- The rule of `fault.pin_rearm`, by evaluating which chapter's rules name the entry; that of `fault.inject` likewise. -/
theorem writeHook_fault_pin_rearm (s : State) (w : Who) (n k i v : Nat) :
    writeHook s w E.fault_pin_rearm n k i v = some (onOne v s (faultPinRearm s v)) := rfl

theorem writeHook_fault_inject (s : State) (w : Who) (n k i v : Nat) :
    writeHook s w E.fault_inject n k i v = some (faultInject s v) := rfl

/-- The chip reset that a reaction asked for is due. -/
theorem chipResetReaction_due {s : State} {src t : Nat} (hpending : s.flt.pendingReset = some (src, t)) (hdue : t ≤ s.ft) :
    chipResetReaction s = ({ (s.set E.fault_last_reset_cause.s src).inc E.fault_chip_resets.s 1 with
      flt := { s.flt with pendingReset := none } } : State).later (.chipReset 2) := by
  have hflt : ((s.set E.fault_last_reset_cause.s src).inc E.fault_chip_resets.s 1).flt = s.flt := by
    rw [State.inc_eq]
    rfl
  unfold chipResetReaction
  rw [hpending]
  dsimp only
  rw [if_pos hdue, hflt]

/-- The pin held low from outside, while the FN7 samples it and does not drive it, raises source 641. -/
theorem faultNExternal_low {s : State} (hfree : s.flt.drive = false) (hsampled : s.get E.fault_pin_sampling.s = 1) :
    faultNExternal s true =
      ({ s with flt := { s.flt with extLow := true, lowSince := some (s.flt.lowSince.getD (s.ft - 1000)) } } : State).raise 641 := by
  have hsince : (match s.flt.lowSince with | some t => some t | none => some (s.ft - 1000)) =
      some (s.flt.lowSince.getD (s.ft - 1000)) := by
    cases s.flt.lowSince <;> rfl
  rw [← hsince]
  unfold faultNExternal
  dsimp only
  rw [hfree]
  exact if_pos hsampled

theorem faultNExternal_high (s : State) :
    faultNExternal s false = ({ s with flt := { s.flt with extLow := false } } : State).pinTrack := rfl

/-- A pin that has been low and sampled for 10 ms is sampled no more, and raises source 640. -/
theorem faultNStuck_late {s : State} {t : Nat} (hlow : s.flt.lowSince = some t) (hsampled : s.get E.fault_pin_sampling.s = 1)
    (hline : s.lineLow = true) (hlate : max t s.flt.samplingSince + 10000000 ≤ s.ft) :
    faultNStuck s = (s.set E.fault_pin_sampling.s 0).raise 640 := by
  unfold faultNStuck
  rw [hlow]
  exact if_pos ⟨hsampled, hline, hlate⟩

theorem faultPinRearm_high {s : State} (hline : s.lineLow = false) : faultPinRearm s 1 =
    (0, { s.set E.fault_pin_sampling.s 1 with flt := { s.flt with samplingSince := s.ft } }) := by
  rw [faultPinRearm, if_neg one_ne_zero, hline]
  rfl

theorem faultInject_known {s : State} {v : Nat} (hknown : sourceKnown v = true) :
    faultInject s v = (0, { s with flt := { s.flt with injected := s.flt.injected ++ [v] } }) := if_pos hknown

section
variable {s : State} {u : Nat} (hresetting : s.flt.resetting.contains u = true)
include hresetting

/-- A unit that is no stack is back in service. -/
theorem blockResetDone_plain (hunit : u < 24 ∨ 32 ≤ u) :
    blockResetDone s u = { s with flt := { s.flt with resetting := s.flt.resetting.filter (· ≠ u) } } := by
  have hplain : ¬ (24 ≤ u ∧ u < 32 ∧ s.get (E.hbm_state.n (u - 24)) = 1) := by omega
  unfold blockResetDone
  rw [hresetting]
  exact if_neg hplain

/-- A stack that retrained is active. -/
theorem blockResetDone_stack (hlow : 24 ≤ u) (hhigh : u < 32) (htraining : s.get (E.hbm_state.n (u - 24)) = 1) :
    blockResetDone s u =
      ({ s with flt := { s.flt with resetting := s.flt.resetting.filter (· ≠ u) } } : State).set (E.hbm_state.n (u - 24)) 2 := by
  unfold blockResetDone
  have hretrained : 24 ≤ u ∧ u < 32 ∧ s.get (E.hbm_state.n (u - 24)) = 1 := ⟨hlow, hhigh, htraining⟩
  rw [hresetting]
  exact if_pos hretrained

end

/-- Settles O51, a lemma for each rule and each meaning on the clause's case; a write is its entry's rule
(`RequestEntry.taken`). -/
theorem faultsComplete : Obligations.FaultsComplete := by
  intro s
  refine ⟨fun srcs => complete_eq rfl, ?_, ?_, complete_eq (faultNExternal_high s), ?_, ?_, ?_, ?_, ?_⟩
  · exact fun src t hpending hdue => complete_eq (chipResetReaction_due hpending hdue)
  · rintro _ hfree hsampled rfl
    exact complete_eq (faultNExternal_low hfree hsampled)
  · exact fun t hlow hsampled hline hlate => complete_eq (faultNStuck_late hlow hsampled hline hlate)
  · rintro r w _ a rfl hline
    refine requestEntry_fault_pin_rearm.taken a ?_
    rw [writeHook_fault_pin_rearm, onOne_one, faultPinRearm_high hline]
  · intro r w v a hknown
    refine requestEntry_fault_inject.taken a ?_
    rw [writeHook_fault_inject, faultInject_known hknown]
  · exact fun u hresetting hunit => complete_eq (blockResetDone_plain hresetting hunit)
  · exact fun u hresetting hlow hhigh htraining => complete_eq (blockResetDone_stack hresetting hlow hhigh htraining)

end Sys2Proof.Machine

/-!
PROOFS of power domains and states (spec/20_power_domains_and_states.md) and of the orderly shut-down's request
(spec/21_self_test_and_repair.md): requests (R520, R521, R531, R542), drains (R522), wake events (R525), restores (R528, R529, R531),
shedding (R534, R535) and the wait for VDD_SD (R584).
-/

namespace Sys2Proof.Machine

/-! ### Writes of power entries -/

theorem requestEntry_pwr_target : RequestEntry E.pwr_target := by constructor <;> decide

theorem requestEntry_pwr_enter_at : RequestEntry E.pwr_enter_at := by constructor <;> decide

theorem staticEntry_pwr_dom_request : StaticEntry E.pwr_dom_request := by constructor <;> decide

theorem requestEntry_pwr_dom_retry : RequestEntry E.pwr_dom_retry := by constructor <;> decide

theorem requestEntry_st_shutdown : RequestEntry E.st_shutdown := by constructor <;> decide

/-- The rule of `pwr.target`, by evaluating which chapter's rules name the entry; those below likewise. -/
theorem writeHook_pwr_target (s : State) (w : Who) (n k i v : Nat) :
    writeHook s w E.pwr_target n k i v = some (s.pwrRequest v) := rfl

theorem writeHook_pwr_enter_at (s : State) (w : Who) (n k i v : Nat) : writeHook s w E.pwr_enter_at n k i v =
    some (if 3 < v / 2 ^ 64 % 256 ∨ v / 2 ^ 72 ≠ 0 then (0x06, s) else pwrEnterAt s (v % 2 ^ 64) (v / 2 ^ 64 % 256)) := rfl

theorem writeHook_pwr_dom_request (s : State) (w : Who) (n k i v : Nat) :
    writeHook s w E.pwr_dom_request n k i v = some (pwrDomRequest s n v) := rfl

theorem writeHook_pwr_dom_retry (s : State) (w : Who) (n k i v : Nat) :
    writeHook s w E.pwr_dom_retry n k i v = some (onOne v s (pwrDomRetry s n v)) := rfl

theorem writeHook_st_shutdown (s : State) (w : Who) (n k i v : Nat) :
    writeHook s w E.st_shutdown n k i v = some (stShutdown s v) := rfl

/-! ### Requests (R520 to R522, R531, R542) -/

/-- An entry that nothing refuses begins. -/
theorem State.pwrBegin_begins {s : State} {target : Nat} {doms : List Nat} (hfree : s.pwrRefuse target doms = none) :
    s.pwrBegin target doms = (0, (s.modPwr fun p => { p with entry := some ⟨target, doms, s.ft, if target = 2 then
      (s.ms.accs.filter fun a => !(s.stacksOf (rillAddr a.h) (accLen a.h)).isEmpty).map (·.id) else []⟩ }).set E.pwr_phase.s 1) := by
  unfold State.pwrBegin
  rw [hfree]

section
variable {s : State} (hup : s.pwr.trip = false) (hnone : s.pwr.entry = none)
include hup hnone

/-- A request for a deeper state, with no entry in progress, begins one. -/
theorem State.pwrRequest_deeper {v : Nat} (hdeep : s.get E.pwr_state.s ≤ v) (hnew : v ≠ s.get E.pwr_state.s) :
    s.pwrRequest v = s.pwrBegin v (s.domsThat fun k => offIn v k && s.dstat k == 0) := by
  simp only [State.pwrRequest, hup, hnone, Bool.false_eq_true, if_false, decide_eq_false (Nat.not_lt.2 hdeep), hnew, false_and]

/-- A request for a shallower state wakes. -/
theorem State.pwrRequest_shallower {v : Nat} (hshallow : v < s.get E.pwr_state.s) : s.pwrRequest v = (0, s.wake v) := by
  simp only [State.pwrRequest, hup, hnone, Bool.false_eq_true, if_false, decide_eq_true hshallow, if_true]

end

/-- A request for a power state at an FT is scheduled. -/
theorem pwrEnterAt_taken {s : State} {ft target : Nat} (hup : s.pwr.trip = false) (hstate : target ≤ 3) (htest : s.ftTest ft = 0) :
    pwrEnterAt s ft target = (0, s.schedule ft (.pwrEnter target)) := by
  simp [pwrEnterAt, Nat.not_lt.2 hstate, hup, ftTestIn_free htest]

/-- The value of `pwr.enter_at` names an FT and a state. -/
theorem writeHook_pwr_enter_at_pair (s : State) (w : Who) (n k i : Nat) {ft target : Nat} (hft : ft < 2 ^ 64) (hstate : target ≤ 3) :
    writeHook s w E.pwr_enter_at n k i (ft + target * 2 ^ 64) = some (pwrEnterAt s ft target) := by
  have hlow : (ft + target * 2 ^ 64) % 2 ^ 64 = ft := by omega
  have hmid : (ft + target * 2 ^ 64) / 2 ^ 64 % 256 = target := by omega
  have hvalid : ¬ (3 < target ∨ (ft + target * 2 ^ 64) / 2 ^ 72 ≠ 0) := by omega
  rw [writeHook_pwr_enter_at, hlow, hmid, if_neg hvalid]

theorem pwrEnterFire_due {s : State} {ft seq t : Nat} (hdue : s.dueAct = some ⟨ft, seq, .pwrEnter t⟩) :
    pwrEnterFire s = (State.pwrRequest { s with sched := s.sched.erase ⟨ft, seq, .pwrEnter t⟩ } t).2 := by
  simp only [pwrEnterFire, hdue]

section
variable {s : State} {k : Nat} (hmay : requestable k = true) (hfitted : domFitted s.part k = true) (hawake : s.get E.pwr_state.s ≠ 3)
include hmay hfitted hawake

/-- A domain in use is requested off: an entry begins. -/
theorem pwrDomRequest_off (hon : s.get (E.pwr_dom_request.n k) = 0) (hused : s.dstat k = 0) (hfree : s.pwrRefuse 0xFF [k] = none) :
    pwrDomRequest s k 1 = (0, ((s.modPwr fun p => { p with entry := some ⟨0xFF, [k], s.ft, []⟩ }).set E.pwr_phase.s 1).set
      (E.pwr_dom_request.n k) 1) := by
  have hvalid : ¬ ((!requestable k) = true ∨ (!domFitted s.part k) = true ∨ 1 < 1) := by simp [hmay, hfitted]
  have hchange : ¬ s.get (E.pwr_dom_request.n k) = 1 := by rw [hon]; exact zero_ne_one
  simp only [pwrDomRequest, if_neg hvalid, if_neg hawake, if_neg hchange, if_true, if_pos hused, State.pwrBegin_begins hfree]
  rfl

/-- A domain that was requested off, and that nothing else keeps off, is queued for its restore. -/
theorem pwrDomRequest_on {b : State} (hoff : s.get (E.pwr_dom_request.n k) = 1) (hb : b = s.set (E.pwr_dom_request.n k) 0)
    (hgone : b.dstat k = 1) (hfree : b.keptOff (s.get E.pwr_state.s) k = false) :
    pwrDomRequest s k 0 = (0, (b.restore (s.get E.pwr_state.s) [k]).exitCheck) := by
  have hvalid : ¬ ((!requestable k) = true ∨ (!domFitted s.part k) = true ∨ 1 < 0) := by simp [hmay, hfitted]
  have hchange : ¬ s.get (E.pwr_dom_request.n k) = 0 := by rw [hoff]; exact one_ne_zero
  have hback : b.dstat k = 1 ∧ (!b.keptOff (s.get E.pwr_state.s) k) = true := ⟨hgone, by rw [hfree]; rfl⟩
  unfold pwrDomRequest
  dsimp only
  rw [if_neg hvalid, if_neg hawake, if_neg hchange, if_neg zero_ne_one, ← hb, if_pos hback]

end

/-- A failed domain that nothing else keeps off is queued for one more restore. -/
theorem pwrDomRetry_failed {s : State} {k : Nat} (hlow : 3 ≤ k) (hfitted : domFitted s.part k = true) (hfailed : s.dstat k = 4)
    (hfree : (s.set (E.pwr_dom_status.n k) 1).keptOff (s.get E.pwr_state.s) k = false) :
    pwrDomRetry s k 1 = (0, (s.set (E.pwr_dom_status.n k) 1).restore (s.get E.pwr_state.s) [k]) := by
  have hvalid : ¬ (k < 3 ∨ (!domFitted s.part k) = true) := by simp [hlow, hfitted]
  unfold pwrDomRetry
  dsimp only
  rw [if_neg hvalid, if_neg one_ne_zero, if_neg (not_not.2 hfailed), hfree, if_neg Bool.false_ne_true]

/-- An orderly shut-down is scheduled, and replaces one that is pending. -/
theorem stShutdown_taken {s : State} {v : Nat} (htest : s.ftTest v = 0)
    (hallowed : bitAt (s.get E.st_lbist_states.s) (s.get E.lc_state.s) = true) (hidle : s.get E.st_state.s ≠ 2) :
    stShutdown s v = (0, (s.unschedule .shutdown).schedule v .shutdown) := by
  have hright : (!bitAt (s.get E.st_lbist_states.s) (s.get E.lc_state.s) || s.get E.st_state.s == 2) = false := by
    simp [hallowed, hidle]
  simp only [stShutdown, hright, ftTestIn_free htest]
  exact if_neg (not_not.2 rfl)

/-- Settles O52, a lemma for each rule and each meaning on the clause's case; a write is its entry's rule (`RequestEntry.taken`,
`StaticEntry.taken`). -/
theorem powerRequestsComplete : Obligations.PowerRequestsComplete := by
  intro s
  refine ⟨?_, ?_, ?_, ?_, ?_, ?_, ?_, ?_⟩
  · rintro r w v _ a hup hnone hdeep hnew rfl hfree
    refine requestEntry_pwr_target.taken a ?_
    rw [writeHook_pwr_target, State.pwrRequest_deeper hup hnone hdeep hnew, State.pwrBegin_begins hfree]
  · intro r w v a hup hnone hshallow
    refine requestEntry_pwr_target.taken a ?_
    rw [writeHook_pwr_target, State.pwrRequest_shallower hup hnone hshallow]
  · intro r w ft target a hup hstate hft htest
    refine requestEntry_pwr_enter_at.taken a ?_
    rw [writeHook_pwr_enter_at_pair _ _ _ _ _ hft hstate, pwrEnterAt_taken hup hstate htest]
  · exact fun ft seq t hdue => complete_eq (pwrEnterFire_due hdue)
  · rintro r w k _ a hmay hfitted hawake hon rfl hused hfree
    refine staticEntry_pwr_dom_request.taken a ?_
    rw [writeHook_pwr_dom_request, pwrDomRequest_off hmay hfitted hawake hon hused hfree]
  · rintro r w k _ b a hmay hfitted hawake hoff rfl hb hgone hfree
    refine staticEntry_pwr_dom_request.taken a ?_
    rw [writeHook_pwr_dom_request, pwrDomRequest_on hmay hfitted hawake hoff hb hgone hfree]
  · rintro r w k _ a hlow hfitted rfl hfailed hfree
    refine requestEntry_pwr_dom_retry.taken a ?_
    rw [writeHook_pwr_dom_retry, onOne_one, pwrDomRetry_failed hlow hfitted hfailed hfree]
  · intro r w v a htest hallowed hidle
    refine requestEntry_st_shutdown.taken a ?_
    rw [writeHook_st_shutdown, stShutdown_taken htest hallowed hidle]

/-! ### Drains (R522) -/

section
variable {s : State} {e : PwrEntry} (hentry : s.pwr.entry = some e)
include hentry

section
variable (hjobs : (s.mill.jobs.any (fun j => j.state == 1 && j.mills.any fun x =>
    e.doms.contains (millDomain x) || e.doms.contains (21 + 5 * (x / 68)))) = false)
  (haccs : (e.accs.any (fun id => s.ms.accs.any fun x => x.id == id)) = false)
include hjobs haccs

/-- The drain of domains that were requested off ends: they switch off, and the state stays. -/
theorem drainDone_domains {a : State} (htarget : e.target = 0xFF)
    (ha : a = e.doms.reverse.foldl (fun (st : State) k => st.domOff k false) s) :
    drainDone s = (a.modPwr fun p => { p with entry := none }).pwrRest := by
  have hnone : (0xFF == 2) = false := rfl
  have hplain : ¬ 0xFF = 3 := by decide
  unfold drainDone
  rw [hentry]
  dsimp only
  rw [hjobs, haccs, htarget]
  simp only [Bool.or_self, Bool.false_eq_true, if_false, if_true, hnone, Bool.false_and, hplain, false_and, ← ha]

/-- The drain toward a state other than P3 ends: its domains switch off, and the state is reached. -/
theorem drainDone_state {a b : State} (htarget : e.target < 3)
    (ha : a = e.doms.reverse.foldl (fun (st : State) k => st.domOff k (e.target == 2 && decide (41 ≤ k ∧ k ≤ 48)))
      (s.setDoms (domSet e.target) [1]))
    (hb : b = (a.modPwr fun p => { p with entry := none }).set E.pwr_state.s e.target) : drainDone s = b.pwrRest := by
  have hstate : ¬ e.target = 0xFF := by omega
  have hplain : ¬ e.target = 3 := by omega
  unfold drainDone
  rw [hentry]
  dsimp only
  rw [hjobs, haccs]
  simp only [Bool.or_self, Bool.false_eq_true, hstate, hplain, false_and, if_false, ← ha, ← hb]

end

/-- An entry toward a state that reaches its limit is abandoned. -/
theorem drainLimit_late (hlate : e.at_ + s.get E.pwr_drain_limit.s ≤ s.ft) (hstate : e.target ≠ 0xFF) (hplain : s.get E.st_state.s ≠ 1) :
    drainLimit s = s.pwrAbandon 2 := by
  unfold drainLimit
  rw [hentry]
  dsimp only
  rw [if_pos hlate, if_neg hstate, if_neg hplain]

end

/-! ### Wake events (R525) -/

/-- A source that is active in every state wakes. -/
theorem wakeEvent_always {s : State} {src : Nat} (hmem : src ≠ 2) (hlane : src ≠ 4) (hjob : src ≠ 5) :
    wakeEvent s src = s.wake (s.get E.pwr_wake_state.s) := by
  unfold wakeEvent
  dsimp only
  rw [if_neg hlane, if_neg hjob, if_neg hmem, if_pos rfl]

/-- A signal on a wake lane wakes in P3. -/
theorem laneSignalWake_asleep {s : State} {l : Nat} (hlane : s.domBit E.pwr_wake_lanes 0 0 l = true)
    (hfitted : laneFitted s.part l = true) (hstate : s.get E.pwr_state.s = 3) :
    laneSignalWake s l = s.wake (s.get E.pwr_wake_state.s) := by
  rw [laneSignalWake, if_pos ⟨hlane, hfitted⟩]
  simp [wakeEvent, hstate]

/-! ### Restores (R528, R529, R531, R584) -/

/-- The first waiting domain is admitted with its settings, in the state that is restored. -/
theorem domainAdmit_admits {s a b : State} {k delay : Nat} {ks : List Nat} (hwaits : s.pwr.waiting = k :: ks)
    (hsupply : s.pwr.sdLow = false) (ha : a = s.modPwr fun p => { p with sdWait := none }) (hgood : a.dstat k ≠ 4)
    (hmay : a.admissible k = some true)
    (hdelay : delay = if 41 ≤ k ∧ k ≤ 48 ∧ a.dstat k = 1 then 40000000 else a.get (E.pwr_dom_restore_ns.n k))
    (hb : b = a.modPwr fun p => { p with waiting := ks, ramps := p.ramps ++ [(⟨k, a.ft, delay, false⟩ : Ramp)] }) :
    domainAdmit s =
      (b.setDoms (domSet (b.pwr.exit_.getD (b.get E.pwr_state.s))) [1, k]).set (E.pwr_dom_status.n k) 3 := by
  unfold domainAdmit
  rw [hwaits]
  dsimp only
  simp only [hsupply, Bool.and_false, Bool.false_eq_true, if_false]
  rw [← ha, if_neg hgood, hmay]
  dsimp only
  rw [← hdelay, ← hb]

section
variable {s : State} {k : Nat} {x : Ramp} (hramp : s.pwr.ramps.find? (fun r => r.dom == k && !r.good) = some x)
  (hdue : x.at_ + s.get (E.pwr_dom_ramp_ns.n k) ≤ s.ft)
include hramp hdue

theorem rampWindowEnd_good (hkept : (s.pwr.shed && millGroup k) = false) : rampWindowEnd s k true =
    s.modPwr fun p => { p with ramps := p.ramps.map fun (r : Ramp) => if r.dom = k then { r with good := true } else r } := by
  unfold rampWindowEnd
  rw [hramp]
  dsimp only
  rw [if_neg (Nat.not_lt.2 hdue), hkept]
  rfl

theorem rampWindowEnd_bad : rampWindowEnd s k false = s.failDom k := by
  unfold rampWindowEnd
  rw [hramp]
  exact if_neg (Nat.not_lt.2 hdue)

end

/-- A domain below IOD0 that has been restored serves, and what it owns looks after itself. -/
theorem domainUsable_plain {s a : State} {k : Nat} {x : Ramp} (hramp : s.pwr.ramps.find? (fun r => r.dom == k && r.good) = some x)
    (hdue : x.at_ + x.delay ≤ s.ft) (hplain : k < 17)
    (ha : a = (s.modPwr fun p => { p with ramps := p.ramps.filter (fun r => r.dom != k) }).set (E.pwr_dom_status.n k) 0) :
    domainUsable s k = (a.later .upkeep).exitCheck := by
  have hport : ¬ (17 ≤ k ∧ k ≤ 20) := by omega
  have hmill : ¬ (21 ≤ k ∧ k ≤ 40) := by omega
  have hstack : ¬ (41 ≤ k ∧ k ≤ 48) := by omega
  have hcxl : ¬ 49 ≤ k := by omega
  unfold domainUsable
  rw [hramp]
  dsimp only
  rw [if_neg (Nat.not_lt.2 hdue), if_neg hport, if_neg hmill, if_neg hstack, if_neg hcxl, ← ha]

theorem vddSdTimeout_late {s : State} {k t : Nat} {ks : List Nat} (hwaits : s.pwr.waiting = k :: ks) (hsince : s.pwr.sdWait = some t)
    (hlow : 17 ≤ k) (hhigh : k ≤ 20) (hsupply : s.pwr.sdLow = true) (hlate : t + 100000000 ≤ s.ft) :
    vddSdTimeout s = (s.modPwr fun p => { p with sdWait := none }).failDom k := by
  have hfails : 17 ≤ k ∧ k ≤ 20 ∧ s.pwr.sdLow = true ∧ t + 100000000 ≤ s.ft := ⟨hlow, hhigh, hsupply, hlate⟩
  unfold vddSdTimeout
  rw [hwaits, hsince]
  exact if_pos hfails

/-! ### Shedding (R534, R535) -/

/-- The warning begins: Mill load is shed. -/
theorem pwrWarnAssert_sheds {s a b c d : State} {on : List Nat} (hnew : s.get E.pwr_warn_level.s ≠ 1)
    (ha : a = ((s.set E.pwr_warn_level.s 1).raise 639).inc E.pwr_sheds.s 1)
    (hb : b = (a.modPwr fun p => { p with
      shed := true, shedAt := a.ft, held := false, waiting := p.waiting.filter (fun k => !millGroup k) }).abortJobs
      (fun j => j.state == 1 && j.mills != []) 0x0B)
    (hon : on = b.domsThat fun k => millGroup k && (b.dstat k == 0 || b.pwr.ramps.any (fun r => r.dom == k && r.good)))
    (hc : c = on.reverse.foldl (fun (st : State) k => st.domOff k false)
      (b.modPwr fun p => { p with ramps := p.ramps.filter (fun r => !on.contains r.dom) }))
    (hd : d = c.exitCheck) :
    pwrWarnAssert s = if d.pwr.entry.isNone && d.pwr.exit_.isNone then d.pwrRest else d := by
  unfold pwrWarnAssert
  rw [if_neg hnew]
  dsimp only
  rw [← ha, ← hb, ← hon, ← hc, ← hd]

section
variable {s a : State} (hwarned : s.get E.pwr_warn_level.s ≠ 0)
  (ha : a = (s.set E.pwr_warn_level.s 0).modPwr fun p => { p with shed := false })
include hwarned ha

/-- The warning ends in a stage of a start before the restores: nothing is restored yet. -/
theorem pwrWarnDeassert_starting (hstart : a.get E.boot_stage.s ≠ 0) (hearly : a.get E.boot_stage.s < 4) : pwrWarnDeassert s = a := by
  unfold pwrWarnDeassert
  rw [if_neg hwarned]
  dsimp only
  rw [← ha, if_pos ⟨hstart, hearly⟩]

/-- The warning ends in service: the groups that nothing else keeps off are restored. -/
theorem pwrWarnDeassert_restores {ks : List Nat} {cur dest : Nat} (hstarted : a.get E.boot_stage.s = 0) (hcur : cur = a.get E.pwr_state.s)
    (hdest : dest = a.pwr.exit_.getD cur) (hks : ks = a.domsThat fun k => millGroup k && a.dstat k == 1 && !a.keptOff dest k)
    (hsome : ks ≠ []) (hnone : a.pwr.entry = none) : pwrWarnDeassert s = a.restore dest ks := by
  have hserves : ¬ (a.get E.boot_stage.s ≠ 0 ∧ a.get E.boot_stage.s < 4) := fun h => h.1 hstarted
  have hgoes : ¬ (a.pwr.entry.isSome = true ∨ ks = []) := by simp [hnone, hsome]
  unfold pwrWarnDeassert
  rw [if_neg hwarned]
  dsimp only
  rw [← ha, if_neg hserves, ← hcur, ← hdest, ← hks, if_neg hgoes]

end

/-- The hold window expires: held Mill load stays away. -/
theorem holdWindowExpire_late {s : State} (hwarned : s.get E.pwr_warn_level.s ≠ 0) (hfirst : s.pwr.held = false)
    (hlate : s.pwr.shedAt + s.get E.pwr_hold_window.s ≤ s.ft) (hplain : s.get E.pwr_hold_action.s ≠ 1) :
    holdWindowExpire s = s.modPwr fun p => { p with held := true } := by
  have hexpires : ¬ (s.get E.pwr_warn_level.s = 0 ∨ s.pwr.held = true ∨ s.ft < s.pwr.shedAt + s.get E.pwr_hold_window.s) := by
    simp [hwarned, hfirst, hlate]
  have hstays : ¬ (s.get E.pwr_hold_action.s = 1 ∧ s.get E.pwr_state.s < 2) := fun h => hplain h.1
  rw [holdWindowExpire, if_neg hexpires]
  exact if_neg hstays

/-- Settles O53, a lemma for each meaning on the clause's case. -/
theorem powerEventsComplete : Obligations.PowerEventsComplete := by
  intro s
  refine ⟨?_, ?_, ?_, ?_, ?_, ?_, ?_, ?_, ?_, ?_, ?_, ?_, ?_, ?_⟩
  · exact fun e a hentry hjobs haccs htarget ha => complete_eq (drainDone_domains hentry hjobs haccs htarget ha)
  · exact fun e a b hentry hjobs haccs htarget ha hb => complete_eq (drainDone_state hentry hjobs haccs htarget ha hb)
  · exact fun e hentry hlate hstate hplain => complete_eq (drainLimit_late hentry hlate hstate hplain)
  · exact fun src hmem hlane hjob => complete_eq (wakeEvent_always hmem hlane hjob)
  · exact fun l hlane hfitted hstate => complete_eq (laneSignalWake_asleep hlane hfitted hstate)
  · exact fun k delay ks a b hwaits hsupply ha hgood hmay hdelay hb =>
      complete_eq (domainAdmit_admits hwaits hsupply ha hgood hmay hdelay hb)
  · exact fun k x hramp hdue hkept => complete_eq (rampWindowEnd_good hramp hdue hkept)
  · exact fun k x hramp hdue => complete_eq (rampWindowEnd_bad hramp hdue)
  · exact fun k x a hramp hdue hplain ha => complete_eq (domainUsable_plain hramp hdue hplain ha)
  · exact fun a b c d on hnew ha hb hon hc hd => complete_eq (pwrWarnAssert_sheds hnew ha hb hon hc hd)
  · exact fun a hwarned ha hstart hearly => complete_eq (pwrWarnDeassert_starting hwarned ha hstart hearly)
  · exact fun ks cur dest a hwarned ha hstarted hcur hdest hks hsome hnone =>
      complete_eq (pwrWarnDeassert_restores hwarned ha hstarted hcur hdest hks hsome hnone)
  · exact fun hwarned hfirst hlate hplain => complete_eq (holdWindowExpire_late hwarned hfirst hlate hplain)
  · exact fun k t ks hwaits hsince hlow hhigh hsupply hlate =>
      complete_eq (vddSdTimeout_late hwaits hsince hlow hhigh hsupply hlate)

end Sys2Proof.Machine

/-!
PROOFS of re-cabling windows, the rack-wide reset (spec/22_racks_planes_coordinates.md, R558, R560, R561) and the start
(spec/23_from_power_on_to_service.md, R564, R566, R583).
-/

namespace Sys2Proof.Machine

/-! ### Re-cabling windows and the rack-wide reset (R558, R560, R561) -/

theorem requestEntry_recable_open_at : RequestEntry E.recable_open_at := by constructor <;> decide

theorem requestEntry_recable_close : RequestEntry E.recable_close := by constructor <;> decide

/-- The rule of `recable.open_at`, by evaluating which chapter's rules name the entry; that of `recable.close` likewise. -/
theorem writeHook_recable_open_at (s : State) (w : Who) (n k i v : Nat) :
    writeHook s w E.recable_open_at n k i v = some (recableOpenAt s v) := rfl

theorem writeHook_recable_close (s : State) (w : Who) (n k i v : Nat) :
    writeHook s w E.recable_close n k i v = some (onOne v s (recableClose s v)) := rfl

section
variable {s : State} (hfree : s.recableCheck 0 = 0)
include hfree

theorem recableOpenAt_now : recableOpenAt s 0 = (0, s.recableOpen) := by
  simp [recableOpenAt, hfree]

theorem recableOpenAt_later {v : Nat} (hsome : v ≠ 0) (htest : s.ftTest v = 0) :
    recableOpenAt s v = (0, (s.schedule v .recable).set E.recable_state.s 1) := by
  simp [recableOpenAt, hfree, hsome, htest]

end

/-- A scheduled window that nothing refuses opens. -/
theorem recableOpenFire_due {s : State} {ft seq : Nat} (hdue : s.dueAct = some ⟨ft, seq, .recable⟩)
    (hfree : (s.unschedule .recable).recableCheck 1 = 0) : recableOpenFire s = (s.unschedule .recable).recableOpen := by
  simp only [recableOpenFire, hdue, if_pos hfree]

theorem recableClose_open {s : State} (hopen : s.get E.recable_state.s = 2) : recableClose s 1 = (0, s.recableEnd) := by
  rw [recableClose, if_neg one_ne_zero, if_neg (not_not.2 hopen)]

/-- An open window is at its limit once the limit has passed since it opened. -/
theorem State.recableDue_open {s : State} (hopen : s.get E.recable_state.s = 2)
    (hlate : s.get E.recable_opened.s + s.get E.recable_limit.s ≤ s.ft) : s.recableDue = true := by
  simp [State.recableDue, hopen, hlate]

/-- A reset at an FT replaces one that is pending. -/
theorem rackResetAt_taken {s : State} {v : Nat} (htest : (s.unschedule .rackReset).ftTest v = 0) : rackResetAt s v =
    (0, ((s.unschedule .rackReset).schedule v .rackReset).set E.rack_reset_pending.s v) := by
  unfold rackResetAt
  dsimp only
  rw [htest]
  exact if_neg (not_not.2 rfl)

theorem rackResetFire_due {s : State} {ft seq : Nat} (hdue : s.dueAct = some ⟨ft, seq, .rackReset⟩) :
    rackResetFire s = ((s.unschedule .rackReset).set E.rack_reset_pending.s 0).later (.chipReset 4) := by
  simp only [rackResetFire, hdue]

/-- Settles O55, a lemma for each rule and each meaning on the clause's case; a write is its entry's rule
(`RequestEntry.taken`). -/
theorem rackEventsComplete : Obligations.RackEventsComplete := by
  intro s
  refine ⟨?_, ?_, ?_, ?_, ?_, ?_, ?_⟩
  · rintro r w _ a hfree rfl
    refine requestEntry_recable_open_at.taken a ?_
    rw [writeHook_recable_open_at, recableOpenAt_now hfree]
  · intro r w v a hfree hsome htest
    refine requestEntry_recable_open_at.taken a ?_
    rw [writeHook_recable_open_at, recableOpenAt_later hfree hsome htest]
  · exact fun ft seq hdue hfree => complete_eq (recableOpenFire_due hdue hfree)
  · rintro r w _ a rfl hopen
    refine requestEntry_recable_close.taken a ?_
    rw [writeHook_recable_close, onOne_one, recableClose_open hopen]
  · intro hopen hlate
    have hdue := State.recableDue_open hopen hlate
    exact ⟨complete_eq (if_pos hdue), if_pos hdue⟩
  · intro r w v a htest
    refine requestEntry_rack_reset_at.taken a ?_
    rw [writeHook_rack_reset_at, rackResetAt_taken htest]
  · exact fun ft seq hdue => complete_eq (rackResetFire_due hdue)

/-! ### Power-on, chip reset and the start (R564, R566, R583) -/

theorem chipResetPin_on {s : State} (hon : s.boot.off = false) : chipResetPin s = s.chipReset 1 := by
  rw [chipResetPin, hon, if_neg Bool.false_ne_true]

theorem chipResetPin_off {s : State} (hoff : s.boot.off = true) : chipResetPin s = s.powerUp := if_pos hoff

section
variable {s : State} (hruns : s.boot.hold = false) (hgood : s.get E.boot_code.s ≠ 1) (hlive : s.get E.boot_code.s ≠ 2)
include hruns hgood hlive

/-- A start that runs and has not stopped ends its stage. -/
theorem bootStageEnd_ends (fails : List BootUnit) :
    bootStageEnd s fails = (s.stageDone (s.get E.boot_stage.s) fails).pinTrack := by
  have hgoes : ¬ (s.boot.hold = true ∨ s.get E.boot_code.s = 1 ∨ s.get E.boot_code.s = 2) := by simp [hruns, hgood, hlive]
  rw [bootStageEnd, if_neg hgoes]

/-- A stage of such a start has overrun once its limit has passed. -/
theorem stageOverrun_goes {st : Nat} (hstage : st ≠ 0) (hlate : stageLimit st ≤ s.boot.stageNs) :
    ¬ (st = 0 ∨ s.boot.hold = true ∨ s.boot.stageNs < stageLimit st ∨ s.get E.boot_code.s = 1 ∨ s.get E.boot_code.s = 2) := by
  simp [hstage, hruns, hlate, hgood, hlive]

/-- A stage other than 4, and other than the first overrun of stage 2, ends with its unfinished units failed. -/
theorem stageOverrun_ends {st : Nat} (un : List BootUnit) (hst : st = s.get E.boot_stage.s) (hstage : st ≠ 0)
    (hlate : stageLimit st ≤ s.boot.stageNs) (hswapped : st = 2 → s.boot.swapped = true) (hother : st ≠ 4)
    (hboot : (s.bootFail st 0x05).boot = s.boot) : stageOverrun s un = ((s.bootFail st 0x05).stageDone st un).pinTrack := by
  have hplain : ¬ (st = 2 ∧ (!(s.bootFail st 0x05).boot.swapped) = true) := by
    rintro ⟨htwo, hfirst⟩
    rw [hboot, hswapped htwo] at hfirst
    exact Bool.false_ne_true hfirst
  unfold stageOverrun
  dsimp only
  rw [← hst, if_neg (stageOverrun_goes hruns hgood hlive hstage hlate), if_neg hplain, if_neg hother]

/-- Stage 4 ends with the domains that it still waits for failed. -/
theorem stageOverrun_domains {a : State} (un : List BootUnit) (hst : s.get E.boot_stage.s = 4) (hlate : stageLimit 4 ≤ s.boot.stageNs)
    (ha : a = s.bootFail 4 0x05) : stageOverrun s un =
      ((a.pwr.waiting ++ a.pwr.ramps.map (·.dom)).foldl (fun (st : State) k => st.failDom k) a).stageTo 5 := by
  have hplain : ¬ (4 = 2 ∧ (!a.boot.swapped) = true) := fun h => absurd h.1 (by decide)
  unfold stageOverrun
  dsimp only
  rw [hst, if_neg (stageOverrun_goes hruns hgood hlive (by decide) hlate), ← ha, if_neg hplain, if_pos rfl]

end

/-- VIN_IVR is back: the FN7 starts. -/
theorem vinRecovered_held {s : State} (hheld : s.boot.hold = true) (hon : s.boot.off = false) :
    vinRecovered s = { s with boot := { s.boot with hold := false } } := if_pos ⟨hheld, by rw [hon]; rfl⟩

/-- Settles O56, a lemma for each meaning on the clause's case. -/
theorem startCompletes : Obligations.StartCompletes := by
  intro s
  refine ⟨complete_eq rfl, ?_, ?_, ?_, ?_, ?_, ?_, ?_, ?_⟩
  · exact fun hon => complete_eq (chipResetPin_on hon)
  · exact fun hoff => complete_eq (chipResetPin_off hoff)
  · exact fun fails hruns hgood hlive => complete_eq (bootStageEnd_ends hruns hgood hlive fails)
  · exact fun un st hst hstage hruns hlate hgood hlive hswapped hother hboot =>
      complete_eq (stageOverrun_ends hruns hgood hlive un hst hstage hlate hswapped hother hboot)
  · exact fun un a hst hruns hlate hgood hlive ha => complete_eq (stageOverrun_domains hruns hgood hlive un hst hlate ha)
  · rintro _ rfl
    exact complete_eq rfl
  · exact fun hheld hon => complete_eq (vinRecovered_held hheld hon)
  · rintro _ _ rfl rfl
    exact complete_eq rfl

end Sys2Proof.Machine
